-- ==== Sys2Proof/Word.lean ====
section
/-! DEFINITION. The bytes of the command link and the numbers by which the spec names its objects (00_scope.md,
section 1.5 "Indices"; Table 1-1; Table 11-2). A number's range stands in its type. -/

namespace Sys2Proof

/-- One byte of the command link (R165). -/
abbrev Byte := BitVec 8

/-- Block zones 0–47 (R1). -/
abbrev ZoneIx := Fin 48
/-- Boundaries 0–51 (R1). -/
abbrev BoundaryIx := Fin 52
/-- Switches 0–3 (R1). -/
abbrev SwitchIx := Fin 4
/-- Stations 0–3 (R1). -/
abbrev StationIx := Fin 4
/-- Drive channels 0–7 (R1). -/
abbrev ChannelIx := Fin 8
/-- Function inputs 0–15 (R1, R141). -/
abbrev InputIx := Fin 16
/-- Train slots 0–15 (R51). -/
abbrev SlotIx := Fin 16
/-- Track sensor lines 0–127 (R77). -/
abbrev SensorLine := Fin 128
/-- Proof input lines 0–95 (R125). -/
abbrev ProofLine := Fin 96
/-- Switch command output lines 0–7 (Table 11-2). -/
abbrev OutputLine := Fin 8

end Sys2Proof
end

