-- ==== Sys2Proof/Config.lean ====
section
/-! DEFINITION. The figures the spec fixes for every BZ48, and the one value it leaves open, a free value. -/

namespace Sys2Proof.Config

/-- The largest gate interval and the time of a gate stall, in µs (R86, R87). -/
def gateLimit : Nat := 16777215
/-- The function input filter time and the start-up wait of the inputs, 20 ms in µs (R141, R142). -/
def inputFilter : Nat := 20000
/-- Microseconds in a millisecond: durations are in ms, the time base counts µs (R79). -/
def usPerMs : Nat := 1000
/-- The largest speed a record holds, in mm/s (R96). -/
def speedLimit : Nat := 65535
/-- The largest early bound a record holds, in ms (R100). -/
def earlyLimit : Nat := 600000
/-- The limit of the saturating early and overdue counts (Table 3-1). -/
def countLimit : Nat := 255
/-- The most zones a chain holds (R22, R26). -/
def chainLimit : Nat := 4
/-- The most steps the walk of SELECT_LAST takes (R44), and a bound on the zones of any walk. -/
def walkLimit : Nat := 48
/-- Train slots (R51). -/
def slots : Nat := 16
/-- The format version of images this part writes (R180). -/
def formatVersion : Nat := 1

/-- The sync byte of a command frame (Table 10-5). -/
def syncByte : Byte := 0x96#8
/-- What the part sends in PREPARING, AWAITING_BLOCK, RECEIVING_BLOCK and ACCEPTING (Table 10-1). -/
def waitByte : Byte := 0xFF#8
/-- The start byte of a data block (Table 10-9). -/
def blockStart : Byte := 0x6A#8
/-- The end-of-stream byte (section 10.7). -/
def endOfStreamByte : Byte := 0x5F#8
/-- The acceptance byte of an accepted host block (R171). -/
def acceptedByte : Byte := 0xA1#8
/-- The acceptance byte of a host block that fails its check (R171). -/
def checkFailedByte : Byte := 0xA4#8
/-- The acceptance byte of a host block whose content is rejected (R171). -/
def rejectedByte : Byte := 0xA7#8

/-- A FREE VALUE (assumption log 23): how many bytes of 0xFF the part sends in PREPARING or ACCEPTING before the answer of the
given number. R165 gives the bound of 7 alone. -/
opaque waitBytes : Nat → Fin 8

end Sys2Proof.Config
end

