-- ==== Sys2Proof/Machine/Bytes.lean ====
section
/-! DEFINITION. Byte order and the three check codes of the command link and the stored image
(R166, R170, R180; 00_scope.md section 1.5 "Link byte order"). -/

namespace Sys2Proof.Machine

/-- The low eight bits of a number. -/
def byteOf (n : Nat) : Byte := BitVec.ofNat 8 n

/-- Two bytes, most significant first. -/
def be2 (n : Nat) : List Byte := [byteOf (n / 256), byteOf n]

/-- Three bytes, most significant first. -/
def be3 (n : Nat) : List Byte := [byteOf (n / 65536), byteOf (n / 256), byteOf n]

/-- Four bytes, most significant first. -/
def be4 (n : Nat) : List Byte := [byteOf (n / 16777216), byteOf (n / 65536), byteOf (n / 256), byteOf n]

/-- The byte at offset `i` of a body, as a number. -/
def rd1 (bs : List Byte) (i : Nat) : Nat := (bs.getD i 0#8).toNat

/-- The two-byte field at offset `i`, most significant byte first. -/
def rd2 (bs : List Byte) (i : Nat) : Nat := rd1 bs i * 256 + rd1 bs (i + 1)

/-- The three-byte field at offset `i`, most significant byte first. -/
def rd3 (bs : List Byte) (i : Nat) : Nat := rd1 bs i * 65536 + rd1 bs (i + 1) * 256 + rd1 bs (i + 2)

/-- One bit of a CRC: shift left, and take in the generator when a one leaves at the top. -/
def crcBit {w : Nat} (gen crc : BitVec w) : BitVec w := if crc.msb then (crc <<< 1) ^^^ gen else crc <<< 1

/-- One byte of a CRC, taken most significant bit first. -/
def crcByte {w : Nat} (gen crc : BitVec w) (b : Byte) : BitVec w :=
  (List.range 8).foldl (fun c _ => crcBit gen c) (crc ^^^ (b.setWidth w <<< (w - 8)))

/-- CRC-8 of a frame: generator x⁸ + x² + x + 1, initial value 0 (R166). -/
def crc8 (bs : List Byte) : BitVec 8 := bs.foldl (crcByte 0x07#8) 0#8

/-- CRC-16 of a data block: generator 0x1021, initial value 0xFFFF (R170). -/
def crc16 (bs : List Byte) : BitVec 16 := bs.foldl (crcByte 0x1021#16) 0xFFFF#16

/-- CRC-32 of the stored image: generator 0x04C11DB7, initial value 0xFFFFFFFF (R180). -/
def crc32 (bs : List Byte) : BitVec 32 := bs.foldl (crcByte 0x04C11DB7#32) 0xFFFFFFFF#32

/-- A data block around one body: start byte, kind, length, body, CRC-16 (Table 10-9, R170). -/
def dataBlock (kind : Byte) (body : List Byte) : List Byte :=
  let inner := kind :: byteOf body.length :: body
  Config.blockStart :: inner ++ be2 (crc16 inner).toNat

end Sys2Proof.Machine
end

