-- ==== Sys2Proof/Syntax.lean ====
section
/-! DEFINITION. The commands the block takes: one constructor for each row of spec/opcode_table.json.
Each carries `dt`, the microseconds of the part's own time base (R79) that pass between the step before it and this
one; time passes nowhere else (assumption log 1). A link command carries the object index and the argument of its
frame (Table 10-5), whether or not its rule examines them. -/

namespace Sys2Proof

/-- The fields of a command frame that follow its command code (Table 10-5, bytes 2 to 6). -/
structure Frame where
  /-- object index (byte 2) -/
  obj : Byte
  /-- argument (bytes 3–6, most significant byte first) -/
  arg : BitVec 32
deriving DecidableEq, Repr

/-- The commands and events of spec/opcode_table.json, in the table's order. -/
inductive Instr where
  | getCondition (dt : Nat) (f : Frame)
  | setMode (dt : Nat) (f : Frame)
  | restart (dt : Nat) (f : Frame)
  | restartTakesEffect (dt : Nat)
  | storeMap (dt : Nat) (f : Frame)
  | storeComplete (dt : Nat)
  | reloadMap (dt : Nat) (f : Frame)
  | writeMapRecord (dt : Nat) (f : Frame)
  | hostDataBlock (dt : Nat) (kind len : Byte) (body : List Byte) (crc : BitVec 16)
  | writeAbandoned (dt : Nat)
  | readMapRecord (dt : Nat) (f : Frame)
  | checkMap (dt : Nat) (f : Frame)
  | readLive (dt : Nat) (f : Frame)
  | streamLive (dt : Nat) (f : Frame)
  | streamBlock (dt : Nat)
  | endOfStream (dt : Nat)
  | streamCutOff (dt : Nat)
  | stopStream (dt : Nat) (f : Frame)
  | noticeBlockSent (dt : Nat)
  | admitTrain (dt : Nat) (f : Frame)
  | retire (dt : Nat) (f : Frame)
  | stepTrain (dt : Nat) (f : Frame)
  | direct (dt : Nat) (f : Frame)
  | hold (dt : Nat) (f : Frame)
  | releaseHold (dt : Nat) (f : Frame)
  | selectFirst (dt : Nat) (f : Frame)
  | selectLast (dt : Nat) (f : Frame)
  | deselect (dt : Nat) (f : Frame)
  | applySelection (dt : Nat) (f : Frame)
  | rideStop (dt : Nat) (f : Frame)
  | resume (dt : Nat) (f : Frame)
  /-- CLEAR_FAULT with argument 1, and with an argument outside 1–4, which R49 refuses. -/
  | clearFaultZone (dt : Nat) (f : Frame)
  | clearFaultBoundary (dt : Nat) (obj : Byte)
  | clearFaultElement (dt : Nat) (obj : Byte)
  | clearFaultSwitch (dt : Nat) (obj : Byte)
  | dispatch (dt : Nat) (f : Frame)
  | cancelDispatch (dt : Nat) (f : Frame)
  | setRouteMode (dt : Nat) (f : Frame)
  | moveSwitch (dt : Nat) (f : Frame)
  /-- A frame that passes its check and whose code names no command. -/
  | unknownCommand (dt : Nat) (code : Byte) (f : Frame)
  /-- A frame whose check byte is not the CRC-8 of its first seven bytes. -/
  | commandFrameCheckFailed (dt : Nat) (code : Byte) (f : Frame) (check : Byte)
  | selectAsserted (dt : Nat)
  | selectReleased (dt : Nat)
  | powerOn (dt : Nat)
  | powerFail (dt : Nat)
  | resetAsserted (dt : Nat)
  | load (dt : Nat)
  /-- The raw level of the line becomes high (uncovered) or low (covered) (R77). -/
  | trackSensorRawChange (dt : Nat) (line : SensorLine) (high : Bool)
  | trackSensorEdge (dt : Nat) (line : SensorLine)
  | trackFilterStart (dt : Nat)
  | gateStall (dt : Nat) (b : BoundaryIx)
  | journeyDeadlineExpiry (dt : Nat) (t : SlotIx)
  | stopDeadlineExpiry (dt : Nat) (t : SlotIx)
  /-- The level of a proof line becomes high (active) or low (inactive) (R125). -/
  | brakeProofChange (dt : Nat) (line : ProofLine) (high : Bool)
  | proofTimerExpiry (dt : Nat) (z : ZoneIx)
  | switchProofChange (dt : Nat) (line : ProofLine) (high : Bool)
  | moveTimerExpiry (dt : Nat) (w : SwitchIx)
  | driveStep (dt : Nat) (ch : ChannelIx)
  | functionInputRawChange (dt : Nat) (i : InputIx) (high : Bool)
  | functionInputChange (dt : Nat) (i : InputIx)
  | functionInputStart (dt : Nat)
  | pairWindowExpiry (dt : Nat) (st : StationIx)
  | dispatchWaitExpiry (dt : Nat) (st : StationIx)
deriving DecidableEq, Repr

end Sys2Proof
end

