-- ==== Sys2Proof/WellFormed.lean ====
section
/-! DEFINITION. Which terms of Instr are steps of the table: a frame said to fail its check does fail it, a command said to
be unknown is unknown, and a host block has the length it declares. -/

namespace Sys2Proof

/-- The command codes of the manual's commands. -/
def commandCodes : List Nat :=
  [0x01, 0x02, 0x03, 0x04, 0x05, 0x10, 0x11, 0x12, 0x20, 0x21, 0x22, 0x30, 0x31, 0x32, 0x33,
   0x40, 0x41, 0x42, 0x43, 0x44, 0x45, 0x50, 0x51, 0x52, 0x53, 0x54, 0x55, 0x56]

/-- The first seven bytes of a command frame (Table 10-5). -/
def frameHead (code : Byte) (f : Frame) : List Byte :=
  Config.syncByte :: code :: f.obj :: Machine.be4 f.arg.toNat

/-- The step is one the table lists, with operands that its row allows. -/
def Instr.wf : Instr → Bool
  | .unknownCommand _ code _ => !(commandCodes.contains code.toNat)
  | .commandFrameCheckFailed _ code f check => check != Machine.crc8 (frameHead code f)
  | .hostDataBlock _ _ len body _ =>
    if len.toNat = 0 ∨ 64 < len.toNat then body.isEmpty else body.length == len.toNat
  | .clearFaultZone _ f => !([2, 3, 4].contains f.arg.toNat)
  | _ => true

end Sys2Proof
end

