-- ==== Sys2Proof/Decode.lean ====
section
/-! DEFINITION. The decoder of link frames (Tables 10-2 and 10-5) and its inverse. The table gives its rows no bits, so
decodeTableWord spells no command. -/

namespace Sys2Proof

/-- The command that an instruction word of the table spells: none, since no row of spec/opcode_table.json has bits. -/
def decodeTableWord (_nbits _w : Nat) : Option Instr := none

/-- The command whose frame, arriving `dt` µs after the step before it, carries a command code (the codes of each command's
own rule). CLEAR_FAULT is four rows, told apart by its argument (R49). -/
def commandOf (dt : Nat) (code : Byte) (f : Frame) : Instr :=
  match code.toNat with
  | 0x01 => .getCondition dt f
  | 0x02 => .setMode dt f
  | 0x03 => .restart dt f
  | 0x04 => .storeMap dt f
  | 0x05 => .reloadMap dt f
  | 0x10 => .writeMapRecord dt f
  | 0x11 => .readMapRecord dt f
  | 0x12 => .checkMap dt f
  | 0x20 => .readLive dt f
  | 0x21 => .streamLive dt f
  | 0x22 => .stopStream dt f
  | 0x30 => .admitTrain dt f
  | 0x31 => .retire dt f
  | 0x32 => .stepTrain dt f
  | 0x33 => .direct dt f
  | 0x40 => .hold dt f
  | 0x41 => .releaseHold dt f
  | 0x42 => .selectFirst dt f
  | 0x43 => .selectLast dt f
  | 0x44 => .deselect dt f
  | 0x45 => .applySelection dt f
  | 0x50 => .rideStop dt f
  | 0x51 => .resume dt f
  | 0x52 =>
    match f.arg.toNat with
    | 2 => .clearFaultBoundary dt f.obj
    | 3 => .clearFaultElement dt f.obj
    | 4 => .clearFaultSwitch dt f.obj
    | _ => .clearFaultZone dt f
  | 0x53 => .dispatch dt f
  | 0x54 => .cancelDispatch dt f
  | 0x55 => .setRouteMode dt f
  | 0x56 => .moveSwitch dt f
  | _ => .unknownCommand dt code f

/-- The command of the eight bytes of a frame: one that fails its check where the eighth byte is not the CRC-8 of the others,
else the one its code names; `none` where the bytes are no frame (R166, R167, Table 10-5). -/
def decodeFrame (dt : Nat) : List Byte → Option Instr
  | [sync, code, obj, a3, a2, a1, a0, check] =>
    if sync ≠ Config.syncByte then none
    else
      let f : Frame := { obj, arg := a3 ++ a2 ++ a1 ++ a0 }
      if check = Machine.crc8 [sync, code, obj, a3, a2, a1, a0] then some (commandOf dt code f)
      else some (.commandFrameCheckFailed dt code f check)
  | _ => none

/-- The code and fields of a link command's frame; `none` for a step that is no command frame. -/
def Instr.command : Instr → Option (Byte × Frame)
  | .getCondition _ f => some (0x01#8, f)
  | .setMode _ f => some (0x02#8, f)
  | .restart _ f => some (0x03#8, f)
  | .storeMap _ f => some (0x04#8, f)
  | .reloadMap _ f => some (0x05#8, f)
  | .writeMapRecord _ f => some (0x10#8, f)
  | .readMapRecord _ f => some (0x11#8, f)
  | .checkMap _ f => some (0x12#8, f)
  | .readLive _ f => some (0x20#8, f)
  | .streamLive _ f => some (0x21#8, f)
  | .stopStream _ f => some (0x22#8, f)
  | .admitTrain _ f => some (0x30#8, f)
  | .retire _ f => some (0x31#8, f)
  | .stepTrain _ f => some (0x32#8, f)
  | .direct _ f => some (0x33#8, f)
  | .hold _ f => some (0x40#8, f)
  | .releaseHold _ f => some (0x41#8, f)
  | .selectFirst _ f => some (0x42#8, f)
  | .selectLast _ f => some (0x43#8, f)
  | .deselect _ f => some (0x44#8, f)
  | .applySelection _ f => some (0x45#8, f)
  | .rideStop _ f => some (0x50#8, f)
  | .resume _ f => some (0x51#8, f)
  | .clearFaultZone _ f => some (0x52#8, f)
  | .clearFaultBoundary _ obj => some (0x52#8, { obj, arg := 2#32 })
  | .clearFaultElement _ obj => some (0x52#8, { obj, arg := 3#32 })
  | .clearFaultSwitch _ obj => some (0x52#8, { obj, arg := 4#32 })
  | .dispatch _ f => some (0x53#8, f)
  | .cancelDispatch _ f => some (0x54#8, f)
  | .setRouteMode _ f => some (0x55#8, f)
  | .moveSwitch _ f => some (0x56#8, f)
  | .unknownCommand _ code f => some (code, f)
  | .restartTakesEffect _ => none
  | .storeComplete _ => none
  | .hostDataBlock _ _ _ _ _ => none
  | .writeAbandoned _ => none
  | .streamBlock _ => none
  | .endOfStream _ => none
  | .streamCutOff _ => none
  | .noticeBlockSent _ => none
  | .commandFrameCheckFailed _ _ _ _ => none
  | .selectAsserted _ => none
  | .selectReleased _ => none
  | .powerOn _ => none
  | .powerFail _ => none
  | .resetAsserted _ => none
  | .load _ => none
  | .trackSensorRawChange _ _ _ => none
  | .trackSensorEdge _ _ => none
  | .trackFilterStart _ => none
  | .gateStall _ _ => none
  | .journeyDeadlineExpiry _ _ => none
  | .stopDeadlineExpiry _ _ => none
  | .brakeProofChange _ _ _ => none
  | .proofTimerExpiry _ _ => none
  | .switchProofChange _ _ _ => none
  | .moveTimerExpiry _ _ => none
  | .driveStep _ _ => none
  | .functionInputRawChange _ _ _ => none
  | .functionInputChange _ _ => none
  | .functionInputStart _ => none
  | .pairWindowExpiry _ _ => none
  | .dispatchWaitExpiry _ _ => none

/-- The eight bytes of a frame that is a step of the table: a command's, or one that fails its check (Table 10-5). -/
def encodeFrame (i : Instr) : Option (List Byte) :=
  match i with
  | .commandFrameCheckFailed _ code f check => some (frameHead code f ++ [check])
  | i => i.command.map fun cf => frameHead cf.1 cf.2 ++ [Machine.crc8 (frameHead cf.1 cf.2)]

/-- The time a step takes before it, whatever the step. -/
def Instr.wait : Instr → Nat
  | .getCondition dt _ | .setMode dt _ | .restart dt _ | .restartTakesEffect dt | .storeMap dt _ | .storeComplete dt
  | .reloadMap dt _ | .writeMapRecord dt _ | .hostDataBlock dt _ _ _ _ | .writeAbandoned dt | .readMapRecord dt _
  | .checkMap dt _ | .readLive dt _ | .streamLive dt _ | .streamBlock dt | .endOfStream dt | .streamCutOff dt
  | .stopStream dt _ | .noticeBlockSent dt | .admitTrain dt _ | .retire dt _ | .stepTrain dt _ | .direct dt _ | .hold dt _
  | .releaseHold dt _ | .selectFirst dt _ | .selectLast dt _ | .deselect dt _ | .applySelection dt _ | .rideStop dt _
  | .resume dt _ | .clearFaultZone dt _ | .clearFaultBoundary dt _ | .clearFaultElement dt _ | .clearFaultSwitch dt _
  | .dispatch dt _ | .cancelDispatch dt _ | .setRouteMode dt _ | .moveSwitch dt _ | .unknownCommand dt _ _
  | .commandFrameCheckFailed dt _ _ _ | .selectAsserted dt | .selectReleased dt | .powerOn dt | .powerFail dt
  | .resetAsserted dt | .load dt | .trackSensorRawChange dt _ _ | .trackSensorEdge dt _ | .trackFilterStart dt
  | .gateStall dt _ | .journeyDeadlineExpiry dt _ | .stopDeadlineExpiry dt _ | .brakeProofChange dt _ _
  | .proofTimerExpiry dt _ | .switchProofChange dt _ _ | .moveTimerExpiry dt _ | .driveStep dt _
  | .functionInputRawChange dt _ _ | .functionInputChange dt _ | .functionInputStart dt | .pairWindowExpiry dt _
  | .dispatchWaitExpiry dt _ => dt

end Sys2Proof
end

