-- ==== Sys2Proof/Machine/Tables.lean ====
section
/-! DEFINITION. Fixed tables of records: reading, writing and filling one. -/

namespace Sys2Proof.Machine

/-- Entry `i` of a table. -/
def tget {α : Type} {n : Nat} (v : Vector α n) (i : Fin n) : α := v[i.val]

/-- The table with entry `i` replaced. -/
def tput {α : Type} {n : Nat} (v : Vector α n) (i : Fin n) (x : α) : Vector α n := v.set i.val x i.isLt

/-- The table whose entry `i` is `f i`. -/
def tgen {α : Type} {n : Nat} (f : Fin n → α) : Vector α n := ⟨⟨(List.finRange n).map f⟩, by simp⟩

/-- A number as an index below `n`, where it is one. -/
def ixOf (n v : Nat) : Option (Fin n) := if h : v < n then some ⟨v, h⟩ else none

/-- `f` applied for each index in ascending order. -/
def overAll {σ : Type} {n : Nat} (f : Fin n → σ → σ) (r : σ) : σ := (List.finRange n).foldl (fun r i => f i r) r

end Sys2Proof.Machine
end

