-- ==== Sys2Proof/Machine/Circuit.lean ====
section
/-! DEFINITION. The circuit map: one structure for each kind of descriptor, with the fields of Tables 1-2 to 1-8,
and the map as the fixed set of slots of R1. A field that is absent is `none`; a field present for one kind of element
or switch only stands in that kind's constructor. -/

namespace Sys2Proof.Machine

/-- A leg, route, side or switch position: A or B (R2, R108). -/
inductive Side where
  | a | b
deriving DecidableEq, Repr

/-- The other side. -/
def Side.other : Side → Side
  | .a => .b
  | .b => .a

/-- Zone kinds (Table 1-2). -/
inductive ZoneKind where
  | run | station | launch | spur
deriving DecidableEq, Repr

/-- A zone's holding element with the fields present for its kind alone (Table 1-2, R5). Durations are in ms. -/
inductive ElementDesc where
  | none
  | brake (openLine closedLine : ProofLine) (timeout : Nat)
  | drive (channel : ChannelIx)
deriving DecidableEq, Repr

/-- How the journey deadline at entry is found (R101). -/
inductive TransitMode where
  | predicted | timed
deriving DecidableEq, Repr

/-- Whether an overdue train in the zone also stops the ride (R65). -/
inductive Severity where
  | hold | stop
deriving DecidableEq, Repr

/-- A zone descriptor (Table 1-2). Lengths in mm, speeds in mm/s, durations in ms. -/
structure ZoneDesc where
  kind : ZoneKind
  element : ElementDesc
  succA : Option ZoneIx
  succB : Option ZoneIx
  entryA : BoundaryIx
  entryB : Option BoundaryIx
  switch : Option SwitchIx
  runA : Nat
  runB : Option Nat
  berth : Option SensorLine
  minSpeed : Nat
  maxSpeed : Nat
  transit : TransitMode
  slack : Nat
  margin : Nat
  tmin : Nat
  tmax : Nat
  release : Nat
  stop : Nat
  severity : Severity
  station : Option StationIx
deriving DecidableEq, Repr

/-- A boundary descriptor (Table 1-3). -/
structure BoundaryDesc where
  up : ZoneIx
  down : ZoneIx
  uLine : SensorLine
  dLine : SensorLine
  gate : Nat
  rollback : Bool
deriving DecidableEq, Repr

/-- How a diverge switch's route is chosen (R120). -/
inductive RouteMode where
  | alternate | firstClear | fixedA | fixedB
deriving DecidableEq, Repr

/-- A switch's kind; a diverge switch carries its route mode (Table 1-4). -/
inductive SwitchKind where
  | diverge (mode : RouteMode)
  | merge
deriving DecidableEq, Repr

/-- A switch descriptor (Table 1-4). -/
structure SwitchDesc where
  kind : SwitchKind
  zone : ZoneIx
  outA : OutputLine
  outB : OutputLine
  proofA : ProofLine
  proofB : ProofLine
  timeout : Nat
deriving DecidableEq, Repr

/-- Who may dispatch a station (Table 1-5). -/
inductive Authority where
  | buttons | link | either
deriving DecidableEq, Repr

/-- A station descriptor (Table 1-5). -/
structure StationDesc where
  zone : ZoneIx
  restraint : InputIx
  gate : InputIx
  dispatchA : InputIx
  dispatchB : InputIx
  authority : Authority
  pairWindow : Nat
  dispatchWait : Nat
deriving DecidableEq, Repr

/-- A drive channel's stop profile (R136). -/
inductive StopProfile where
  | immediate | ramp
deriving DecidableEq, Repr

/-- A drive descriptor (Table 1-6). -/
structure DriveDesc where
  run : Nat
  creep : Nat
  step : Nat
  stopStep : Nat
  interval : Nat
  profile : StopProfile
deriving DecidableEq, Repr

/-- A function input's function with its target (Table 1-7). -/
inductive InputFunction where
  | none
  | estop
  | zoneHold (z : ZoneIx)
  | dispatchA (st : StationIx)
  | dispatchB (st : StationIx)
  | restraint (st : StationIx)
  | gate (st : StationIx)
deriving DecidableEq, Repr

/-- An input descriptor (Table 1-7). -/
structure InputDesc where
  function : InputFunction
  activeHigh : Bool
  filtered : Bool
deriving DecidableEq, Repr

/-- The circuit descriptor (Table 1-8). -/
structure CircuitDesc where
  trainLength : Nat
  filterTime : Nat
deriving DecidableEq, Repr

/-- The descriptor slots of a map; a vacant slot is `none` (R1). -/
structure CircuitMap where
  zones : Vector (Option ZoneDesc) 48
  boundaries : Vector (Option BoundaryDesc) 52
  switches : Vector (Option SwitchDesc) 4
  stations : Vector (Option StationDesc) 4
  drives : Vector (Option DriveDesc) 8
  inputs : Vector (Option InputDesc) 16
  circuit : Option CircuitDesc
deriving DecidableEq, Repr

/-- The map with every slot vacant (R1). -/
def CircuitMap.vacant : CircuitMap where
  zones := Vector.replicate 48 Option.none
  boundaries := Vector.replicate 52 Option.none
  switches := Vector.replicate 4 Option.none
  stations := Vector.replicate 4 Option.none
  drives := Vector.replicate 8 Option.none
  inputs := Vector.replicate 16 Option.none
  circuit := Option.none

def CircuitMap.zone (m : CircuitMap) (z : ZoneIx) : Option ZoneDesc := tget m.zones z
def CircuitMap.boundary (m : CircuitMap) (b : BoundaryIx) : Option BoundaryDesc := tget m.boundaries b
def CircuitMap.switch (m : CircuitMap) (w : SwitchIx) : Option SwitchDesc := tget m.switches w
def CircuitMap.station (m : CircuitMap) (st : StationIx) : Option StationDesc := tget m.stations st
def CircuitMap.drive (m : CircuitMap) (ch : ChannelIx) : Option DriveDesc := tget m.drives ch
def CircuitMap.input (m : CircuitMap) (i : InputIx) : Option InputDesc := tget m.inputs i

/-- A descriptor slot by kind and number (Table 1-1); REPORT is no slot of the map. -/
inductive SlotRef where
  | zone (z : ZoneIx)
  | boundary (b : BoundaryIx)
  | switch (w : SwitchIx)
  | station (st : StationIx)
  | drive (ch : ChannelIx)
  | input (i : InputIx)
  | circuit
deriving DecidableEq, Repr

end Sys2Proof.Machine
end

