-- ==== Sys2Proof/Machine/Codec.lean ====
section
/-! DEFINITION. Descriptor bodies on the link: the range checks a descriptor meets when it arrives (R5 to R11), and its
bytes in both directions (Tables 1-3 to 1-8 and 10-11). -/

namespace Sys2Proof.Machine

/-- `lo ≤ v ≤ hi`. -/
def within (lo hi v : Nat) : Bool := decide (lo ≤ v) && decide (v ≤ hi)

/-! ### Ranges of the fields -/

/-- The element's own range: the proof timeout of a BRAKE (Table 1-2). -/
def ElementDesc.inRange : ElementDesc → Bool
  | .brake _ _ timeout => within 50 5000 timeout
  | _ => true

/-- The ranges of Table 1-2 and the checks within the record of R5. -/
def ZoneDesc.inRange (d : ZoneDesc) : Bool :=
  d.element.inRange &&
  within 1000 500000 d.runA &&
  (match d.runB with | some p => within 1000 500000 p | none => true) &&
  within 0 65535 d.minSpeed && within 0 65535 d.maxSpeed &&
  within 0 255 d.slack && within 0 65535 d.margin &&
  within 100 600000 d.tmin && within 100 600000 d.tmax &&
  within 500 600000 d.release && within 500 120000 d.stop &&
  decide (d.tmin ≤ d.tmax) && decide (d.minSpeed ≤ d.maxSpeed)

/-- The range of the gate length (Table 1-3, R6). -/
def BoundaryDesc.inRange (d : BoundaryDesc) : Bool := within 200 4000 d.gate

/-- The range of the move timeout (Table 1-4, R7). -/
def SwitchDesc.inRange (d : SwitchDesc) : Bool := within 1000 30000 d.timeout

/-- The ranges of the pair window and the dispatch wait (Table 1-5, R8). -/
def StationDesc.inRange (d : StationDesc) : Bool := within 100 1000 d.pairWindow && within 1000 120000 d.dispatchWait

/-- The ranges of Table 1-6, and the creep code not above the run code (R9). -/
def DriveDesc.inRange (d : DriveDesc) : Bool :=
  within 1 4095 d.run && within 1 4095 d.creep && within 1 255 d.step && within 1 4095 d.stopStep &&
  within 1 100 d.interval && decide (d.creep ≤ d.run)

/-- The ranges of Table 1-8 (R11). -/
def CircuitDesc.inRange (d : CircuitDesc) : Bool := within 5000 40000 d.trainLength && within 0 20 d.filterTime

/-! ### Optional fields: an absent index is written 0xFF, an absent length 0 (section 1.1) -/

/-- An optional index as its byte. -/
def optByte {n : Nat} (i : Option (Fin n)) : Byte :=
  match i with
  | some i => byteOf i.val
  | none => 0xFF#8

/-- A byte as an optional index below `n`; `none` where it is neither an index nor 0xFF. -/
def optIx (n v : Nat) : Option (Option (Fin n)) := if v = 255 then some none else (ixOf n v).map some

/-- An optional length as a number. -/
def optLen (v : Option Nat) : Nat := v.getD 0

/-- A number as an optional length. -/
def lenOpt (v : Nat) : Option Nat := if v = 0 then none else some v

/-! ### Zone descriptors (Table 10-11) -/

def ZoneKind.code : ZoneKind → Nat
  | .run => 0
  | .station => 1
  | .launch => 2
  | .spur => 3

def zoneKindOf : Nat → Option ZoneKind
  | 0 => some .run
  | 1 => some .station
  | 2 => some .launch
  | 3 => some .spur
  | _ => none

def TransitMode.code : TransitMode → Nat
  | .predicted => 0
  | .timed => 1

def transitOf : Nat → Option TransitMode
  | 0 => some .predicted
  | 1 => some .timed
  | _ => none

def Severity.code : Severity → Nat
  | .hold => 0
  | .stop => 1

def severityOf : Nat → Option Severity
  | 0 => some .hold
  | 1 => some .stop
  | _ => none

/-- The element kind, the two proof lines, the proof timeout and the drive channel, as sent. -/
def ElementDesc.fields : ElementDesc → Byte × Byte × Byte × Nat × Byte
  | .none => (0#8, 0xFF#8, 0xFF#8, 0, 0xFF#8)
  | .brake o c t => (1#8, byteOf o.val, byteOf c.val, t, 0xFF#8)
  | .drive ch => (2#8, 0xFF#8, 0xFF#8, 0, byteOf ch.val)

/-- The element of the fields received: those of another kind must be absent (R5). -/
def elementOf (kind openLine closedLine timeout channel : Nat) : Option ElementDesc :=
  match kind with
  | 0 => if openLine = 255 ∧ closedLine = 255 ∧ timeout = 0 ∧ channel = 255 then some .none else none
  | 1 =>
    if channel = 255 then
      match ixOf 96 openLine, ixOf 96 closedLine with
      | some o, some c => some (.brake o c timeout)
      | _, _ => none
    else none
  | 2 => if openLine = 255 ∧ closedLine = 255 ∧ timeout = 0 then (ixOf 8 channel).map .drive else none
  | _ => none

/-- The 41 bytes of a zone descriptor (Table 10-11). -/
def encodeZone (d : ZoneDesc) : List Byte :=
  let e := d.element.fields
  [byteOf d.kind.code, e.1, e.2.1, e.2.2.1] ++ be2 e.2.2.2.1 ++
  [e.2.2.2.2, optByte d.succA, optByte d.succB, byteOf d.entryA.val, optByte d.entryB, optByte d.switch] ++
  be3 d.runA ++ be3 (optLen d.runB) ++ [optByte d.berth] ++ be2 d.minSpeed ++ be2 d.maxSpeed ++
  [byteOf d.transit.code, byteOf d.slack] ++ be2 d.margin ++ be3 d.tmin ++ be3 d.tmax ++ be3 d.release ++ be3 d.stop ++
  [byteOf d.severity.code, optByte d.station]

/-- The zone descriptor of a body, where it is 41 bytes long and every check of R5 passes. -/
def decodeZone (bs : List Byte) : Option ZoneDesc :=
  if bs.length ≠ 41 then none else do
    let kind ← zoneKindOf (rd1 bs 0)
    let element ← elementOf (rd1 bs 1) (rd1 bs 2) (rd1 bs 3) (rd2 bs 4) (rd1 bs 6)
    let succA ← optIx 48 (rd1 bs 7)
    let succB ← optIx 48 (rd1 bs 8)
    let entryA ← ixOf 52 (rd1 bs 9)
    let entryB ← optIx 52 (rd1 bs 10)
    let switch ← optIx 4 (rd1 bs 11)
    let berth ← optIx 128 (rd1 bs 18)
    let transit ← transitOf (rd1 bs 23)
    let severity ← severityOf (rd1 bs 39)
    let station ← optIx 4 (rd1 bs 40)
    let d : ZoneDesc :=
      { kind, element, succA, succB, entryA, entryB, switch, runA := rd3 bs 12, runB := lenOpt (rd3 bs 15), berth,
        minSpeed := rd2 bs 19, maxSpeed := rd2 bs 21, transit, slack := rd1 bs 24, margin := rd2 bs 25, tmin := rd3 bs 27,
        tmax := rd3 bs 30, release := rd3 bs 33, stop := rd3 bs 36, severity, station }
    if d.inRange then some d else none

/-! ### Boundary, switch, station, drive, input and circuit descriptors (Tables 1-3 to 1-8) -/

def flagOf : Nat → Option Bool
  | 0 => some false
  | 1 => some true
  | _ => none

def flagByte (v : Bool) : Byte := if v then 1#8 else 0#8

def encodeBoundary (d : BoundaryDesc) : List Byte :=
  [byteOf d.up.val, byteOf d.down.val, byteOf d.uLine.val, byteOf d.dLine.val] ++ be2 d.gate ++ [flagByte d.rollback]

def decodeBoundary (bs : List Byte) : Option BoundaryDesc :=
  if bs.length ≠ 7 then none else do
    let up ← ixOf 48 (rd1 bs 0)
    let down ← ixOf 48 (rd1 bs 1)
    let uLine ← ixOf 128 (rd1 bs 2)
    let dLine ← ixOf 128 (rd1 bs 3)
    let rollback ← flagOf (rd1 bs 6)
    let d : BoundaryDesc := { up, down, uLine, dLine, gate := rd2 bs 4, rollback }
    if d.inRange then some d else none

def RouteMode.code : RouteMode → Nat
  | .alternate => 0
  | .firstClear => 1
  | .fixedA => 2
  | .fixedB => 3

def routeModeOf : Nat → Option RouteMode
  | 0 => some .alternate
  | 1 => some .firstClear
  | 2 => some .fixedA
  | 3 => some .fixedB
  | _ => none

def SwitchKind.code : SwitchKind → Nat
  | .diverge _ => 1
  | .merge => 2

/-- The route mode field; absent for a MERGE switch. -/
def SwitchKind.modeByte : SwitchKind → Byte
  | .diverge m => byteOf m.code
  | .merge => 0xFF#8

def switchKindOf (kind mode : Nat) : Option SwitchKind :=
  match kind with
  | 1 => (routeModeOf mode).map .diverge
  | 2 => if mode = 255 then some .merge else none
  | _ => none

def encodeSwitch (d : SwitchDesc) : List Byte :=
  [byteOf d.kind.code, byteOf d.zone.val, byteOf d.outA.val, byteOf d.outB.val, byteOf d.proofA.val, byteOf d.proofB.val] ++
  be2 d.timeout ++ [d.kind.modeByte]

def decodeSwitch (bs : List Byte) : Option SwitchDesc :=
  if bs.length ≠ 9 then none else do
    let kind ← switchKindOf (rd1 bs 0) (rd1 bs 8)
    let zone ← ixOf 48 (rd1 bs 1)
    let outA ← ixOf 8 (rd1 bs 2)
    let outB ← ixOf 8 (rd1 bs 3)
    let proofA ← ixOf 96 (rd1 bs 4)
    let proofB ← ixOf 96 (rd1 bs 5)
    let d : SwitchDesc := { kind, zone, outA, outB, proofA, proofB, timeout := rd2 bs 6 }
    if d.inRange then some d else none

def Authority.code : Authority → Nat
  | .buttons => 0
  | .link => 1
  | .either => 2

def authorityOf : Nat → Option Authority
  | 0 => some .buttons
  | 1 => some .link
  | 2 => some .either
  | _ => none

def encodeStation (d : StationDesc) : List Byte :=
  [byteOf d.zone.val, byteOf d.restraint.val, byteOf d.gate.val, byteOf d.dispatchA.val, byteOf d.dispatchB.val,
   byteOf d.authority.code] ++ be2 d.pairWindow ++ be4 d.dispatchWait

def decodeStation (bs : List Byte) : Option StationDesc :=
  if bs.length ≠ 12 then none else do
    let zone ← ixOf 48 (rd1 bs 0)
    let restraint ← ixOf 16 (rd1 bs 1)
    let gate ← ixOf 16 (rd1 bs 2)
    let dispatchA ← ixOf 16 (rd1 bs 3)
    let dispatchB ← ixOf 16 (rd1 bs 4)
    let authority ← authorityOf (rd1 bs 5)
    let d : StationDesc :=
      { zone, restraint, gate, dispatchA, dispatchB, authority, pairWindow := rd2 bs 6,
        dispatchWait := rd2 bs 8 * 65536 + rd2 bs 10 }
    if d.inRange then some d else none

def StopProfile.code : StopProfile → Nat
  | .immediate => 0
  | .ramp => 1

def profileOf : Nat → Option StopProfile
  | 0 => some .immediate
  | 1 => some .ramp
  | _ => none

def encodeDrive (d : DriveDesc) : List Byte :=
  be2 d.run ++ be2 d.creep ++ [byteOf d.step] ++ be2 d.stopStep ++ [byteOf d.interval, byteOf d.profile.code]

def decodeDrive (bs : List Byte) : Option DriveDesc :=
  if bs.length ≠ 9 then none else do
    let profile ← profileOf (rd1 bs 8)
    let d : DriveDesc :=
      { run := rd2 bs 0, creep := rd2 bs 2, step := rd1 bs 4, stopStep := rd2 bs 5, interval := rd1 bs 7, profile }
    if d.inRange then some d else none

/-- The function and target fields of an input descriptor (Table 1-7). -/
def InputFunction.fields : InputFunction → Byte × Byte
  | .none => (0#8, 0xFF#8)
  | .estop => (1#8, 0xFF#8)
  | .zoneHold z => (2#8, byteOf z.val)
  | .dispatchA st => (3#8, byteOf st.val)
  | .dispatchB st => (4#8, byteOf st.val)
  | .restraint st => (5#8, byteOf st.val)
  | .gate st => (6#8, byteOf st.val)

/-- The function of the fields received; the target's range depends on the function (R10). -/
def functionOf (function target : Nat) : Option InputFunction :=
  match function with
  | 0 => if target = 255 then some .none else none
  | 1 => if target = 255 then some .estop else none
  | 2 => (ixOf 48 target).map .zoneHold
  | 3 => (ixOf 4 target).map .dispatchA
  | 4 => (ixOf 4 target).map .dispatchB
  | 5 => (ixOf 4 target).map .restraint
  | 6 => (ixOf 4 target).map .gate
  | _ => none

def encodeInput (d : InputDesc) : List Byte :=
  [d.function.fields.1, d.function.fields.2, flagByte d.activeHigh, flagByte d.filtered]

def decodeInput (bs : List Byte) : Option InputDesc :=
  if bs.length ≠ 4 then none else do
    let function ← functionOf (rd1 bs 0) (rd1 bs 1)
    let activeHigh ← flagOf (rd1 bs 2)
    let filtered ← flagOf (rd1 bs 3)
    some { function, activeHigh, filtered }

def encodeCircuit (d : CircuitDesc) : List Byte := be2 d.trainLength ++ [byteOf d.filterTime]

def decodeCircuit (bs : List Byte) : Option CircuitDesc :=
  if bs.length ≠ 3 then none else
    let d : CircuitDesc := { trainLength := rd2 bs 0, filterTime := rd1 bs 2 }
    if d.inRange then some d else none

/-! ### Slots of the map by kind and number -/

/-- The body sent for a vacant slot, and the body that vacates one (R14, R173). -/
def vacantBody : List Byte := [0#8]

/-- The kind code of a slot's kind (Table 1-1). -/
def SlotRef.kindCode : SlotRef → Nat
  | .zone _ => 1
  | .boundary _ => 2
  | .switch _ => 3
  | .station _ => 4
  | .drive _ => 5
  | .input _ => 6
  | .circuit => 7

/-- The slot a kind code 0x01–0x07 and an object index name (Table 1-1). -/
def slotOf (kind index : Nat) : Option SlotRef :=
  match kind with
  | 1 => (ixOf 48 index).map .zone
  | 2 => (ixOf 52 index).map .boundary
  | 3 => (ixOf 4 index).map .switch
  | 4 => (ixOf 4 index).map .station
  | 5 => (ixOf 8 index).map .drive
  | 6 => (ixOf 16 index).map .input
  | 7 => if index = 0 then some .circuit else none
  | _ => none

/-- The body of a slot as it is sent: its descriptor's, or the vacant form (R173). -/
def CircuitMap.body (m : CircuitMap) : SlotRef → List Byte
  | .zone z => ((m.zone z).map encodeZone).getD vacantBody
  | .boundary b => ((m.boundary b).map encodeBoundary).getD vacantBody
  | .switch w => ((m.switch w).map encodeSwitch).getD vacantBody
  | .station st => ((m.station st).map encodeStation).getD vacantBody
  | .drive ch => ((m.drive ch).map encodeDrive).getD vacantBody
  | .input i => ((m.input i).map encodeInput).getD vacantBody
  | .circuit => (m.circuit.map encodeCircuit).getD vacantBody

/-- The slot vacated (R14). -/
def CircuitMap.vacate (m : CircuitMap) : SlotRef → CircuitMap
  | .zone z => { m with zones := tput m.zones z none }
  | .boundary b => { m with boundaries := tput m.boundaries b none }
  | .switch w => { m with switches := tput m.switches w none }
  | .station st => { m with stations := tput m.stations st none }
  | .drive ch => { m with drives := tput m.drives ch none }
  | .input i => { m with inputs := tput m.inputs i none }
  | .circuit => { m with circuit := none }

/-- The slot's whole content replaced by the descriptor of a body, where that descriptor passes its checks (R13). -/
def CircuitMap.replace (m : CircuitMap) (ref : SlotRef) (body : List Byte) : Option CircuitMap :=
  match ref with
  | .zone z => (decodeZone body).map fun d => { m with zones := tput m.zones z (some d) }
  | .boundary b => (decodeBoundary body).map fun d => { m with boundaries := tput m.boundaries b (some d) }
  | .switch w => (decodeSwitch body).map fun d => { m with switches := tput m.switches w (some d) }
  | .station st => (decodeStation body).map fun d => { m with stations := tput m.stations st (some d) }
  | .drive ch => (decodeDrive body).map fun d => { m with drives := tput m.drives ch (some d) }
  | .input i => (decodeInput body).map fun d => { m with inputs := tput m.inputs i (some d) }
  | .circuit => (decodeCircuit body).map fun d => { m with circuit := some d }

/-- What a data block of kind `kind` awaited for slot `ref` does to the map: `none` where its content is rejected
(R13, R14). -/
def CircuitMap.write (m : CircuitMap) (ref : SlotRef) (kind : Nat) (body : List Byte) : Option CircuitMap :=
  if kind ≠ ref.kindCode then none
  else if body = vacantBody then some (m.vacate ref)
  else m.replace ref body

/-- Every configured slot holds fields in their ranges (R1). -/
def CircuitMap.inRange (m : CircuitMap) : Prop :=
  (∀ z d, m.zone z = some d → d.inRange = true) ∧
  (∀ b d, m.boundary b = some d → d.inRange = true) ∧
  (∀ w d, m.switch w = some d → d.inRange = true) ∧
  (∀ st d, m.station st = some d → d.inRange = true) ∧
  (∀ ch d, m.drive ch = some d → d.inRange = true) ∧
  (∀ d, m.circuit = some d → d.inRange = true)

/-! ### The bytes the image's CRC-32 is taken over (R180) -/

/-- The format version and every descriptor slot, in the order of Table 1-1, each as its body. -/
def imageBytes (version : Nat) (m : CircuitMap) : List Byte :=
  byteOf version ::
    ((List.finRange 48).flatMap (fun z => m.body (.zone z)) ++
     (List.finRange 52).flatMap (fun b => m.body (.boundary b)) ++
     (List.finRange 4).flatMap (fun w => m.body (.switch w)) ++
     (List.finRange 4).flatMap (fun st => m.body (.station st)) ++
     (List.finRange 8).flatMap (fun ch => m.body (.drive ch)) ++
     (List.finRange 16).flatMap (fun i => m.body (.input i)) ++ m.body .circuit)

end Sys2Proof.Machine
end

