-- ==== Sys2Proof/Machine/Graph.lean ====
section
/-! DEFINITION. The relations the map store derives from the descriptors (R2), walks of the map (R3) and the leg a
crossing uses (R4). -/

namespace Sys2Proof.Machine

/-- The zone is configured. -/
def CircuitMap.hasZone (m : CircuitMap) (z : ZoneIx) : Bool := (m.zone z).isSome

/-- The holding element a zone's descriptor gives; NONE for a vacant zone. -/
def CircuitMap.elementAt (m : CircuitMap) (z : ZoneIx) : ElementDesc :=
  match m.zone z with
  | some d => d.element
  | none => .none

/-- The switch a zone names, with its descriptor, where both are configured. -/
def CircuitMap.switchAt (m : CircuitMap) (z : ZoneIx) : Option (SwitchIx × SwitchDesc) :=
  match (m.zone z).bind (·.switch) with
  | some w => (m.switch w).map (fun d => (w, d))
  | none => none

/-- The diverge switch a zone holds (R18). -/
def CircuitMap.divergeAt (m : CircuitMap) (z : ZoneIx) : Option SwitchIx :=
  match m.switchAt z with
  | some (w, { kind := .diverge _, .. }) => some w
  | _ => none

/-- The merge switch a zone holds (R18). -/
def CircuitMap.mergeAt (m : CircuitMap) (z : ZoneIx) : Option SwitchIx :=
  match m.switchAt z with
  | some (w, { kind := .merge, .. }) => some w
  | _ => none

/-- A stopping zone has a BRAKE or a DRIVE (R2). -/
def CircuitMap.isStopping (m : CircuitMap) (z : ZoneIx) : Bool :=
  match m.zone z with
  | some d => d.element != .none
  | none => false

/-- A configured zone of element kind NONE (R2). -/
def CircuitMap.isNonStopping (m : CircuitMap) (z : ZoneIx) : Bool :=
  match m.zone z with
  | some d => d.element == .none
  | none => false

/-- A configured SPUR zone. -/
def CircuitMap.isSpur (m : CircuitMap) (z : ZoneIx) : Bool :=
  match m.zone z with
  | some d => d.kind == .spur
  | none => false

/-- The successor of a zone on a route; a zone without a diverge switch has successor A on either (R2). -/
def CircuitMap.successor (m : CircuitMap) (z : ZoneIx) (route : Side) : Option ZoneIx :=
  match m.zone z with
  | none => none
  | some d =>
    if d.kind = .spur then none
    else match m.divergeAt z, route with
      | some _, .b => d.succB
      | _, _ => d.succA

/-- The successors of a zone on every route (R2, R3). -/
def CircuitMap.successors (m : CircuitMap) (z : ZoneIx) : List ZoneIx :=
  match m.divergeAt z with
  | some _ => (m.successor z .a).toList ++ (m.successor z .b).toList
  | none => (m.successor z .a).toList

/-- The entry boundaries a zone names. -/
def ZoneDesc.entries (d : ZoneDesc) : List BoundaryIx := d.entryA :: d.entryB.toList

/-- The exit boundary of `z` toward `s`: the entry boundary of `s` whose upstream zone is `z` (R2). Until `s` has passed check 0x13
both its entry boundaries may have `z` upstream, and which is then the exit boundary R18 does not say: that entry boundary A is
taken first, and is the one check 0x1A examines, is the model's choice (assumption log 27). -/
def CircuitMap.exitTo (m : CircuitMap) (z s : ZoneIx) : Option BoundaryIx :=
  match m.zone s with
  | none => none
  | some d => d.entries.find? fun b => (m.boundary b).any fun bd => bd.up = z

/-- The upstream zone of the entry boundary on a side; a zone without a merge switch has side A alone (R2). -/
def CircuitMap.predecessor (m : CircuitMap) (z : ZoneIx) (side : Side) : Option ZoneIx :=
  match m.zone z with
  | none => none
  | some d =>
    match side, m.mergeAt z with
    | .a, _ => (m.boundary d.entryA).map (·.up)
    | .b, some _ => (d.entryB.bind m.boundary).map (·.up)
    | .b, none => none

/-- The predecessors of a zone (R2). -/
def CircuitMap.predecessors (m : CircuitMap) (z : ZoneIx) : List ZoneIx :=
  (m.predecessor z .a).toList ++ (m.predecessor z .b).toList

/-- The side of merge zone `z` whose predecessor is `p` (R2, R31). -/
def CircuitMap.sideFrom (m : CircuitMap) (z p : ZoneIx) : Option Side :=
  if m.predecessor z .a = some p then some .a
  else if m.predecessor z .b = some p then some .b
  else none

/-- The side by which a nose crossing `b` enters `z` (R4). -/
def CircuitMap.entrySide (m : CircuitMap) (z : ZoneIx) (b : BoundaryIx) : Side :=
  match m.zone z with
  | some d => if d.entryA = b then .a else .b
  | none => .a

/-- The run length P of a crossing into the zone: by the side entered at a merge, by the locked route at a diverge, the
smaller of the two where the diverge switch is not locked (R4, R98). `locked` is the position at which the zone's
diverge switch stands locked. -/
def ZoneDesc.runLength (d : ZoneDesc) (merge diverge : Bool) (side : Side) (locked : Option Side) : Nat :=
  let pick : Side → Nat := fun leg => match leg with | .a => d.runA | .b => d.runB.getD d.runA
  if merge then pick side
  else if diverge then
    match locked with
    | some leg => pick leg
    | none => min d.runA (d.runB.getD d.runA)
  else d.runA

/-! ### Walks -/

/-- `zs` with the zones of `more` it lacks added at its end. -/
def addZones (zs more : List ZoneIx) : List ZoneIx :=
  more.foldl (fun acc z => if acc.contains z then acc else acc ++ [z]) zs

/-- The zones a walk along every route meets from the zones `seen`, after at most the steps given (R3). -/
def CircuitMap.spread (m : CircuitMap) : Nat → List ZoneIx → List ZoneIx
  | 0, seen => seen
  | k + 1, seen =>
    let next := addZones seen ((seen.flatMap m.successors).filter m.hasZone)
    if next.length = seen.length then seen else m.spread k next

/-- `target` is reached from `z` by a walk along every route (R18, check 0x1C). -/
def CircuitMap.reaches (m : CircuitMap) (z target : ZoneIx) : Bool := (m.spread Config.walkLimit [z]).contains target

/-- A walk along every route from `z` meets `k` non-stopping zones, `z` the first, before a stopping zone
(R18, check 0x1D). -/
def CircuitMap.nonStoppingRun (m : CircuitMap) : Nat → ZoneIx → Bool
  | 0, _ => true
  | k + 1, z => m.isNonStopping z && (k == 0 || (m.successors z).any (m.nonStoppingRun k))

/-- The zones the primary route passes from `z` to `target` inclusive, where it reaches it within `k` steps; it takes
route A at a diverge and ends at a SPUR (R3, R44). -/
def CircuitMap.primaryWalk (m : CircuitMap) (target : ZoneIx) : Nat → ZoneIx → Option (List ZoneIx)
  | 0, z => if z = target then some [z] else none
  | k + 1, z =>
    if z = target then some [z]
    else match m.successor z .a with
      | some s => (m.primaryWalk target k s).map (z :: ·)
      | none => none

end Sys2Proof.Machine
end

