-- ==== Sys2Proof/Machine/Validate.lean ====
section
/-! DEFINITION. Validation of a circuit map (R16) with the checks of R17 to R21, and the validation report. -/

namespace Sys2Proof.Machine

/-- The outcome of a validation (R16). -/
inductive ReportOutcome where
  | pass | fail | notRun
deriving DecidableEq, Repr

/-- The validation report: outcome, kind code, slot and check code of the failing descriptor (R16). -/
structure Report where
  outcome : ReportOutcome
  group : Nat
  index : Nat
  code : Nat
deriving DecidableEq, Repr

def Report.pass : Report := { outcome := .pass, group := 0, index := 0, code := 0 }
/-- NOT_RUN (R16, R181). That its group, index and check code then read 0 is the model's choice (assumption log 2). -/
def Report.notRun : Report := { outcome := .notRun, group := 0, index := 0, code := 0 }
def Report.failing (group index code : Nat) : Report := { outcome := .fail, group, index, code }

/-- The code of the first check of a table that fails. -/
def firstFail (checks : List (Nat × Bool)) : Option Nat := (checks.find? (·.2)).map (·.1)

/-! ### Lines already used (checks 0x19, 0x22, 0x31) -/

def ZoneDesc.proofLines (d : ZoneDesc) : List ProofLine :=
  match d.element with
  | .brake o c _ => [o, c]
  | _ => []

/-- The proof lines of the configured zones below `n`. -/
def CircuitMap.zoneProofs (m : CircuitMap) (n : Nat) : List ProofLine :=
  (List.finRange 48).flatMap fun z => if z.val < n then ((m.zone z).map (·.proofLines)).getD [] else []

/-- The berth lines of the configured zones below `n`. -/
def CircuitMap.berthLines (m : CircuitMap) (n : Nat) : List SensorLine :=
  (List.finRange 48).flatMap fun z => if z.val < n then ((m.zone z).bind (·.berth)).toList else []

/-- The U and D lines of the configured boundaries below `n`. -/
def CircuitMap.gateLines (m : CircuitMap) (n : Nat) : List SensorLine :=
  (List.finRange 52).flatMap fun b =>
    if b.val < n then ((m.boundary b).map fun d => [d.uLine, d.dLine]).getD [] else []

/-- The proof lines of the configured switches below `n`. -/
def CircuitMap.switchProofs (m : CircuitMap) (n : Nat) : List ProofLine :=
  (List.finRange 4).flatMap fun w =>
    if w.val < n then ((m.switch w).map fun d => [d.proofA, d.proofB]).getD [] else []

/-- The output lines of the configured switches below `n`. -/
def CircuitMap.switchOutputs (m : CircuitMap) (n : Nat) : List OutputLine :=
  (List.finRange 4).flatMap fun w =>
    if w.val < n then ((m.switch w).map fun d => [d.outA, d.outB]).getD [] else []

/-! ### The checks -/

/-- The configured zone slots (R17, R51). -/
def CircuitMap.zoneCount (m : CircuitMap) : Nat := (List.finRange 48).countP m.hasZone

/-- R17. -/
def CircuitMap.circuitChecks (m : CircuitMap) : List (Nat × Bool) :=
  [(0x01, m.circuit.isNone), (0x02, decide (m.zoneCount < 3)), (0x03, !m.hasZone 0 || m.isSpur 0)]

def CircuitMap.trainLength (m : CircuitMap) : Nat := (m.circuit.map (·.trainLength)).getD 0

/-- The zones a zone's successor A and successor B fields name. -/
def ZoneDesc.named (d : ZoneDesc) : List ZoneIx := d.succA.toList ++ d.succB.toList

/-- R18. -/
def CircuitMap.zoneChecks (m : CircuitMap) (z : ZoneIx) (d : ZoneDesc) : List (Nat × Bool) :=
  [(0x10, d.succB.isSome && d.entryB.isSome),
   (0x11, (if d.kind = .spur then !d.named.isEmpty else d.succA.isNone) ||
      d.named.any (fun s => !m.hasZone s || s == z) || (d.succA.isSome && d.succA == d.succB)),
   (0x12, match d.switch with
      | none => d.succB.isSome || d.entryB.isSome
      | some w => match m.switch w with
        | none => true
        | some sd => sd.zone != z || (match sd.kind with
          | .diverge _ => d.succB.isNone
          | .merge => d.entryB.isNone)),
   (0x13, d.entries.any (fun b => match m.boundary b with | none => true | some bd => bd.down != z) ||
      (match d.entryB with
       | none => false
       | some eb => eb == d.entryA || (m.boundary eb).map (·.up) == (m.boundary d.entryA).map (·.up))),
   (0x14, d.named.any fun s => (m.exitTo z s).isNone),
   (0x15, d.switch.isSome && d.element == .none),
   (0x16, d.kind != .run && d.element == .none),
   (0x17, if d.kind = .station then
        d.berth.isNone || (match d.station with
          | none => true
          | some st => match m.station st with
            | none => true
            | some sd => sd.zone != z)
      else d.station.isSome),
   (0x18, match d.element with
      | .drive ch => (m.drive ch).isNone
      | _ => false),
   (0x19, d.proofLines.any (fun l => (m.zoneProofs z.val).contains l) ||
      (match d.element with | .brake o c _ => o == c | _ => false) ||
      d.berth.any (fun l => (m.berthLines z.val).contains l)),
   (0x1A, d.kind == .launch && d.named.any fun s => match m.exitTo z s with
      | some b => (m.boundary b).any fun bd => !bd.rollback
      | none => false),
   (0x1B, d.runB.isSome != d.switch.isSome || decide (d.runA < m.trainLength) ||
      d.runB.any fun p => decide (p < m.trainLength)),
   (0x1C, !m.reaches 0 z || (d.kind != .spur && !m.reaches z 0)),
   (0x1D, m.nonStoppingRun 4 z),
   (0x1E, ((m.divergeAt z).isSome || (m.mergeAt z).isSome) && (m.predecessors z).any m.isNonStopping)]

/-- R19. -/
def CircuitMap.boundaryChecks (m : CircuitMap) (b : BoundaryIx) (d : BoundaryDesc) : List (Nat × Bool) :=
  let taken := m.berthLines 48 ++ m.gateLines b.val
  [(0x20, !m.hasZone d.up || !m.hasZone d.down || d.up == d.down),
   (0x21, !((m.zone d.down).any fun zd => zd.entries.contains b) ||
      !((m.zone d.up).any fun zd => zd.named.contains d.down)),
   (0x22, taken.contains d.uLine || taken.contains d.dLine || d.uLine == d.dLine),
   (0x23, decide (m.trainLength ≤ d.gate)),
   (0x24, d.rollback && m.isNonStopping d.up)]

/-- R20, the switch checks. -/
def CircuitMap.switchChecks (m : CircuitMap) (w : SwitchIx) (d : SwitchDesc) : List (Nat × Bool) :=
  let outs := m.switchOutputs w.val
  let proofs := m.zoneProofs 48 ++ m.switchProofs w.val
  [(0x30, !((m.zone d.zone).any fun zd => zd.switch == some w)),
   (0x31, d.outA == d.outB || outs.contains d.outA || outs.contains d.outB ||
      d.proofA == d.proofB || proofs.contains d.proofA || proofs.contains d.proofB)]

/-- R20, the station checks. -/
def CircuitMap.stationChecks (m : CircuitMap) (st : StationIx) (d : StationDesc) : List (Nat × Bool) :=
  let carries : InputIx → InputFunction → Bool := fun i f => (m.input i).any fun x => x.function == f
  [(0x40, !((m.zone d.zone).any fun zd => zd.kind == .station && zd.station == some st)),
   (0x41, !(carries d.restraint (.restraint st) && carries d.gate (.gate st) &&
      carries d.dispatchA (.dispatchA st) && carries d.dispatchB (.dispatchB st)))]

/-- R21, the drive check. -/
def CircuitMap.driveChecks (m : CircuitMap) (ch : ChannelIx) : List (Nat × Bool) :=
  [(0x50, decide (1 < (List.finRange 48).countP fun z => (m.zone z).any fun zd => zd.element == .drive ch))]

/-- R21, the input checks. -/
def CircuitMap.inputChecks (m : CircuitMap) (i : InputIx) (d : InputDesc) : List (Nat × Bool) :=
  let place : StationIx → (StationDesc → InputIx) → Bool := fun st f => (m.station st).any fun sd => f sd == i
  [(0x60, match d.function with
      | .zoneHold z => !m.hasZone z
      | .dispatchA st | .dispatchB st | .restraint st | .gate st => (m.station st).isNone
      | _ => false),
   (0x61, match d.function with
      | .restraint st => !place st (·.restraint)
      | .gate st => !place st (·.gate)
      | .dispatchA st => !place st (·.dispatchA)
      | .dispatchB st => !place st (·.dispatchB)
      | _ => false)]

/-- The report of the first slot of a group, in ascending index, that fails a check (R16). -/
def firstOf {α : Type} {n : Nat} (group : Nat) (slot : Fin n → Option α) (checks : Fin n → α → List (Nat × Bool)) :
    Option Report :=
  (List.finRange n).findSome? fun i =>
    (slot i).bind fun d => (firstFail (checks i d)).map (Report.failing group i.val)

/-- Validation of a map (R16): the groups in order, stopping at the first failing check. -/
def CircuitMap.validate (m : CircuitMap) : Report :=
  match (firstFail m.circuitChecks).map (Report.failing 7 0) with
  | some r => r
  | none =>
    match firstOf 1 m.zone m.zoneChecks with
    | some r => r
    | none =>
      match firstOf 2 m.boundary m.boundaryChecks with
      | some r => r
      | none =>
        match firstOf 3 m.switch m.switchChecks with
        | some r => r
        | none =>
          match firstOf 4 m.station m.stationChecks with
          | some r => r
          | none =>
            match firstOf 5 m.drive (fun ch _ => m.driveChecks ch) with
            | some r => r
            | none => (firstOf 6 m.input m.inputChecks).getD Report.pass

/-- The admission limit: the smaller of 16 and the configured zones less one (R51). -/
def CircuitMap.admissionLimit (m : CircuitMap) : Nat := min Config.slots (m.zoneCount - 1)

end Sys2Proof.Machine
end

