-- ==== Sys2Proof/Machine/State.lean ====
section
/-! DEFINITION. The state of the BZ48, block by block (Table 0-1), as plain data; the reasons a step can stop; and the state
right after a start-up reset (R179). Timers are kept as the reading of the time base, in µs, at which they fall due.
A field the spec makes the function of another (the ride stop latch, the attention output, command outputs, a drive
channel's phase, a station's occupant) is not stored beside it: Machine/Ops.lean and the record layouts compute it. -/

namespace Sys2Proof.Machine

/-! ### Stop control and the notices -/

/-- Operating modes (R154). -/
inductive Mode where
  | loading | config | maintenance | auto
deriving DecidableEq, Repr

/-- Ride stop causes, in the order of their bits (Tables 9-3 and 10-14). -/
inductive Cause where
  | start | estop | link | zoneFault | elementFault | switchFault | boundaryFault | lost | overdue | rollbackUnguarded
  | stationProof
deriving DecidableEq, Repr

/-- Notices, in the order of their bits (Tables 10-3 and 10-14). -/
inductive Notice where
  | rideStop | overdue | early | overrun | rollback | fault | dispatchCancelled | latePair | storeDone | loadFailed
  | checkError | selectionDiscarded
deriving DecidableEq, Repr

/-- Hold sources, in the order of their bits (Tables 2-1 and 10-12). -/
inductive HoldSource where
  | link | input | rollback | overdue
deriving DecidableEq, Repr

/-! ### Zones -/

/-- A zone's phase with its occupant and holder, which Table 2-2 ties to it. -/
inductive Claim where
  /-- no occupant, no holder -/
  | clear
  /-- holder only, ahead of it -/
  | reserved (t : SlotIx)
  /-- the occupant's nose -/
  | entry (t : SlotIx)
  /-- the whole occupant -/
  | occupied (t : SlotIx)
  /-- the occupant's tail -/
  | exit (t : SlotIx)
  /-- holder only, behind it -/
  | guarded (t : SlotIx)
deriving DecidableEq, Repr

/-- Zone fault causes (Table 2-1). -/
inductive ZoneFault where
  | unexpected | overrun | speed | boundary
deriving DecidableEq, Repr

/-- A zone record (Table 2-1). The hold sources are bits 0–3 of Table 10-12. -/
structure ZoneRec where
  claim : Claim
  holds : BitVec 4
  fault : Option ZoneFault
  entrySpeed : Option Nat
deriving DecidableEq, Repr

/-! ### Trains -/

/-- Train phases (Table 3-2). -/
inductive TrainPhase where
  | entering | running | stopping | held | leaving | rollback | overdue | parked | lost
deriving DecidableEq, Repr

/-- Directions of motion, and of a passage (Tables 3-1 and 4-1). -/
inductive Direction where
  | forward | reverse
deriving DecidableEq, Repr

/-- Deadline kinds (Table 3-1). -/
inductive DeadlineKind where
  | journey | stop
deriving DecidableEq, Repr

/-- A running deadline: the reading of the time base it counts from, its duration and early bound in ms (R53, R104). -/
structure Deadline where
  kind : DeadlineKind
  start : Nat
  duration : Nat
  early : Option Nat
deriving DecidableEq, Repr

/-- What an overdue train failed to do (Table 3-5). -/
inductive Awaited where
  | approach | berth | noseIn
deriving DecidableEq, Repr

/-- A train record (Table 3-1). The guard zone and the guarded boundary stand together. -/
structure Train where
  label : Nat
  phase : TrainPhase
  head : ZoneIx
  tail : Option ZoneIx
  dir : Direction
  chain : List ZoneIx
  guard : Option (ZoneIx × BoundaryIx)
  deadline : Option Deadline
  lastSpeed : Option Nat
  awaited : Option Awaited
  early : Nat
  overdue : Nat
  directive : Option (SwitchIx × Side)
  stepping : Bool
deriving DecidableEq, Repr

/-! ### Holding elements and drive channels -/

/-- The last command an element took (Table 7-1). -/
inductive ElementCommand where
  | close | openRun | openCreep
deriving DecidableEq, Repr

/-- Causes of a brake's FAULT (Table 7-1). -/
inductive ElementFault where
  | openTimeout | closeTimeout | proofConflict | proofLost
deriving DecidableEq, Repr

/-- A BRAKE's state; the proof timer runs in OPENING and CLOSING, the fault cause stands in FAULT (Tables 7-1, 7-2). -/
inductive BrakeState where
  | closed
  | opening (due : Nat)
  | opened
  | closing (due : Nat)
  | fault (cause : ElementFault)
deriving DecidableEq, Repr

/-- A DRIVE element's state (Table 7-2). -/
inductive DriveState where
  | closed | opening | opened | closing
deriving DecidableEq, Repr

/-- An element record (R126). Its proof levels are those of the proof lines, its output follows its state. -/
inductive Element where
  | brake (st : BrakeState) (cmd : ElementCommand)
  | drive (st : DriveState) (cmd : ElementCommand)
deriving DecidableEq, Repr

/-- A drive channel record (R134); its phase follows from the code and the target. -/
structure Channel where
  code : Nat
  target : Nat
  stepDue : Option Nat
  zone : Option ZoneIx
deriving DecidableEq, Repr

/-! ### Switches -/

/-- Causes of a switch's FAULT (Table 6-1). -/
inductive SwitchFault where
  | moveTimeout | proofConflict | proofLost | noPosition | enteredInMove
deriving DecidableEq, Repr

/-- A switch's position state; the move timer runs while moving, the fault cause stands in FAULT (Table 6-2). -/
inductive SwitchPos where
  | locked (at_ : Side)
  | moving (toward : Side) (due : Nat)
  | fault (cause : SwitchFault)
deriving DecidableEq, Repr

/-- Who asked for a move (Table 6-1). -/
inductive MoveSource where
  | routing | arbiter | link
deriving DecidableEq, Repr

/-- A merge arbiter (Table 6-1). -/
inductive Arbiter where
  | idle
  | aligning (side : Side)
  | granted (side : Side) (t : SlotIx)
  | inUse (side : Side)
deriving DecidableEq, Repr

/-- The fields of one kind of switch: routing for DIVERGE, arbitration for MERGE (Table 6-1). -/
inductive SwitchRole where
  | diverge (setting : Option (SlotIx × Side)) (last : Side)
  | merge (reqA reqB : Option SlotIx) (arbiter : Arbiter) (lastServed : Side)
deriving DecidableEq, Repr

/-- A switch record (Table 6-1). -/
structure SwitchRec where
  pos : SwitchPos
  pending : Option (Side × MoveSource)
  committed : Option Side
  role : SwitchRole
deriving DecidableEq, Repr

/-! ### Stations -/

/-- How a demand was formed (Table 8-1). -/
inductive DemandSource where
  | buttons | link
deriving DecidableEq, Repr

/-- A station's state with the demand of PENDING and the departing mark of RELEASING (Tables 8-1 and 8-2). -/
inductive StationState where
  | empty | arriving | loading | ready
  | pending (source : DemandSource) (waitDue : Nat)
  | releasing (departing : Bool)
deriving DecidableEq, Repr

/-- A station's two-hand pairing; side A is the DISPATCH_A input (Table 8-4). -/
inductive Pairing where
  | armed
  | timing (first : Side) (due : Nat)
  | expired (first : Side)
  | spent
deriving DecidableEq, Repr

/-- A station record (Table 8-1); its occupant is its zone's, its proofs are its inputs'. -/
structure StationRec where
  state : StationState
  pairing : Pairing
deriving DecidableEq, Repr

/-! ### Passage unit and function inputs -/

/-- The start-up of an input filter: stopped, waiting for its levels until `due`, running (R81, R142). -/
inductive FilterPhase where
  | off
  | waiting (due : Nat)
  | running
deriving DecidableEq, Repr

/-- The track sensor lines: raw levels, filtered levels (true: covered), and the pending changes in the order of their raw
changes, each with its time stamp (R77, R78). -/
structure Sensors where
  high : Vector Bool 128
  covered : Vector Bool 128
  changes : List (SensorLine × Nat)
  phase : FilterPhase
deriving DecidableEq, Repr

/-- Causes of a boundary's FAULT (Table 4-1). -/
inductive BoundaryFault where
  | reverseUnexpected | coveredAtStart
deriving DecidableEq, Repr

/-- A passage state with the direction and, in ENTERING, the gate start (Table 4-1). -/
inductive Passage where
  | clear
  | entering (dir : Direction) (start : Nat)
  | spanning (dir : Direction)
  | leaving (dir : Direction)
  | fault (cause : BoundaryFault)
deriving DecidableEq, Repr

/-- A boundary record (Table 4-1); its levels are the filtered levels of its lines. -/
structure BoundaryRec where
  passage : Passage
  stalled : Bool
  lastInterval : Option Nat
deriving DecidableEq, Repr

/-- The function input lines: raw and filtered levels (true: high), and the time of each pending change (R141). -/
structure Inputs where
  high : Vector Bool 16
  filtered : Vector Bool 16
  changes : Vector (Option Nat) 16
  phase : FilterPhase
deriving DecidableEq, Repr

/-! ### Map store and link unit -/

/-- Conditions of the stored image (R180). -/
inductive ImageCondition where
  | valid | invalid | absent
deriving DecidableEq, Repr

/-- The stored image (R180). -/
structure Image where
  condition : ImageCondition
  version : Nat
  content : CircuitMap
  crc : BitVec 32
deriving DecidableEq, Repr

/-- Live record kinds (Table 10-10, NOTICE apart). -/
inductive LiveKind where
  | zone | train | boundary | switch | element | drive | station | inputs
deriving DecidableEq, Repr

/-- What READ_MAP_RECORD reads: a slot of the working map, or the validation report (R173). -/
inductive MapObject where
  | slot (ref : SlotRef)
  | report
deriving DecidableEq, Repr

/-- What the last byte of a block brings about. -/
inductive BlockEnd where
  /-- nothing: the block of a READ_LIVE or READ_MAP_RECORD -/
  | single
  /-- the notices of the snapshot are removed (R178) -/
  | clearing (snapshot : BitVec 12)
  /-- the stream goes on; `next` is the lowest index not yet passed (R174) -/
  | streaming (kind : LiveKind) (next : Nat)
deriving DecidableEq, Repr

/-- What is being sent in SENDING. The first four are due: their snapshot is taken when the start byte is sent (R170). -/
inductive Sending where
  /-- READ_LIVE's block (R172) -/
  | live (kind : LiveKind) (index : Nat)
  /-- READ_MAP_RECORD's block (R173) -/
  | mapRecord (obj : MapObject)
  /-- GET_CONDITION's notice block (R178) -/
  | notices
  /-- the next block of a stream, or its end-of-stream byte (R174) -/
  | stream (kind : LiveKind) (next : Nat)
  /-- a block that has begun, and the bytes of it not yet sent -/
  | begun (rest : List Byte) (after : BlockEnd)
deriving DecidableEq, Repr

/-- Where the link unit goes after the last byte of a response (Table 10-1). -/
inductive Follow where
  /-- to AWAITING_FRAME -/
  | nothing
  /-- to SENDING -/
  | send (what : Sending)
  /-- to AWAITING_BLOCK -/
  | awaitBlock (slot : SlotRef)
  /-- nowhere: the RESTART takes effect (R182) -/
  | restart
deriving DecidableEq, Repr

/-- Where the exchange on the link stands between two steps. `released` is outside a transaction; the others are the states of
Table 10-1. RECEIVING_BLOCK begins and ends within HOST_DATA_BLOCK, which takes its block whole (assumption log 5). -/
inductive Link where
  | released
  | awaitingFrame
  /-- RECEIVING_FRAME: the sync byte has been taken; `cut` where it cut off a stream (R175) -/
  | receivingFrame (cut : Bool)
  /-- PREPARING, for `wait` more bytes, and then RESPONDING, with the bytes of the response not yet sent -/
  | responding (wait : Nat) (rest : List Byte) (next : Follow)
  | sending (what : Sending)
  /-- AWAITING_BLOCK for a map slot (R12) -/
  | awaitingBlock (slot : SlotRef)
  /-- ACCEPTING: `wait` more bytes of 0xFF, then the acceptance byte -/
  | accepting (wait : Nat) (answer : Byte)
deriving DecidableEq, Repr

/-- An open hold selection: its first zone and its set, in the order selected (R43). -/
structure Selection where
  first : ZoneIx
  zones : List ZoneIx
deriving DecidableEq, Repr

/-! ### The whole -/

/-- The records that the interlock and the blocks it exchanges messages with keep of the ride. A vacant slot, or one whose
block holds no record, is `none`. -/
structure Ride where
  /-- interlock: zone records -/
  zones : Vector (Option ZoneRec) 48
  /-- interlock: the chain presented to the switch controller for each train (R32) -/
  presented : Vector (Option (List ZoneIx)) 16
  /-- train table -/
  trains : Vector (Option Train) 16
  /-- element controller -/
  elements : Vector (Option Element) 48
  /-- drive unit -/
  channels : Vector (Option Channel) 8
  /-- switch controller -/
  switches : Vector (Option SwitchRec) 4
  /-- station unit: station records -/
  stations : Vector (Option StationRec) 4
  /-- stop control: the cause set, bits of Table 10-14; the latch is set exactly while it is not empty (R159) -/
  causes : BitVec 11
  /-- link unit: the notice set, bits of Table 10-14 (R177) -/
  notices : BitVec 12
deriving DecidableEq, Repr

/-- No train, no record, no notice; the ride stop latched with START (R179). -/
def Ride.reset : Ride where
  zones := Vector.replicate 48 none
  presented := Vector.replicate 16 none
  trains := Vector.replicate 16 none
  elements := Vector.replicate 48 none
  channels := Vector.replicate 8 none
  switches := Vector.replicate 4 none
  stations := Vector.replicate 4 none
  causes := 1#11
  notices := 0#12

/-- The state of the block and the queue of its waiting commands. -/
structure State where
  /-- the commands that are waiting, first in first out -/
  pending : List Instr
  /-- the passage unit's time base, in µs (R79) -/
  now : Nat
  /-- supply present (R179, R183) -/
  powered : Bool
  /-- the reset line, asserted by RESET_ASSERTED; the first step that can only follow its release clears it -/
  resetLine : Bool
  /-- map store: the working map (R1) -/
  map : CircuitMap
  /-- map store: the stored image (R180) -/
  image : Image
  /-- map store: the content a store in progress is writing (R183) -/
  storing : Option CircuitMap
  /-- map store: the validation report (R16) -/
  report : Report
  /-- stop control: the mode (R154) -/
  mode : Mode
  /-- passage unit: the track sensor filter (R78) -/
  sensors : Sensors
  /-- passage unit: boundary records (R82) -/
  bounds : Vector (Option BoundaryRec) 52
  /-- proof input levels, true for active (R125) -/
  proofs : Vector Bool 96
  /-- station unit: function inputs (R141) -/
  inputs : Inputs
  /-- interlock: the hold selection (R43) -/
  selection : Option Selection
  /-- the records of the ride -/
  ride : Ride
  /-- link unit: where the exchange stands (R165) -/
  link : Link
  /-- link unit: the bytes put on the data output in the last step in which the host clocked any, oldest first -/
  dataOut : List Byte
  /-- the model's own: the responses and acceptance bytes prepared so far, which `Config.waitBytes` is applied to (assumption
  log 23) -/
  answers : Nat
deriving DecidableEq, Repr

/-- Why a step stops with a fault. No rule of the manual stops the part: an unsafe condition latches the ride stop, which is
state. The type has no constructor. -/
inductive Fault : Type
deriving DecidableEq, Repr

/-- Why a step is refused. -/
inductive Refusal where
  /-- Raised by exec's arm of a command that has no meaning yet; no arm raises it. Safe: nothing is claimed of a state
  after it. -/
  | notModelled (mnemonic : String)
deriving DecidableEq, Repr

/-- The sensor lines before any map is taken up: every line high (uncovered), no filter running (assumption log 3). -/
def Sensors.reset : Sensors where
  high := Vector.replicate 128 true
  covered := Vector.replicate 128 false
  changes := []
  phase := .off

/-- The function inputs before any map is taken up: every line low (assumption log 3). -/
def Inputs.reset : Inputs where
  high := Vector.replicate 16 false
  filtered := Vector.replicate 16 false
  changes := Vector.replicate 16 none
  phase := .off

/-- An image never written (R180; assumption log 2). -/
def Image.absent : Image := { condition := .absent, version := 0, content := CircuitMap.vacant, crc := 0#32 }

/-- The machine right after a start-up reset (R179), its load still to come. -/
def State.reset : State where
  pending := []
  now := 0
  powered := true
  resetLine := false
  map := CircuitMap.vacant
  image := Image.absent
  storing := none
  report := Report.notRun
  mode := .loading
  sensors := Sensors.reset
  bounds := Vector.replicate 52 none
  proofs := Vector.replicate 96 false
  inputs := Inputs.reset
  selection := none
  ride := Ride.reset
  link := .released
  dataOut := []
  answers := 0

end Sys2Proof.Machine
end

