-- ==== Sys2Proof/Machine/Flags.lean ====
section
/-! DEFINITION. The sets the spec lays out as bits (hold sources, ride stop causes, notices), and what follows from them:
the ride stop latch, the attention output and the condition byte. -/

namespace Sys2Proof.Machine

/-! ### Sets as bits -/

/-- The set with member `i` present. -/
def withBit {n : Nat} (s : BitVec n) (i : Nat) : BitVec n := s ||| BitVec.twoPow n i

/-- The set with member `i` absent. -/
def withoutBit {n : Nat} (s : BitVec n) (i : Nat) : BitVec n := s &&& ~~~(BitVec.twoPow n i)

/-- The bit of a ride stop cause (Table 10-14). -/
def Cause.bit : Cause → Nat
  | .start => 0
  | .estop => 1
  | .link => 2
  | .zoneFault => 3
  | .elementFault => 4
  | .switchFault => 5
  | .boundaryFault => 6
  | .lost => 7
  | .overdue => 8
  | .rollbackUnguarded => 9
  | .stationProof => 10

/-- The bit of a notice (Table 10-14). -/
def Notice.bit : Notice → Nat
  | .rideStop => 0
  | .overdue => 1
  | .early => 2
  | .overrun => 3
  | .rollback => 4
  | .fault => 5
  | .dispatchCancelled => 6
  | .latePair => 7
  | .storeDone => 8
  | .loadFailed => 9
  | .checkError => 10
  | .selectionDiscarded => 11

/-- The bit of a hold source (Table 10-12). -/
def HoldSource.bit : HoldSource → Nat
  | .link => 0
  | .input => 1
  | .rollback => 2
  | .overdue => 3

/-- The hold source is present on the zone. -/
def ZoneRec.holds? (zr : ZoneRec) (src : HoldSource) : Bool := zr.holds.getLsbD src.bit

/-- The notice is present (R177). -/
def Ride.notice? (r : Ride) (n : Notice) : Bool := r.notices.getLsbD n.bit

/-- The cause is in the set (R159). -/
def Ride.cause? (r : Ride) (c : Cause) : Bool := r.causes.getLsbD c.bit

/-! ### Notices, causes, latch -/

/-- A notice raised; one already present stays present (R177). -/
def Ride.raise (r : Ride) (n : Notice) : Ride := { r with notices := withBit r.notices n.bit }

/-- The ride stop latch: set exactly while the cause set is not empty (R159). -/
def Ride.latched (r : Ride) : Bool := r.causes != 0#11

/-- A cause reported to stop control: one new to the set joins it and raises RIDE_STOP, one already in it changes nothing
(R159). What the latching asks of the owners is `Ride.stopRide` (R160), done once the step's own effects have been taken. -/
def Ride.report (r : Ride) (c : Cause) : Ride :=
  if r.cause? c then r else ({ r with causes := withBit r.causes c.bit }).raise .rideStop

/-- The attention output: asserted exactly while the notice set is not empty (R177). -/
def State.attention (s : State) : Bool := s.ride.notices != 0#12

/-! ### The condition byte (Table 10-8) -/

def Mode.code : Mode → Nat
  | .loading => 0
  | .config => 1
  | .maintenance => 2
  | .auto => 3

/-- A stream is being sent. -/
def Sending.isStream : Sending → Bool
  | .stream _ _ | .begun _ (.streaming _ _) => true
  | _ => false

/-- A stream is active: from its response until it ends (R168, R174). -/
def Link.streamActive : Link → Bool
  | .responding _ _ (.send what) | .sending what => what.isStream
  | _ => false

/-- The condition byte of a response (Table 10-8, R168). -/
def State.conditionByte (s : State) : Byte :=
  byteOf (s.mode.code + 4 * s.ride.latched.toNat + 8 * s.attention.toNat + 16 * s.storing.isSome.toNat +
    32 * s.link.streamActive.toNat + 64 * s.selection.isSome.toNat)

/-- The idle byte: 0x00 while a store is in progress, else 0xFF (R165, R176). -/
def State.idleByte (s : State) : Byte := if s.storing.isSome then 0x00#8 else 0xFF#8

end Sys2Proof.Machine
end

