-- ==== Sys2Proof/Machine/Ops.lean ====
section
/-! DEFINITION. The named operations the rules share: what a block reads beside its own records, the passing of time, timers,
and reading and replacing one record. -/

namespace Sys2Proof.Machine

/-- What the blocks of the ride read and do not change while a step is taken: the time base, the map in use, the mode, the
proof levels and the function inputs. -/
structure Ctx where
  now : Nat
  map : CircuitMap
  mode : Mode
  proofs : Vector Bool 96
  inputs : Inputs

/-- What the blocks of the ride read in a state. -/
def State.ctx (s : State) : Ctx :=
  { now := s.now, map := s.map, mode := s.mode, proofs := s.proofs, inputs := s.inputs }

/-! ### Time (R79, R104) -/

/-- `dt` microseconds pass. -/
def State.advance (s : State) (dt : Nat) : State := { s with now := s.now + dt }

/-- The reading of the time base a number of milliseconds after `start`. -/
def dueAfter (start ms : Nat) : Nat := start + ms * Config.usPerMs

/-- The time left until `due` in whole milliseconds, rounded up (R104, R124, R140, R153). -/
def msLeft (now due : Nat) : Nat := (due - now + (Config.usPerMs - 1)) / Config.usPerMs

/-- When a deadline expires (R104). -/
def Deadline.due (d : Deadline) : Nat := dueAfter d.start d.duration

/-- A count one higher, saturating (00_scope.md section 1.5 "Saturation"). -/
def countUp (n : Nat) : Nat := min Config.countLimit (n + 1)

/-! ### Records of the ride -/

def Ride.zone? (r : Ride) (z : ZoneIx) : Option ZoneRec := tget r.zones z
def Ride.train? (r : Ride) (t : SlotIx) : Option Train := tget r.trains t
def Ride.element? (r : Ride) (z : ZoneIx) : Option Element := tget r.elements z
def Ride.channel? (r : Ride) (ch : ChannelIx) : Option Channel := tget r.channels ch
def Ride.switch? (r : Ride) (w : SwitchIx) : Option SwitchRec := tget r.switches w
def Ride.station? (r : Ride) (st : StationIx) : Option StationRec := tget r.stations st
def Ride.presented? (r : Ride) (t : SlotIx) : Option (List ZoneIx) := tget r.presented t

def Ride.putZone (r : Ride) (z : ZoneIx) (x : ZoneRec) : Ride := { r with zones := tput r.zones z (some x) }
def Ride.putTrain (r : Ride) (t : SlotIx) (x : Train) : Ride := { r with trains := tput r.trains t (some x) }
def Ride.freeSlot (r : Ride) (t : SlotIx) : Ride := { r with trains := tput r.trains t none }
def Ride.putElement (r : Ride) (z : ZoneIx) (x : Element) : Ride := { r with elements := tput r.elements z (some x) }
def Ride.putChannel (r : Ride) (ch : ChannelIx) (x : Channel) : Ride := { r with channels := tput r.channels ch (some x) }
def Ride.putSwitch (r : Ride) (w : SwitchIx) (x : SwitchRec) : Ride := { r with switches := tput r.switches w (some x) }
def Ride.putStation (r : Ride) (st : StationIx) (x : StationRec) : Ride := { r with stations := tput r.stations st (some x) }
def Ride.putPresented (r : Ride) (t : SlotIx) (x : Option (List ZoneIx)) : Ride := { r with presented := tput r.presented t x }

/-- A train record changed, where the slot holds one. -/
def Ride.onTrain (r : Ride) (t : SlotIx) (f : Train → Train) : Ride :=
  match r.train? t with
  | some x => r.putTrain t (f x)
  | none => r

/-! ### Claims (Table 2-2) -/

/-- The occupant a phase names. -/
def Claim.occupant : Claim → Option SlotIx
  | .entry t | .occupied t | .exit t => some t
  | _ => none

/-- The holder a phase names. -/
def Claim.holder : Claim → Option SlotIx
  | .reserved t | .entry t | .occupied t | .exit t | .guarded t => some t
  | .clear => none

/-- The claim on a zone; `none` where it has no record. -/
def Ride.claim? (r : Ride) (z : ZoneIx) : Option Claim := (r.zone? z).map (·.claim)

/-- The train a zone names as occupant. -/
def Ride.occupant? (r : Ride) (z : ZoneIx) : Option SlotIx := (r.claim? z).bind (·.occupant)

/-- The zone has a record and its phase is CLEAR. -/
def Ride.zoneClear (r : Ride) (z : ZoneIx) : Bool := r.claim? z == some .clear

/-- The train in a slot with its record, where the slot is occupied. -/
def Ride.trainsList (r : Ride) : List (SlotIx × Train) :=
  (List.finRange 16).filterMap fun t => (r.train? t).map fun x => (t, x)

/-- The number of occupied slots (R51). -/
def Ride.trainCount (r : Ride) : Nat := r.trainsList.length

/-! ### Proof lines and function inputs -/

/-- The level of a proof line (R125). -/
def Ctx.proof (c : Ctx) (l : ProofLine) : Bool := tget c.proofs l

/-- A function input reads active: its filtered level is its active level, once the levels have been set (R141, R142). -/
def inputActive (m : CircuitMap) (inp : Inputs) (i : InputIx) : Bool :=
  match m.input i with
  | none => false
  | some d => inp.phase == .running && tget inp.filtered i == d.activeHigh

def Ctx.active (c : Ctx) (i : InputIx) : Bool := inputActive c.map c.inputs i

/-- Some input of a function reads active. -/
def Ctx.anyActive (c : Ctx) (f : InputFunction) : Bool :=
  (List.finRange 16).any fun i => (c.map.input i).any (fun d => d.function == f) && c.active i

/-- The ESTOP condition that RESUME consults (R143). -/
def Ctx.estopActive (c : Ctx) : Bool := c.anyActive .estop

/-- A station's restraint and gate proofs are both active (R144). -/
def Ctx.stationProofs (c : Ctx) (st : StationIx) : Bool :=
  match c.map.station st with
  | some d => c.active d.restraint && c.active d.gate
  | none => false

end Sys2Proof.Machine
end

