-- ==== Sys2Proof/Machine/Stations.lean ====
section
/-! DEFINITION. Stations: their states (Table 8-3), the cancelling of a demand (R150), a release in progress (R152) and the
two-hand pairing (R147, R148). -/

namespace Sys2Proof.Machine

/-- What a station is told of, or does, that may change its state (Table 8-3, R148 to R152). -/
inductive StationEvent where
  /-- the zone gains an occupant -/
  | gained
  /-- the zone ceases to name an occupant -/
  | lost
  /-- the occupant becomes HELD, or ADMIT creates it HELD -/
  | held
  /-- the occupant leaves HELD with no open command taken -/
  | leftHeld
  /-- the occupant goes to LEAVING at the zone's exit -/
  | departing
  /-- an open command is taken for the zone's element -/
  | openCommand
  /-- the element is proven CLOSED while the occupant is HELD -/
  | provenClosed
  /-- both proofs become active -/
  | proofsMade
  /-- a proof becomes inactive -/
  | proofLost
  /-- a demand is accepted -/
  | demand (source : DemandSource) (waitDue : Nat)
  /-- the demand is cancelled with the occupant still HELD and both proofs active -/
  | cancel
deriving DecidableEq, Repr

/-- READY with both proofs active, LOADING otherwise. -/
def loadedState (proofs : Bool) : StationState := if proofs then .ready else .loading

/-- Station transitions (Table 8-3, with R148 to R152). -/
def StationState.next (proofs : Bool) (st : StationState) (e : StationEvent) : StationState :=
  match e, st with
  | .gained, .empty => .arriving
  | .lost, _ => .empty
  | .held, .arriving | .held, .loading | .held, .ready | .held, .releasing _ => loadedState proofs
  | .leftHeld, .loading | .leftHeld, .ready | .leftHeld, .pending _ _ => .arriving
  | .departing, .releasing _ => .releasing true
  | .openCommand, .arriving | .openCommand, .loading | .openCommand, .ready | .openCommand, .pending _ _ => .releasing false
  | .provenClosed, .releasing _ => loadedState proofs
  | .proofsMade, .loading => .ready
  | .proofLost, .ready | .proofLost, .pending _ _ => .loading
  | .demand source due, .ready => .pending source due
  | .cancel, .pending _ _ => .ready
  | _, st => st

/-- The station holds a demand. -/
def StationState.isPending : StationState → Bool
  | .pending _ _ => true
  | _ => false

/-- A release is under way. -/
def StationState.isReleasing : StationState → Bool
  | .releasing _ => true
  | _ => false

/-- Leaving PENDING for anything but RELEASING cancels the demand (R150; consumed by an open command, R152). -/
def cancelsDemand (old new : StationState) : Bool := old.isPending && !new.isPending && !new.isReleasing

/-- The event stops the ride: a proof lost, or found inactive, in RELEASING with departing at no (R152). -/
def stationUnproven (proofs : Bool) (old new : StationState) : StationEvent → Bool
  | .openCommand => old != new && !proofs
  | .proofLost => old == .releasing false
  | _ => false

/-- An event at a station, with the notice of a cancelled demand and the ride stop cause STATION_PROOF. -/
def stationEvent (c : Ctx) (st : StationIx) (e : StationEvent) (r : Ride) : Ride :=
  match r.station? st with
  | none => r
  | some x =>
    let proofs := c.stationProofs st
    let new := x.state.next proofs e
    let r1 := r.putStation st { x with state := new }
    let r2 := if cancelsDemand x.state new then r1.raise .dispatchCancelled else r1
    if stationUnproven proofs x.state new e then r2.report .stationProof else r2

/-- An event at the station of a zone, where the zone has one. -/
def zoneStationEvent (c : Ctx) (z : ZoneIx) (e : StationEvent) (r : Ride) : Ride :=
  match (c.map.zone z).bind (·.station) with
  | some st => stationEvent c st e r
  | none => r

/-! ### Two-hand pairing -/

/-- What a change of one dispatch input, or the window's expiry, makes of the pairing. -/
structure PairResult where
  pairing : Pairing
  /-- a pair is formed in time (R148) -/
  pair : Bool := false
  /-- the LATE_PAIR notice is raised -/
  late : Bool := false
deriving DecidableEq, Repr

/-- Input `side` becomes active (Table 8-4). -/
def Pairing.press (p : Pairing) (side : Side) (windowDue : Nat) : PairResult :=
  match p with
  | .armed => { pairing := .timing side windowDue }
  | .timing first due => if side = first then { pairing := .timing first due } else { pairing := .spent, pair := true }
  | .expired first => if side = first then { pairing := .expired first } else { pairing := .spent, late := true }
  | .spent => { pairing := .spent }

/-- Input `side` becomes inactive; `other` is the level of the other input (Table 8-4). -/
def Pairing.letGo (p : Pairing) (side : Side) (other : Bool) : PairResult :=
  match p with
  | .armed => { pairing := .armed }
  | .timing first due => if side = first then { pairing := .armed } else { pairing := .timing first due }
  | .expired first => if side = first then { pairing := .armed } else { pairing := .expired first }
  | .spent => { pairing := if other then .spent else .armed }

/-- A pair formed in time makes a READY station PENDING, in AUTO with no ride stop latched; the authority is BUTTONS or
EITHER, since a station of authority LINK has no pairing (R147, R148). -/
def formDemand (c : Ctx) (st : StationIx) (d : StationDesc) (r : Ride) : Ride :=
  if c.mode = .auto ∧ r.latched = false ∧ d.authority ≠ .link then
    stationEvent c st (.demand .buttons (dueAfter c.now d.dispatchWait)) r
  else r

/-- A change of a dispatch input reaches its station's pairing (R147). -/
def pairingChange (c : Ctx) (st : StationIx) (side : Side) (on : Bool) (r : Ride) : Ride :=
  match r.station? st, c.map.station st with
  | some x, some d =>
    if d.authority = .link then r
    else
      let other := match side with | .a => c.active d.dispatchB | .b => c.active d.dispatchA
      let res := if on then x.pairing.press side (dueAfter c.now d.pairWindow) else x.pairing.letGo side other
      let r1 := r.putStation st { x with pairing := res.pairing }
      let r2 := if res.late then r1.raise .latePair else r1
      if res.pair then formDemand c st d r2 else r2
  | _, _ => r

/-- The pair window runs out (Table 8-4). -/
def windowExpiry (st : StationIx) (r : Ride) : Ride :=
  match r.station? st with
  | some { state, pairing := .timing first _ } => r.putStation st { state, pairing := .expired first }
  | _ => r

/-- When a pair window runs out. -/
def Pairing.windowDue : Pairing → Option Nat
  | .timing _ due => some due
  | _ => none

/-- When a dispatch wait runs out. -/
def StationState.waitDue : StationState → Option Nat
  | .pending _ due => some due
  | _ => none

end Sys2Proof.Machine
end

