-- ==== Sys2Proof/Machine/Switches.lean ====
section
/-! DEFINITION. The switch controller: moves, locks and faults (R108 to R113), the merge arbiter (R114 to R119), diverge
routing (R120, R121), and the claims on zones, whose changes the switch controller and the station unit follow. -/

namespace Sys2Proof.Machine

/-- The position at which a switch stands locked. -/
def SwitchPos.lockedAt : SwitchPos → Option Side
  | .locked x => some x
  | _ => none

/-- The switch is in FAULT. -/
def SwitchPos.faulted : SwitchPos → Bool
  | .fault _ => true
  | _ => false

/-- The position at which switch `w` stands locked. -/
def Ride.lockOf (r : Ride) (w : SwitchIx) : Option Side := (r.switch? w).bind (·.pos.lockedAt)

/-- The zone that holds a switch is CLEAR (R112). -/
def switchZoneClear (c : Ctx) (r : Ride) (w : SwitchIx) : Bool :=
  match c.map.switch w with
  | some d => r.zoneClear d.zone
  | none => false

/-- A move of `x` toward `toward` starts; its timer runs out after the move timeout (R110). -/
def startedMove (c : Ctx) (w : SwitchIx) (toward : Side) (x : SwitchRec) : SwitchRec :=
  { x with pos := .moving toward (dueAfter c.now (((c.map.switch w).map (·.timeout)).getD 0)), pending := none }

/-- A request for a position, handled by the switch's state and whether its zone is CLEAR (Table 6-3). -/
def requestedMove (c : Ctx) (w : SwitchIx) (clear : Bool) (toward : Side) (src : MoveSource) (x : SwitchRec) : SwitchRec :=
  match x.pos with
  | .locked y =>
    if y = toward then { x with pending := none }
    else if clear then startedMove c w toward x
    else { x with pending := some (toward, src) }
  | .moving y _ => if y = toward then { x with pending := none } else { x with pending := some (toward, src) }
  | .fault _ => { x with pending := some (toward, src) }

/-- A request reaches a switch (R112). -/
def requestMove (c : Ctx) (w : SwitchIx) (toward : Side) (src : MoveSource) (r : Ride) : Ride :=
  match r.switch? w with
  | some x => r.putSwitch w (requestedMove c w (switchZoneClear c r w) toward src x)
  | none => r

/-- A pending request of a switch locked at `at_`: dropped where it is satisfied, carried out where the zone is CLEAR, kept
otherwise (R112). -/
def pendingAtLock (c : Ctx) (w : SwitchIx) (clear : Bool) (at_ : Side) (x : SwitchRec) : SwitchRec :=
  match x.pending with
  | some (y, _) => if y = at_ then { x with pending := none } else if clear then startedMove c w y x else x
  | none => x

/-- A merge arbiter as its switch locks at `at_` (R116). -/
def arbiterAtLock (at_ : Side) (reqA reqB : Option SlotIx) : Arbiter → Arbiter
  | .aligning side =>
    if side = at_ then
      match (match side with | .a => reqA | .b => reqB) with
      | some t => .granted side t
      | none => .idle
    else .aligning side
  | arb => arb

/-- A switch's arbiter told of a lock (R116). -/
def SwitchRole.atLock (at_ : Side) : SwitchRole → SwitchRole
  | .merge reqA reqB arb served => .merge reqA reqB (arbiterAtLock at_ reqA reqB arb) served
  | role => role

/-- A switch locks at a position: the lock is handed to the pending request and to the arbiter (R110). -/
def lockSwitch (c : Ctx) (w : SwitchIx) (at_ : Side) (r : Ride) : Ride :=
  match r.switch? w with
  | some x =>
    r.putSwitch w (pendingAtLock c w (switchZoneClear c r w) at_ { x with pos := .locked at_, role := x.role.atLock at_ })
  | none => r

/-- The arbiter is ALIGNING. -/
def SwitchRole.isAligning : SwitchRole → Bool
  | .merge _ _ (.aligning _) _ => true
  | _ => false

/-- The arbiter goes to IDLE and the request set is kept (R116, R117). -/
def SwitchRole.atFault : SwitchRole → SwitchRole
  | .merge reqA reqB _ served => .merge reqA reqB .idle served
  | role => role

/-- The record of a switch that enters FAULT: the committed position and the route setting are kept, and the pending
request but for an ALIGNING arbiter's own (R111, R116). -/
def SwitchRec.faultedBy (x : SwitchRec) (cause : SwitchFault) : SwitchRec :=
  { x with
    pos := .fault cause
    pending := match x.pending with
      | some (_, .arbiter) => if x.role.isAligning then none else x.pending
      | p => p
    role := x.role.atFault }

/-- A switch enters FAULT (R111). -/
def faultSwitch (w : SwitchIx) (cause : SwitchFault) (r : Ride) : Ride :=
  match r.switch? w with
  | some x => ((r.putSwitch w (x.faultedBy cause)).raise .fault).report .switchFault
  | none => r

/-- When a switch's move timer runs out. -/
def SwitchPos.moveDue : SwitchPos → Option Nat
  | .moving _ due => some due
  | _ => none

/-- A taken change of a switch's proof lines (R110, R111): `a` and `b` are their levels after it. -/
def switchProofChange (c : Ctx) (w : SwitchIx) (a b : Bool) (r : Ride) : Ride :=
  match r.switch? w with
  | none => r
  | some x =>
    let here : Side → Bool := fun side => match side with | .a => a | .b => b
    match x.pos with
    | .fault _ => r
    | .moving toward _ =>
      if a && b then faultSwitch w .proofConflict r
      else if here toward then lockSwitch c w toward r
      else r
    | .locked _ =>
      if a && b then faultSwitch w .proofConflict r
      else if !a && !b then faultSwitch w .proofLost r
      else r

/-- The switch's zone leaves CLEAR (R113). -/
def switchZoneTaken (w : SwitchIx) (r : Ride) : Ride :=
  match r.switch? w with
  | none => r
  | some x =>
    match x.pos with
    | .locked at_ => r.putSwitch w { x with committed := some at_ }
    | .moving _ _ => faultSwitch w .enteredInMove r
    | .fault _ => r

/-- An arbiter IN_USE goes to IDLE as its zone returns to CLEAR (R117). -/
def SwitchRole.atClear : SwitchRole → SwitchRole
  | .merge reqA reqB (.inUse _) served => .merge reqA reqB .idle served
  | role => role

/-- The switch's zone returns to CLEAR (R112, R113, R117). -/
def switchZoneCleared (c : Ctx) (w : SwitchIx) (r : Ride) : Ride :=
  match r.switch? w with
  | none => r
  | some x =>
    let y := { x with committed := none, role := x.role.atClear }
    match x.pos with
    | .locked at_ => r.putSwitch w (pendingAtLock c w true at_ y)
    | _ => r.putSwitch w y

/-! ### Claims on zones -/

/-- The switch a zone names, where it has a record. -/
def heldSwitch (c : Ctx) (z : ZoneIx) : Option SwitchIx := (c.map.zone z).bind (·.switch)

/-- The switch controller told of a change of a zone's claim (R32, R113). -/
def claimToSwitch (c : Ctx) (z : ZoneIx) (old new : Claim) (r : Ride) : Ride :=
  match heldSwitch c z with
  | none => r
  | some w =>
    if old = .clear ∧ new ≠ .clear then switchZoneTaken w r
    else if old ≠ .clear ∧ new = .clear then switchZoneCleared c w r
    else r

/-- The station unit told of a change of a zone's claim (R146). -/
def claimToStation (c : Ctx) (z : ZoneIx) (old new : Claim) (r : Ride) : Ride :=
  match old.occupant, new.occupant with
  | none, some _ => zoneStationEvent c z .gained r
  | some _, none => zoneStationEvent c z .lost r
  | _, _ => r

/-- A zone's phase, occupant and holder become those of `new`; the switch controller and the station unit follow. -/
def setClaim (c : Ctx) (z : ZoneIx) (new : Claim) (r : Ride) : Ride :=
  match r.zone? z with
  | none => r
  | some x => claimToStation c z x.claim new (claimToSwitch c z x.claim new (r.putZone z { x with claim := new }))

/-- A zone that names `t` as occupant takes a new claim; any other is left as it is (R25). -/
def setClaimOf (c : Ctx) (t : SlotIx) (z : ZoneIx) (new : Claim) (r : Ride) : Ride :=
  if r.occupant? z = some t then setClaim c z new r else r

/-! ### Requests, settings and their withdrawal -/

/-- `t`'s requests leave the set of a merge switch; an arbiter GRANTED to `t` goes to IDLE. A diverge switch drops `t`'s
route setting (R114, R117, R121). -/
def SwitchRole.without (t : SlotIx) : SwitchRole → SwitchRole
  | .merge reqA reqB arb served =>
    .merge (if reqA = some t then none else reqA) (if reqB = some t then none else reqB)
      (match arb with
       | .granted side u => if u = t then .idle else .granted side u
       | arb => arb)
      served
  | .diverge setting last => .diverge (if setting.any (fun p => p.1 = t) then none else setting) last

/-- The diverge switch holds a route setting for `t`. -/
def SwitchRole.settingFor (t : SlotIx) : SwitchRole → Bool
  | .diverge (some (u, _)) _ => u == t
  | _ => false

/-- A switch as `t`'s presentation is withdrawn; diverge routing withdraws the request of a setting it drops (R112). -/
def SwitchRec.without (x : SwitchRec) (t : SlotIx) : SwitchRec :=
  { x with
    pending := match x.pending with
      | some (_, .routing) => if x.role.settingFor t then none else x.pending
      | p => p
    role := x.role.without t }

/-- Everything the switch controller holds for `t` is withdrawn (R32, R73, R114, R121). -/
def withdrawSwitches (t : SlotIx) (r : Ride) : Ride :=
  overAll (fun (w : SwitchIx) r =>
    match r.switch? w with
    | some x => r.putSwitch w (x.without t)
    | none => r) r

/-- The route chosen for a train at diverge switch `w` (R120). -/
def chooseRoute (c : Ctx) (r : Ride) (w : SwitchIx) (d : SwitchDesc) (x : Train) (last : Side) : Side :=
  match x.directive with
  | some (v, side) => if v = w then side else byMode
  | none => byMode
where
  free (side : Side) : Bool :=
    (c.map.successor d.zone side).any fun s => r.zoneClear s && ((r.zone? s).map (·.fault)) == some none
  byMode : Side :=
    match d.kind with
    | .diverge .fixedA => .a
    | .diverge .fixedB => .b
    | .diverge .firstClear => if free .a && !free .b then .a else if free .b && !free .a then .b else last.other
    | _ => last.other

/-- A route is chosen and recorded for `t` at the diverge its chain ends at, and the switch asked for it (R120). -/
def routeFor (c : Ctx) (w : SwitchIx) (t : SlotIx) (x : Train) (r : Ride) : Ride :=
  match r.switch? w, c.map.switch w with
  | some sx, some d =>
    match sx.role with
    | .diverge _ last =>
      let side := chooseRoute c r w d x last
      requestMove c w side .routing (r.putSwitch w { sx with role := .diverge (some (t, side)) last })
    | _ => r
  | _, _ => r

/-- `t`'s request joins the set of a merge switch on a side (R114). -/
def addRequest (w : SwitchIx) (side : Side) (t : SlotIx) (r : Ride) : Ride :=
  match r.switch? w with
  | some x =>
    match x.role, side with
    | .merge _ reqB arb served, .a => r.putSwitch w { x with role := .merge (some t) reqB arb served }
    | .merge reqA _ arb served, .b => r.putSwitch w { x with role := .merge reqA (some t) arb served }
    | _, _ => r
  | none => r

/-- `t`'s chain, whose train stands in zone `z`, is presented: it ends at a diverge or a merge, or at neither (R32). -/
def present (c : Ctx) (t : SlotIx) (x : Train) (chain : List ZoneIx) (r : Ride) : Ride :=
  match chain.getLast? with
  | none => r
  | some d =>
    match c.map.divergeAt d, c.map.mergeAt d with
    | some w, _ => if c.map.predecessor d .a = some x.head then routeFor c w t x r else r
    | _, some w =>
      match c.map.sideFrom d x.head with
      | some side => addRequest w side t r
      | none => r
    | _, _ => r

/-! ### The merge arbiter's pick -/

/-- The side an IDLE arbiter picks: the one request's, or with two the side not served last (R115). -/
def pickSide (reqA reqB : Option SlotIx) (served : Side) : Option (Side × SlotIx) :=
  match reqA, reqB with
  | some t, none => some (.a, t)
  | none, some t => some (.b, t)
  | some t, some u => match served with
    | .a => some (.b, u)
    | .b => some (.a, t)
  | none, none => none

/-- An IDLE arbiter picks a side where the merge zone is CLEAR, the switch is not in FAULT and a request waits (R115); a
pending request of another source is discarded (R118). -/
def arbitrate (c : Ctx) (w : SwitchIx) (r : Ride) : Ride :=
  match r.switch? w with
  | some { pos, pending, committed, role := .merge reqA reqB .idle served } =>
    if switchZoneClear c r w && !pos.faulted then
      match pickSide reqA reqB served with
      | none => r
      | some (side, t) =>
        let kept := match pending with
          | some (y, .arbiter) => some (y, .arbiter)
          | _ => none
        if pos = .locked side then
          r.putSwitch w { pos, pending := kept, committed, role := .merge reqA reqB (.granted side t) served }
        else
          requestMove c w side .arbiter
            (r.putSwitch w { pos, pending := kept, committed, role := .merge reqA reqB (.aligning side) served })
    else r
  | _ => r

/-! ### A zone that holds a switch is reserved -/

/-- The roles' part in the reservation of a switch's zone for `t`: a diverge's setting is used up and the locked route
becomes the last route; a merge's grant is taken into use and `t`'s request leaves the set (R117, R121). -/
def SwitchRole.atReserve (t : SlotIx) (lock : Option Side) : SwitchRole → SwitchRole
  | .diverge setting last => .diverge (if setting.any (fun p => p.1 = t) then none else setting) (lock.getD last)
  | .merge reqA reqB (.granted side _) _ =>
    .merge (if reqA = some t then none else reqA) (if reqB = some t then none else reqB) (.inUse side) side
  | role => role

/-- The switch controller and the train's directive as zone `z` is reserved for `t` (R76, R117, R121). -/
def reservedAt (c : Ctx) (t : SlotIx) (z : ZoneIx) (r : Ride) : Ride :=
  match heldSwitch c z with
  | none => r
  | some w =>
    match r.switch? w with
    | none => r
    | some x =>
      (r.putSwitch w { x with role := x.role.atReserve t x.pos.lockedAt }).onTrain t fun y =>
        { y with directive := if y.directive.any (fun p => p.1 = w) then none else y.directive }

/-- A STEP's arbiter found IDLE is granted to the stepping train's side (R119). -/
def grantStep (w : SwitchIx) (side : Side) (t : SlotIx) (r : Ride) : Ride :=
  match r.switch? w with
  | some { pos, pending, committed, role := .merge reqA reqB .idle served } =>
    r.putSwitch w
      { pos, committed
        pending := match pending with
          | some (y, .arbiter) => some (y, .arbiter)
          | _ => none
        role := .merge reqA reqB (.granted side t) served }
  | _ => r

end Sys2Proof.Machine
end

