-- ==== Sys2Proof/Machine/Elements.lean ====
section
/-! DEFINITION. Holding elements and drive channels (chapter 7): commands, proofs, faults, the drive slew and the stop
profiles; what a proven element does to the train and the station of its zone (R61, R132); and the open and close commands
of the interlock (R35, R36, R60). -/

namespace Sys2Proof.Machine

/-! ### Changes of a train's phase the station unit follows -/

/-- An event at the station of a zone whose occupant is `t`. -/
def occupantStationEvent (c : Ctx) (t : SlotIx) (z : ZoneIx) (e : StationEvent) (r : Ride) : Ride :=
  if r.occupant? z = some t then zoneStationEvent c z e r else r

/-- A train's record replaced; the station of its zone learns that it became HELD, left HELD or went to LEAVING (R146, R152). -/
def changeTrain (c : Ctx) (t : SlotIx) (old new : Train) (r : Ride) : Ride :=
  let r1 := r.putTrain t new
  let r2 := if old.phase = .held ∧ new.phase ≠ .held then occupantStationEvent c t old.head .leftHeld r1 else r1
  let r3 := if old.phase ≠ .held ∧ new.phase = .held then occupantStationEvent c t new.head .held r2 else r2
  if old.phase ≠ .leaving ∧ new.phase = .leaving then occupantStationEvent c t new.head .departing r3 else r3

/-- A deadline of `ms` milliseconds counted from `start`. -/
def deadlineFrom (kind : DeadlineKind) (start ms : Nat) : Deadline := { kind, start, duration := ms, early := none }

/-- The stop allowance of a zone (R103). -/
def Ctx.stopAllowance (c : Ctx) (z : ZoneIx) : Nat := ((c.map.zone z).map (·.stop)).getD 0

/-- The release allowance of a zone (R102). -/
def Ctx.releaseAllowance (c : Ctx) (z : ZoneIx) : Nat := ((c.map.zone z).map (·.release)).getD 0

/-- The chain of `t` is returned: it becomes empty, and each of its zones still reserved for `t` goes to CLEAR (R34). -/
def returnChain (c : Ctx) (t : SlotIx) (r : Ride) : Ride :=
  match r.train? t with
  | none => r
  | some x =>
    x.chain.foldl (fun r z => if r.claim? z = some (.reserved t) then setClaim c z .clear r else r)
      (r.putTrain t { x with chain := [] })

/-! ### Proven elements (R132) -/

/-- The element of a zone is proven OPEN: the occupant HELD or STOPPING there goes to RUNNING on the release allowance (R61). -/
def provenOpen (c : Ctx) (z : ZoneIx) (r : Ride) : Ride :=
  match r.occupant? z with
  | none => r
  | some t =>
    match r.train? t with
    | none => r
    | some x =>
      if (x.phase = .held ∨ x.phase = .stopping) ∧ x.head = z then
        changeTrain c t x
          { x with
            phase := .running
            dir := .forward
            deadline := some (deadlineFrom .journey c.now (c.releaseAllowance z)) } r
      else r

/-- The element of a zone is proven CLOSED: an occupant HELD there with a chain returns it, and a RELEASING station whose
occupant is HELD is loaded again (R132, R146). That the stepping field stays is the model's choice (assumption log 26). -/
def provenClosed (c : Ctx) (z : ZoneIx) (r : Ride) : Ride :=
  match r.occupant? z with
  | none => r
  | some t =>
    match r.train? t with
    | none => r
    | some x =>
      if x.phase = .held ∧ x.head = z then zoneStationEvent c z .provenClosed (returnChain c t r) else r

/-! ### Brakes -/

/-- The levels of a brake's two proofs, open and closed. -/
def Ctx.brakeLevels (c : Ctx) (z : ZoneIx) : Bool × Bool :=
  match c.map.elementAt z with
  | .brake o cl _ => (c.proof o, c.proof cl)
  | _ => (false, false)

/-- When a brake's proof timer started now runs out (R128). -/
def Ctx.proofDue (c : Ctx) (z : ZoneIx) : Nat :=
  match c.map.elementAt z with
  | .brake _ _ timeout => dueAfter c.now timeout
  | _ => c.now

/-- Proof changes at a BRAKE element (Table 7-4). -/
def BrakeState.atLevels (st : BrakeState) (openL closedL : Bool) : BrakeState :=
  match st, openL, closedL with
  | .opening _, true, false => .opened
  | .opening _, true, true => .fault .proofConflict
  | .closing _, false, true => .closed
  | .closing _, true, true => .fault .proofConflict
  | .opened, true, true => .fault .proofConflict
  | .opened, false, false => .fault .proofLost
  | .closed, true, true => .fault .proofConflict
  | .closed, false, false => .fault .proofLost
  | st, _, _ => st

/-- Commands to a BRAKE element, before the levels are applied (Table 7-3). -/
def BrakeState.commanded (st : BrakeState) (cmd : ElementCommand) (due : Nat) : BrakeState :=
  match cmd, st with
  | .close, .closed => .closed
  | .close, .opening _ => .closing due
  | .close, .opened => .closing due
  | .close, .closing _ => .closing due
  | _, .closed => .opening due
  | _, .opening _ => .opening due
  | _, .opened => .opened
  | _, .closing _ => .opening due
  | _, .fault cause => .fault cause

/-- A brake comes to a state: proven there, in flight, or in FAULT with the reports of R131 and R132. -/
def brakeBecomes (c : Ctx) (z : ZoneIx) (st : BrakeState) (cmd : ElementCommand) (r : Ride) : Ride :=
  let r1 := r.putElement z (.brake st cmd)
  match st with
  | .opened => provenOpen c z r1
  | .closed => provenClosed c z r1
  | .fault _ => (r1.raise .fault).report .elementFault
  | _ => r1

/-- A command taken by a BRAKE (R128). -/
def brakeCommand (c : Ctx) (z : ZoneIx) (cmd : ElementCommand) (st : BrakeState) (r : Ride) : Ride :=
  match st.commanded cmd (c.proofDue z) with
  | .fault cause => r.putElement z (.brake (.fault cause) cmd)
  | .opened => brakeBecomes c z .opened cmd r
  | .closed => brakeBecomes c z .closed cmd r
  | flight => brakeBecomes c z (flight.atLevels (c.brakeLevels z).1 (c.brakeLevels z).2) cmd r

/-- A taken change of a brake's proof levels (R129). -/
def brakeProofChange (c : Ctx) (z : ZoneIx) (r : Ride) : Ride :=
  match r.element? z with
  | some (.brake st cmd) =>
    let new := st.atLevels (c.brakeLevels z).1 (c.brakeLevels z).2
    if new = st then r else brakeBecomes c z new cmd r
  | _ => r

/-- A brake's proof timer runs out (R130). -/
def proofExpiry (c : Ctx) (z : ZoneIx) (r : Ride) : Ride :=
  match r.element? z with
  | some (.brake (.opening _) cmd) => brakeBecomes c z (.fault .openTimeout) cmd r
  | some (.brake (.closing _) cmd) => brakeBecomes c z (.fault .closeTimeout) cmd r
  | _ => r

/-- When an element's proof timer runs out. -/
def Element.timerDue : Element → Option Nat
  | .brake (.opening due) _ | .brake (.closing due) _ => some due
  | _ => none

/-! ### Drive channels -/

/-- The code an element's command names (R133). -/
def ElementCommand.codeOn (cmd : ElementCommand) (d : DriveDesc) : Nat :=
  match cmd with
  | .close => 0
  | .openRun => d.run
  | .openCreep => d.creep

/-- A channel at rest at a code. -/
def Channel.restingAt (ch : Channel) (code : Nat) : Channel := { ch with code, target := code, stepDue := none }

/-- A channel takes a target; the second part says whether it reports arrival at once (R134). -/
def Channel.aimed (ch : Channel) (target stepDue : Nat) : Channel × Bool :=
  if ch.code = target then (ch.restingAt target, true)
  else if target = ch.target then (ch, false)
  else ({ ch with target, stepDue := some stepDue }, false)

/-- The channel is FALLING (R134). -/
def Channel.falling (ch : Channel) : Bool := decide (ch.target < ch.code)

/-- One step of a channel toward its target by at most `size` (R135). -/
def Channel.stepped (ch : Channel) (size nextDue : Nat) : Channel × Bool :=
  let code :=
    if ch.target < ch.code then ch.code - min size (ch.code - ch.target)
    else ch.code + min size (ch.target - ch.code)
  if code = ch.target then (ch.restingAt code, true) else ({ ch with code, stepDue := some nextDue }, false)

/-- The step size in force (R135). -/
def stepSize (d : DriveDesc) (falling latched : Bool) : Nat :=
  if falling ∧ latched ∧ d.profile = .ramp then d.stopStep else d.step

/-- The enable output: on while the code or the target is above 0 (R137). -/
def Channel.enabled (ch : Channel) : Bool := decide (0 < ch.code) || decide (0 < ch.target)

/-! ### Drive elements -/

/-- The channel of a zone's DRIVE element (Table 1-2). -/
def Ctx.channelOf (c : Ctx) (z : ZoneIx) : Option ChannelIx :=
  match c.map.elementAt z with
  | .drive ch => some ch
  | _ => none

/-- A DRIVE element stands at the code its command names (R132, R133). -/
def driveArrives (c : Ctx) (z : ZoneIx) (cmd : ElementCommand) (r : Ride) : Ride :=
  match cmd with
  | .close => provenClosed c z (r.putElement z (.drive .closed cmd))
  | _ => provenOpen c z (r.putElement z (.drive .opened cmd))

/-- A DRIVE element in flight under its command (R133). -/
def driveInFlight (z : ZoneIx) (cmd : ElementCommand) (r : Ride) : Ride :=
  r.putElement z (.drive (match cmd with | .close => .closing | _ => .opening) cmd)

/-- A close command finds the stop profile IMMEDIATE under a latched ride stop (R136). -/
def stopsAtOnce (r : Ride) (d : DriveDesc) (cmd : ElementCommand) : Bool :=
  cmd == .close && r.latched && d.profile == .immediate

/-- A command taken by a DRIVE element (R133, R134, R136). -/
def driveCommand (c : Ctx) (z : ZoneIx) (cmd : ElementCommand) (r : Ride) : Ride :=
  match c.channelOf z with
  | none => r
  | some i =>
    match r.channel? i, c.map.drive i with
    | some ch, some d =>
      let aim := if stopsAtOnce r d cmd then (ch.restingAt 0, true)
        else ch.aimed (cmd.codeOn d) (dueAfter c.now d.interval)
      let r1 := r.putChannel i aim.1
      if aim.2 then driveArrives c z cmd r1 else driveInFlight z cmd r1
    | _, _ => r

/-- A channel reports arrival at `code`: the element's state changes where its command names that code (R133). -/
def channelArrival (c : Ctx) (zone : Option ZoneIx) (d : DriveDesc) (code : Nat) (r : Ride) : Ride :=
  match zone with
  | none => r
  | some z =>
    match r.element? z with
    | some (.drive _ cmd) => if cmd.codeOn d = code then driveArrives c z cmd r else r
    | _ => r

/-- A channel's step timer runs out (R135). -/
def channelStep (c : Ctx) (i : ChannelIx) (r : Ride) : Ride :=
  match r.channel? i, c.map.drive i with
  | some ch, some d =>
    match ch.stepDue with
    | some due =>
      let st := ch.stepped (stepSize d ch.falling r.latched) (dueAfter due d.interval)
      let r1 := r.putChannel i st.1
      if st.2 then channelArrival c ch.zone d st.1.code r1 else r1
    | none => r
  | _, _ => r

/-- The ride stop latches: the channel's target becomes 0 under its stop profile. An element whose command is still open is
CLOSING from then on (R133, R136). -/
def channelStop (c : Ctx) (i : ChannelIx) (r : Ride) : Ride :=
  match r.channel? i, c.map.drive i with
  | some ch, some d =>
    let aim := if d.profile = .immediate then (ch.restingAt 0, true) else ch.aimed 0 (dueAfter c.now d.interval)
    let r1 := r.putChannel i aim.1
    match ch.zone with
    | none => r1
    | some z =>
      match r1.element? z with
      | some (.drive _ cmd) =>
        if cmd = .close ∧ aim.2 then driveArrives c z cmd r1 else r1.putElement z (.drive .closing cmd)
      | _ => r1
  | _, _ => r

/-! ### Commands of the interlock -/

/-- A command taken by a zone's element (R128, R133). -/
def commandElement (c : Ctx) (z : ZoneIx) (cmd : ElementCommand) (r : Ride) : Ride :=
  match r.element? z with
  | some (.brake st _) => brakeCommand c z cmd st r
  | some (.drive _ _) => driveCommand c z cmd r
  | none => r

/-- A close command under a RUNNING train takes it to STOPPING on the stop allowance (R60). -/
def closeUnderTrain (c : Ctx) (z : ZoneIx) (r : Ride) : Ride :=
  match r.occupant? z with
  | none => r
  | some t =>
    match r.train? t with
    | none => r
    | some x =>
      if x.phase = .running ∧ x.head = z then
        changeTrain c t x
          { x with phase := .stopping, deadline := some (deadlineFrom .stop c.now (c.stopAllowance z)) } r
      else r

/-- The interlock commands a zone's element closed; a zone without one receives no command (R36). -/
def closeElement (c : Ctx) (z : ZoneIx) (r : Ride) : Ride :=
  match r.element? z with
  | none => r
  | some _ => commandElement c z .close (closeUnderTrain c z r)

/-- The interlock commands a zone's element open, at the creep code for a STEP; a brake's open command is OPEN_RUN. The
station of the zone begins its release (R35, R132, R152). -/
def openElement (c : Ctx) (z : ZoneIx) (creep : Bool) (r : Ride) : Ride :=
  match r.element? z with
  | none => r
  | some e =>
    let cmd : ElementCommand := match e with
      | .brake _ _ => .openRun
      | .drive _ _ => if creep then .openCreep else .openRun
    commandElement c z cmd (zoneStationEvent c z .openCommand r)

end Sys2Proof.Machine
end

