-- ==== Sys2Proof/Machine/Interlock.lean ====
section
/-! DEFINITION. The interlock: hold sources and zone faults (R37 to R39, R48), eligibility and chains (R29 to R33), the
latching of the ride stop (R160), and the reconsideration that ends a step. -/

namespace Sys2Proof.Machine

/-! ### Holds and faults -/

/-- A hold source is added; one that was absent closes the zone's element (R36, R37). -/
def addHold (c : Ctx) (z : ZoneIx) (src : HoldSource) (r : Ride) : Ride :=
  match r.zone? z with
  | none => r
  | some x =>
    if x.holds? src then r
    else closeElement c z (r.putZone z { x with holds := withBit x.holds src.bit })

/-- A hold source is removed; no element is commanded (R37, R42). -/
def removeHold (z : ZoneIx) (src : HoldSource) (r : Ride) : Ride :=
  match r.zone? z with
  | none => r
  | some x => r.putZone z { x with holds := withoutBit x.holds src.bit }

/-- A fault cause arrives at a zone: the notice, the ride stop cause but for BOUNDARY, and, where the zone held none, the
cause itself with a close command (R48). -/
def setZoneFault (c : Ctx) (z : ZoneIx) (cause : ZoneFault) (r : Ride) : Ride :=
  let r1 := r.raise .fault
  let r2 := if cause = .boundary then r1 else r1.report .zoneFault
  match r2.zone? z with
  | none => r2
  | some x => if x.fault.isSome then r2 else closeElement c z (r2.putZone z { x with fault := some cause })

/-! ### Eligibility (R29) -/

/-- The zone's element is in FAULT. -/
def Ride.elementFaulted (r : Ride) (z : ZoneIx) : Bool :=
  match r.element? z with
  | some (.brake (.fault _) _) => true
  | _ => false

/-- The zone is not a STATION zone, or its station meets `p`. -/
def stationMeets (c : Ctx) (z : ZoneIx) (p : StationIx → Bool) : Bool :=
  match c.map.zone z with
  | some d => d.kind != .station || d.station.any p
  | none => false

/-- The conditions of R29 on a train and its zone that hold alike in AUTO and for a STEP. -/
def readyToReserve (c : Ctx) (r : Ride) (x : Train) : Bool :=
  !r.latched && (x.phase == .entering || x.phase == .running || x.phase == .stopping || x.phase == .held) &&
  !c.map.isSpur x.head && c.map.isStopping x.head &&
  ((r.zone? x.head).any fun zr => zr.holds == 0#4 && zr.fault == none) &&
  !r.elementFaulted x.head && x.chain.isEmpty

/-- The train is eligible in AUTO (R29). -/
def eligible (c : Ctx) (r : Ride) (x : Train) : Bool :=
  c.mode == .auto && readyToReserve c r x &&
  stationMeets c x.head fun st => (r.station? st).any fun sr => sr.state.isPending

/-! ### Chains (R30, R31) -/

/-- The successor of a zone as a chain takes it: at a diverge, along the route at which its switch stands locked (R30). -/
def chainSuccessor (c : Ctx) (r : Ride) (z : ZoneIx) : Option ZoneIx :=
  match c.map.divergeAt z with
  | some w => (r.lockOf w).bind (c.map.successor z)
  | none => c.map.successor z .a

/-- The zones from `z` on, while the zone last added is non-stopping; at most `k + 1` of them. -/
def chainFrom (m : CircuitMap) : Nat → ZoneIx → List ZoneIx
  | 0, z => [z]
  | k + 1, z =>
    if m.isNonStopping z then
      match m.successor z .a with
      | some s => z :: chainFrom m k s
      | none => [z]
    else [z]

/-- The prospective chain of a train (R30). -/
def prospectiveChain (c : Ctx) (r : Ride) (x : Train) : Option (List ZoneIx) :=
  (chainSuccessor c r x.head).map (chainFrom c.map (Config.chainLimit - 1))

/-- The diverge switch, if the zone holds one, is locked at the route set for `t`; for a STEP, at any (R31). -/
def divergeAvailable (c : Ctx) (r : Ride) (t : SlotIx) (step : Bool) (z : ZoneIx) : Bool :=
  match c.map.divergeAt z with
  | none => true
  | some w =>
    match r.switch? w with
    | some { pos := .locked at_, role := .diverge setting _, .. } => step || setting == some (t, at_)
    | _ => false

/-- The merge arbiter, if the zone holds one, is GRANTED to the side of the zone before it in the chain; for a STEP, also
IDLE with the switch locked at that side (R31, R74). -/
def mergeAvailable (c : Ctx) (r : Ride) (step : Bool) (before z : ZoneIx) : Bool :=
  match c.map.mergeAt z with
  | none => true
  | some w =>
    match r.switch? w, c.map.sideFrom z before with
    | some { role := .merge _ _ (.granted s _) _, .. }, some side => s == side
    | some { pos, role := .merge _ _ .idle _, .. }, some side => step && pos == .locked side
    | _, _ => false

/-- A zone of a chain is available, `before` being the zone before it (R31). -/
def zoneAvailable (c : Ctx) (r : Ride) (t : SlotIx) (step : Bool) (before z : ZoneIx) : Bool :=
  ((r.zone? z).any fun zr => zr.claim == .clear && zr.fault == none && (c.map.isStopping z || zr.holds == 0#4)) &&
  divergeAvailable c r t step z && mergeAvailable c r step before z

/-- Every zone of a chain is available (R33). -/
def chainAvailable (c : Ctx) (r : Ride) (t : SlotIx) (step : Bool) : ZoneIx → List ZoneIx → Bool
  | _, [] => true
  | before, z :: zs => zoneAvailable c r t step before z && chainAvailable c r t step z zs

/-- A chain is reserved in full: the chain is filled, every zone goes to RESERVED for `t`, the presentation ends, and the
element of the head zone is commanded open (R33). -/
def reserveChain (c : Ctx) (t : SlotIx) (chain : List ZoneIx) (creep : Bool) (r : Ride) : Ride :=
  match r.train? t with
  | none => r
  | some x =>
    let r1 := r.putTrain t { x with chain := chain }
    let r2 := chain.foldl (fun r z => setClaim c z (.reserved t) r) r1
    let r3 := chain.foldl (fun r z => reservedAt c t z r) r2
    openElement c x.head creep (r3.putPresented t none)

/-! ### The latching of the ride stop (R160) -/

/-- Every element closed, every channel retargeted to 0, every pending demand cancelled (R160). -/
def Ride.stopRide (c : Ctx) (r : Ride) : Ride :=
  let r1 := overAll (fun (z : ZoneIx) r => closeElement c z r) r
  let r2 := overAll (fun (i : ChannelIx) r => channelStop c i r) r1
  overAll (fun (st : StationIx) r => stationEvent c st .cancel r) r2

/-- The owners are told where the latch was clear before and is set now (R159). -/
def tellLatched (c : Ctx) (before after : Ride) : Ride :=
  if !before.latched && after.latched then after.stopRide c else after

/-! ### Reconsideration (R29, R32, R33, R115) -/

/-- One train's presentation brought up to date: withdrawn when it ends or changes, and a new chain presented (R32). -/
def reconsiderTrain (c : Ctx) (t : SlotIx) (r : Ride) : Ride :=
  match r.train? t with
  | none => r
  | some x =>
    let wanted := if eligible c r x then prospectiveChain c r x else none
    if r.presented? t = wanted then r
    else
      let r1 := (if (r.presented? t).isSome then withdrawSwitches t r else r).putPresented t wanted
      match wanted with
      | some chain => present c t x chain r1
      | none => r1

/-- One train's chain reserved, where it is presented, the train eligible and every zone available (R33). -/
def reserveIfAvailable (c : Ctx) (t : SlotIx) (r : Ride) : Ride :=
  match r.train? t, r.presented? t with
  | some x, some chain =>
    if eligible c r x && chainAvailable c r t false x.head chain then reserveChain c t chain false r else r
  | _, _ => r

/-- Presentations, then the arbiters with every request present, then reservations (R33, R115). -/
def reconsider (c : Ctx) (r : Ride) : Ride :=
  let r1 := overAll (fun (t : SlotIx) r => reconsiderTrain c t r) r
  let r2 := overAll (fun (w : SwitchIx) r => arbitrate c w r) r1
  overAll (fun (t : SlotIx) r => reserveIfAvailable c t r) r2

/-- What follows a step's own effects, in which the ride went from `before` to `after`: the owners are told of a latch, and
the interlock reconsiders every train; a latch that a release sets is told in turn, and the trains it stops are reconsidered
again. -/
def conclude (c : Ctx) (before after : Ride) : Ride :=
  let r1 := tellLatched c before after
  let r2 := reconsider c r1
  if !r1.latched && r2.latched then reconsider c (r2.stopRide c) else r2

/-- A step's effect on the ride, concluded. -/
def State.onRide (s : State) (f : Ctx → Ride → Ride) : State :=
  { s with ride := conclude s.ctx s.ride (f s.ctx s.ride) }

end Sys2Proof.Machine
end

