-- ==== Sys2Proof/Machine/Timing.lean ====
section
/-! DEFINITION. The transit timer's arithmetic, on whole numbers throughout (R95 to R101, R105). -/

namespace Sys2Proof.Machine

/-- Quotient rounded up. -/
def ceilDiv (a b : Nat) : Nat := (a + (b - 1)) / b

/-- The gate interval: the difference of two stamps, at least 1 and at most 16,777,215 µs (R86). -/
def gateInterval (start stamp : Nat) : Nat := min Config.gateLimit (max 1 (stamp - start))

/-- The speed of a crossing, in mm/s (R96). -/
def crossingSpeed (gate interval : Nat) : Nat := min Config.speedLimit (gate * 1000000 / interval)

/-- The result of the speed window check (R97). -/
inductive WindowResult where
  | overspeed | underspeed | inWindow
deriving DecidableEq, Repr

/-- The speed window of the zone entered (R97). -/
def ZoneDesc.window (d : ZoneDesc) (v : Nat) : WindowResult :=
  if d.maxSpeed ≠ Config.speedLimit ∧ d.maxSpeed < v then .overspeed
  else if d.minSpeed ≠ 0 ∧ v < d.minSpeed then .underspeed
  else .inWindow

/-- The predicted transit over the run length, in ms (R99, stage 1). -/
def predictedTransit (run v : Nat) : Nat := ceilDiv (run * 1000) v

/-- The late bound (R99, stage 2). -/
def lateBound (transit slack margin : Nat) : Nat := ceilDiv (transit * (256 + slack)) 256 + margin

/-- A value brought within two bounds (R99, stage 3). -/
def clampTo (lo hi v : Nat) : Nat := min (max v lo) hi

/-- The early bound as the record keeps it (R100). -/
def earlyBound (transit slack : Nat) : Nat := min Config.earlyLimit (transit * (256 - slack) / 256)

/-- The duration and early bound of the journey deadline at entry (R101). -/
def ZoneDesc.journey (d : ZoneDesc) (run v : Nat) : Nat × Option Nat :=
  match d.transit with
  | .timed => (d.release, none)
  | .predicted =>
    let transit := predictedTransit run v
    (clampTo d.tmin d.tmax (lateBound transit d.slack d.margin), some (earlyBound transit d.slack))

end Sys2Proof.Machine
end

