-- ==== Sys2Proof/Machine/Trains.lean ====
section
/-! DEFINITION. The train table: matching of boundary events (R54 to R56), forward travel (R57 to R59), rest (R62 to R64),
overdue trains (R65, R66), rollback (R67 to R70), and the interlock's settling of a nose crossing (R24 to R28). -/

namespace Sys2Proof.Machine

/-! ### Matching (Table 3-4) -/

/-- The train, not LOST, that meets a condition on its position. -/
def Ride.matching (r : Ride) (p : Train → Bool) : Option (SlotIx × Train) :=
  r.trainsList.find? fun tx => tx.2.phase != .lost && p tx.2

/-- The train whose head zone is `z`. -/
def Ride.headIn (r : Ride) (z : ZoneIx) : Option (SlotIx × Train) := r.matching fun x => x.head == z

/-- The train that straddles a boundary. -/
def Ride.straddling (r : Ride) (bd : BoundaryDesc) : Option (SlotIx × Train) :=
  r.matching fun x => (x.head == bd.up && x.tail == some bd.down) || (x.head == bd.down && x.tail == some bd.up)

/-- A forward event at `bd` is at the exit on the route at which the head zone's diverge switch, if it holds one, stands
locked (R56). -/
def divergeCheck (c : Ctx) (r : Ride) (bd : BoundaryDesc) : Bool :=
  match c.map.divergeAt bd.up with
  | none => true
  | some w =>
    match r.lockOf w with
    | some side => c.map.successor bd.up side == some bd.down
    | none => false

/-- A reverse event at `b` is at the entry on the side at which the head zone's merge switch, if it holds one, stands locked
(R56). -/
def mergeCheck (c : Ctx) (r : Ride) (b : BoundaryIx) (bd : BoundaryDesc) : Bool :=
  match c.map.mergeAt bd.down with
  | none => true
  | some w =>
    match r.lockOf w with
    | some side => c.map.entrySide bd.down b == side
    | none => false

/-! ### LOST, OVERDUE, rest -/

/-- A train goes to LOST (R56). -/
def loseTrain (c : Ctx) (t : SlotIx) (x : Train) (r : Ride) : Ride :=
  ((changeTrain c t x { x with phase := .lost, deadline := none, awaited := none, stepping := false } r).raise .fault).report .lost

/-- A train goes to OVERDUE (R65). -/
def makeOverdue (c : Ctx) (t : SlotIx) (x : Train) (awaited : Awaited) (r : Ride) : Ride :=
  let r1 := changeTrain c t x
    { x with phase := .overdue, deadline := none, awaited := some awaited, overdue := countUp x.overdue } r
  let r2 := addHold c x.head .overdue (r1.raise .overdue)
  if (c.map.zone x.head).any (fun d => d.severity == .stop) then r2.report .overdue else r2

/-- A train comes to rest: HELD, or PARKED on a SPUR, with its chain returned (R62 to R64). -/
def bringToRest (c : Ctx) (t : SlotIx) (x : Train) (r : Ride) : Ride :=
  let phase : TrainPhase := if c.map.isSpur x.head then .parked else .held
  returnChain c t
    (changeTrain c t x { x with phase, deadline := none, awaited := none, dir := .forward, stepping := false } r)

/-- Every zone that meets `p` has its element commanded closed. -/
def closeWhere (c : Ctx) (p : ZoneIx → Bool) (r : Ride) : Ride :=
  overAll (fun (z : ZoneIx) r => if p z then closeElement c z r else r) r

/-- A train that rolls back wholly into one zone settles there: STOPPING in a stopping zone, ROLLBACK against the stop
allowance in a non-stopping one (R70). -/
def settleTrain (c : Ctx) (t : SlotIx) (zone : ZoneIx) (dir : Direction) (stamp : Nat) (r : Ride) : Ride :=
  match r.train? t with
  | none => r
  | some x =>
    changeTrain c t x
      { x with
        phase := if c.map.isStopping zone then .stopping else .rollback
        head := zone
        tail := none
        dir
        awaited := none
        deadline := some (deadlineFrom .stop stamp (c.stopAllowance zone)) } r

/-! ### Chains, guards and crossings (R24 to R28) -/

/-- A zone leaves a train's chain. -/
def dropFromChain (t : SlotIx) (z : ZoneIx) (r : Ride) : Ride :=
  r.onTrain t fun x => { x with chain := x.chain.filter (· ≠ z) }

/-- A train's guard field becomes absent where it names `z`. -/
def dropGuard (t : SlotIx) (z : ZoneIx) (r : Ride) : Ride :=
  r.onTrain t fun x => { x with guard := if x.guard.any (fun g => g.1 = z) then none else x.guard }

/-- A zone returned to RESERVED goes to the front of the chain; a fifth zone leaves at its far end and goes to CLEAR (R26). -/
def reinsert (c : Ctx) (t : SlotIx) (z : ZoneIx) (r : Ride) : Ride :=
  if r.occupant? z ≠ some t then r
  else
    let r1 := setClaim c z (.reserved t) r
    match r1.train? t with
    | none => r1
    | some x =>
      let chain := z :: x.chain
      let r2 := r1.putTrain t { x with chain := chain.take Config.chainLimit }
      match chain[Config.chainLimit]? with
      | some far => if r2.claim? far = some (.reserved t) then setClaim c far .clear r2 else r2
      | none => r2

/-- The guard zone of a train goes to CLEAR and its guard field becomes absent (R27, R28). -/
def releaseGuard (c : Ctx) (t : SlotIx) (r : Ride) : Ride :=
  match r.train? t with
  | none => r
  | some x =>
    match x.guard with
    | none => r
    | some (z, _) =>
      let r1 := r.putTrain t { x with guard := none }
      if r1.claim? z = some (.guarded t) then setClaim c z .clear r1 else r1

/-- A train takes a guard zone, which named it as occupant; an earlier guard goes to CLEAR (R27). -/
def takeGuard (c : Ctx) (t : SlotIx) (z : ZoneIx) (b : BoundaryIx) (r : Ride) : Ride :=
  if r.occupant? z ≠ some t then r
  else (setClaim c z (.guarded t) (releaseGuard c t r)).onTrain t fun x => { x with guard := some (z, b) }

/-- An unreserved entry takes the zone from the train that held it: a chain zone lost closes the element of that train's
head zone (R24, R36). -/
def takeFrom (c : Ctx) (claim : Claim) (z : ZoneIx) (r : Ride) : Ride :=
  match claim with
  | .reserved u =>
    match r.train? u with
    | some x => closeElement c x.head (dropFromChain u z r)
    | none => r
  | .guarded u => dropGuard u z r
  | _ => r

/-- The entry speed of a zone is recorded. -/
def recordEntry (z : ZoneIx) (v : Nat) (r : Ride) : Ride :=
  match r.zone? z with
  | some x => r.putZone z { x with entrySpeed := some v }
  | none => r

/-- The interlock settles a nose crossing of `t` from one zone into another; `none` where the crossing contradicts the zone
left or finds another occupant (R24). -/
def settleCrossing (c : Ctx) (t : SlotIx) (src dst : ZoneIx) (r : Ride) : Option Ride :=
  if r.claim? src ≠ some (.occupied t) then none
  else
    match r.claim? dst with
    | none => none
    | some claim =>
      if claim.occupant.isSome then none
      else if claim.holder = some t then
        some (setClaim c src (.exit t) (setClaim c dst (.entry t) (dropGuard t dst (dropFromChain t dst r))))
      else
        some (setZoneFault c dst .overrun
          (setClaim c src (.exit t) (setClaim c dst (.entry t) (takeFrom c claim dst r))))

/-! ### Forward events -/

/-- An event that matches no train (R55). -/
def unexpected (c : Ctx) (z : ZoneIx) (r : Ride) : Ride := setZoneFault c z .unexpected r

/-- The arrival is early: before the early bound of a journey deadline still running (R105). -/
def arrivesEarly (x : Train) (stamp : Nat) : Bool :=
  match x.deadline with
  | some { kind := .journey, start, early := some e, .. } => decide (stamp - start < e * Config.usPerMs)
  | _ => false

/-- APPROACH (R57, R66). -/
def onApproach (c : Ctx) (bd : BoundaryDesc) (stamp : Nat) (r : Ride) : Ride :=
  match r.headIn bd.up with
  | none => unexpected c bd.up r
  | some (t, x) =>
    if !divergeCheck c r bd then loseTrain c t x r
    else
      match x.phase with
      | .running | .entering =>
        let early := arrivesEarly x stamp
        let r1 := changeTrain c t x
          { x with phase := .leaving, deadline := none, early := if early then countUp x.early else x.early } r
        if early then r1.raise .early else r1
      | .stopping | .rollback =>
        let r1 := (changeTrain c t x { x with phase := .leaving, deadline := none, dir := .forward } r).raise .overrun
        if r1.claim? bd.down = some (.reserved t) then r1 else setZoneFault c bd.down .overrun r1
      | .overdue => changeTrain c t x { x with phase := .leaving, awaited := none } r
      | .held | .parked | .leaving => loseTrain c t x r
      | .lost => r

/-- The position at which the diverge switch a zone holds stands locked. -/
def zoneLock (c : Ctx) (r : Ride) (z : ZoneIx) : Option Side := (c.map.divergeAt z).bind r.lockOf

/-- The record and the timing of a train whose NOSE_IN has been settled (R58, R97, R99 to R101). -/
def entered (c : Ctx) (t : SlotIx) (b : BoundaryIx) (bd : BoundaryDesc) (v stamp : Nat) (r : Ride) : Ride :=
  match r.train? t, c.map.zone bd.down with
  | some x, some d =>
    let run := d.runLength (c.map.mergeAt bd.down).isSome (c.map.divergeAt bd.down).isSome
      (c.map.entrySide bd.down b) (zoneLock c r bd.down)
    let j := d.journey run v
    let r1 := changeTrain c t x
      { x with
        phase := .entering
        head := bd.down
        tail := some bd.up
        dir := .forward
        awaited := none
        lastSpeed := some v
        deadline := some { kind := .journey, start := stamp, duration := j.1, early := j.2 } } r
    let r2 := if d.window v = .inWindow then r1 else setZoneFault c bd.down .speed r1
    match x.guard.bind (fun g => c.map.boundary g.2) with
    | some gd => if gd.down = bd.up then releaseGuard c t r2 else r2
    | none => r2
  | _, _ => r

/-- NOSE_IN (R24, R58). -/
def onNoseIn (c : Ctx) (b : BoundaryIx) (bd : BoundaryDesc) (interval stamp : Nat) (r : Ride) : Ride :=
  match r.headIn bd.up with
  | none => unexpected c bd.down r
  | some (t, x) =>
    if !divergeCheck c r bd then loseTrain c t x r
    else
      let v := crossingSpeed bd.gate interval
      let r1 := recordEntry bd.down v r
      match settleCrossing c t bd.up bd.down r1 with
      | none => loseTrain c t x r1
      | some r2 => entered c t b bd v stamp r2

/-- The zones beside a boundary as a tail clears it forward: the zone behind goes to CLEAR, or becomes the guard (R25, R27). -/
def clearBehind (c : Ctx) (t : SlotIx) (b : BoundaryIx) (bd : BoundaryDesc) (r : Ride) : Ride :=
  setClaimOf c t bd.down (.occupied t)
    (if bd.rollback then takeGuard c t bd.up b r else setClaimOf c t bd.up .clear r)

/-- The element of the zone is OPEN. -/
def Ride.elementOpen (r : Ride) (z : ZoneIx) : Bool :=
  match r.element? z with
  | some (.brake .opened _) | some (.drive .opened _) => true
  | _ => false

/-- TAIL_CLEAR (R59, R70). -/
def onTailClear (c : Ctx) (b : BoundaryIx) (bd : BoundaryDesc) (stamp : Nat) (r : Ride) : Ride :=
  match r.straddling bd with
  | none => unexpected c bd.down r
  | some (t, _) =>
    let r1 := closeElement c bd.up (clearBehind c t b bd r)
    match r1.train? t with
    | none => r1
    | some x =>
      let moved : Train := { x with head := bd.down, tail := none }
      match x.phase with
      | .entering =>
        if c.map.isNonStopping bd.down || r1.elementOpen bd.down then changeTrain c t x { moved with phase := .running } r1
        else
          changeTrain c t x
            { moved with phase := .stopping, deadline := some (deadlineFrom .stop stamp (c.stopAllowance bd.down)) } r1
      | .rollback => settleTrain c t bd.down .forward stamp r1
      | _ => changeTrain c t x moved r1

/-! ### Rollback -/

/-- RETREAT, NOSE_BACK and BACKING: the train goes to ROLLBACK at its new position, its elements are commanded closed, its
head zone is held and an unguarded rollback stops the ride (R67). `was` tells the zones that named the train as the event
arrived. -/
def rollBack (c : Ctx) (t : SlotIx) (bd : BoundaryDesc) (head : ZoneIx) (tail : Option ZoneIx) (was : ZoneIx → Bool)
    (r : Ride) : Ride :=
  match r.train? t with
  | none => r
  | some x =>
    let r1 := changeTrain c t x
      { x with phase := .rollback, head, tail, dir := .reverse, deadline := none, awaited := none } r
    let r2 := addHold c head .rollback r1
    let r3 := (closeWhere c (fun z => was z || r2.occupant? z == some t) r2).raise .rollback
    if bd.rollback then r3 else r3.report .rollbackUnguarded

/-- RETREAT (R67, R70). -/
def onRetreat (c : Ctx) (bd : BoundaryDesc) (stamp : Nat) (r : Ride) : Ride :=
  match r.headIn bd.up with
  | none => unexpected c bd.up r
  | some (t, x) =>
    if !divergeCheck c r bd then loseTrain c t x r
    else
      settleTrain c t bd.up .reverse stamp
        (rollBack c t bd bd.up none (fun z => r.occupant? z == some t) r)

/-- NOSE_BACK (R25, R26, R67). -/
def onNoseBack (c : Ctx) (bd : BoundaryDesc) (r : Ride) : Ride :=
  match r.straddling bd with
  | none => unexpected c bd.down r
  | some (t, _) =>
    rollBack c t bd bd.up none (fun z => r.occupant? z == some t)
      (reinsert c t bd.down (setClaimOf c t bd.up (.occupied t) r))

/-- BACKING (R25, R67). -/
def onBacking (c : Ctx) (bd : BoundaryDesc) (r : Ride) : Ride :=
  match r.straddling bd with
  | none => unexpected c bd.up r
  | some (t, _) =>
    rollBack c t bd bd.up (some bd.down) (fun z => r.occupant? z == some t)
      (setClaimOf c t bd.down (.exit t) (setClaimOf c t bd.up (.entry t) r))

/-- R_APPROACH (R68). -/
def onReverseApproach (c : Ctx) (b : BoundaryIx) (bd : BoundaryDesc) (r : Ride) : Ride :=
  match r.headIn bd.down with
  | none => unexpected c bd.down r
  | some (t, x) =>
    if x.phase = .held ∨ x.phase = .parked ∨ mergeCheck c r b bd = false then loseTrain c t x r
    else
      let r1 := changeTrain c t x { x with phase := .rollback, dir := .reverse, deadline := none, awaited := none } r
      (closeWhere c (fun z => r1.occupant? z == some t) r1).raise .rollback

/-- A reverse crossing leaves the train in ROLLBACK at its new position; one not in ROLLBACK before enters it, which closes
the element of every zone that names it (R36, R69). -/
def crossReverse (c : Ctx) (t : SlotIx) (head : ZoneIx) (tail : Option ZoneIx) (dir : Direction) (speed : Option Nat)
    (r : Ride) : Ride :=
  match r.train? t with
  | none => r
  | some x =>
    let r1 := changeTrain c t x
      { x with
        phase := .rollback, head, tail, dir, deadline := none, awaited := none
        lastSpeed := match speed with | some v => some v | none => x.lastSpeed } r
    if x.phase = .rollback then r1 else closeWhere c (fun z => r1.occupant? z == some t) r1

/-- R_NOSE_IN (R24, R69). That a crossing which makes the train LOST adds no ROLLBACK hold is the model's choice (assumption
log 24). -/
def onReverseNoseIn (c : Ctx) (b : BoundaryIx) (bd : BoundaryDesc) (interval : Nat) (r : Ride) : Ride :=
  match r.headIn bd.down with
  | none => unexpected c bd.up r
  | some (t, x) =>
    if !mergeCheck c r b bd then loseTrain c t x r
    else
      let v := crossingSpeed bd.gate interval
      let r1 := recordEntry bd.up v r
      match settleCrossing c t bd.down bd.up r1 with
      | none => loseTrain c t x r1
      | some r2 => addHold c bd.up .rollback (crossReverse c t bd.up (some bd.down) .reverse (some v) r2)

/-- R_NOSE_BACK (R25, R27, R69). -/
def onReverseNoseBack (c : Ctx) (b : BoundaryIx) (bd : BoundaryDesc) (r : Ride) : Ride :=
  match r.straddling bd with
  | none => unexpected c bd.up r
  | some (t, _) =>
    crossReverse c t bd.down none .forward none
      (setClaimOf c t bd.down (.occupied t) (takeGuard c t bd.up b r))

/-- R_BACKING (R25, R69). -/
def onReverseBacking (c : Ctx) (bd : BoundaryDesc) (r : Ride) : Ride :=
  match r.straddling bd with
  | none => unexpected c bd.down r
  | some (t, _) =>
    crossReverse c t bd.down (some bd.up) .forward none
      (setClaimOf c t bd.down (.entry t) (setClaimOf c t bd.up (.exit t) r))

/-- R_RETREAT settles a train in ROLLBACK or OVERDUE (R70). -/
def onReverseRetreat (c : Ctx) (b : BoundaryIx) (bd : BoundaryDesc) (stamp : Nat) (r : Ride) : Ride :=
  match r.headIn bd.down with
  | none => unexpected c bd.down r
  | some (t, x) =>
    if !mergeCheck c r b bd then loseTrain c t x r
    else if x.phase = .rollback ∨ x.phase = .overdue then settleTrain c t bd.down .forward stamp r
    else r

/-- R_TAIL_CLEAR (R25, R26, R36, R70). -/
def onReverseTailClear (c : Ctx) (bd : BoundaryDesc) (stamp : Nat) (r : Ride) : Ride :=
  match r.straddling bd with
  | none => unexpected c bd.up r
  | some (t, _) =>
    let r1 := closeElement c bd.down (reinsert c t bd.down (setClaimOf c t bd.up (.occupied t) r))
    match r1.train? t with
    | none => r1
    | some x =>
      if x.phase = .rollback ∨ x.phase = .overdue then settleTrain c t bd.up .reverse stamp r1
      else changeTrain c t x { x with head := bd.up, tail := none } r1

/-! ### Berths, stalls and deadlines -/

/-- A berth sensor of zone `z` is covered (R54, R62). -/
def onBerth (c : Ctx) (z : ZoneIx) (r : Ride) : Ride :=
  match r.matching fun x => x.head == z && x.tail.isNone with
  | none => r
  | some (t, x) =>
    if c.map.isStopping z &&
        (x.phase == .stopping || x.phase == .rollback || (x.phase == .overdue && x.awaited == some .berth)) then
      bringToRest c t x r
    else r

/-- A gate stall reported for a boundary with the direction it holds (R54, R55, R65). -/
def onStall (c : Ctx) (bd : BoundaryDesc) (dir : Direction) (r : Ride) : Ride :=
  let z := match dir with | .forward => bd.up | .reverse => bd.down
  match r.headIn z with
  | none => unexpected c z r
  | some (t, x) => makeOverdue c t x .noseIn r

/-- A JOURNEY deadline runs out under an ENTERING or RUNNING train (R53, R65). -/
def onJourneyExpiry (c : Ctx) (t : SlotIx) (r : Ride) : Ride :=
  match r.train? t with
  | none => r
  | some x =>
    match x.deadline with
    | some d =>
      if d.kind = .journey ∧ (x.phase = .entering ∨ x.phase = .running) then
        makeOverdue c t x .approach r
      else r
    | none => r

/-- A STOP deadline runs out: a STOPPING train is at rest where the zone has no berth sensor and OVERDUE where it has one; a
train in ROLLBACK is OVERDUE (R63, R65). -/
def onStopExpiry (c : Ctx) (t : SlotIx) (r : Ride) : Ride :=
  match r.train? t with
  | none => r
  | some x =>
    match x.deadline with
    | some d =>
      if d.kind = .stop then
        match x.phase with
        | .stopping =>
          if (c.map.zone x.head).any (fun zd => zd.berth.isSome) then makeOverdue c t x .berth r
          else bringToRest c t x r
        | .rollback => makeOverdue c t x .noseIn r
        | _ => r
      else r
    | none => r

end Sys2Proof.Machine
end

