-- ==== Sys2Proof/Machine/Passage.lean ====
section
/-! DEFINITION. The passage unit: the track sensor filter (R78 to R81), the passage machine (R82 to R86), gate stall (R87),
boundary faults (R88, R89) and the handing of events to the train table. -/

namespace Sys2Proof.Machine

/-- The sensors of a boundary. -/
inductive GateSensor where
  | u | d
deriving DecidableEq, Repr

/-- What a passage reports (Tables 4-2 and 4-3). -/
inductive PassageEvent where
  | approach (dir : Direction)
  | retreat (dir : Direction)
  | noseIn (dir : Direction) (interval : Nat)
  | noseBack (dir : Direction)
  | backing (dir : Direction)
  | tailClear (dir : Direction)
  /-- the boundary enters FAULT -/
  | faulted
deriving DecidableEq, Repr

/-- The first sensor of a passage (R82). -/
def Direction.first : Direction → GateSensor
  | .forward => .u
  | .reverse => .d

/-- An edge at a boundary: the new passage state and what it reports (R83, R84, R86, R89). -/
def Passage.edge (p : Passage) (rollback : Bool) (sensor : GateSensor) (rising : Bool) (stamp : Nat) :
    Passage × Option PassageEvent :=
  match p with
  | .clear =>
    if !rising then (.clear, none)
    else match sensor with
      | .u => (.entering .forward stamp, some (.approach .forward))
      | .d =>
        if rollback then (.entering .reverse stamp, some (.approach .reverse))
        else (.fault .reverseUnexpected, some .faulted)
  | .entering dir start =>
    if sensor = dir.first then if rising then (.entering dir start, none) else (.clear, some (.retreat dir))
    else if rising then (.spanning dir, some (.noseIn dir (gateInterval start stamp)))
    else (.entering dir start, none)
  | .spanning dir =>
    if rising then (.spanning dir, none)
    else if sensor = dir.first then (.leaving dir, none)
    else (.entering dir stamp, some (.noseBack dir))
  | .leaving dir =>
    if sensor = dir.first then if rising then (.spanning dir, some (.backing dir)) else (.leaving dir, none)
    else if rising then (.leaving dir, none)
    else (.clear, some (.tailClear dir))
  | .fault cause => (.fault cause, none)

/-- The record of a boundary after an edge: stall reported returns to no on entering ENTERING and in FAULT, and a nose
crossing records its interval (R84, R86, R87, R88). -/
def BoundaryRec.edge (x : BoundaryRec) (rollback : Bool) (sensor : GateSensor) (rising : Bool) (stamp : Nat) :
    BoundaryRec × Option PassageEvent :=
  let res := x.passage.edge rollback sensor rising stamp
  let stalled := match res.2 with
    | some (.approach _) | some (.noseBack _) | some .faulted => false
    | _ => x.stalled
  let interval := match res.2 with
    | some (.noseIn _ dt) => some dt
    | _ => x.lastInterval
  ({ passage := res.1, stalled, lastInterval := interval }, res.2)

/-- A boundary in FAULT is reported: fault cause BOUNDARY on both its zones, and the ride stop cause (R88). -/
def boundaryFaulted (c : Ctx) (bd : BoundaryDesc) (r : Ride) : Ride :=
  (setZoneFault c bd.down .boundary (setZoneFault c bd.up .boundary r)).report .boundaryFault

/-- A boundary event is handed to the train table (R85). -/
def handEvent (c : Ctx) (b : BoundaryIx) (bd : BoundaryDesc) (stamp : Nat) (e : PassageEvent) (r : Ride) : Ride :=
  match e with
  | .approach .forward => onApproach c bd stamp r
  | .retreat .forward => onRetreat c bd stamp r
  | .noseIn .forward interval => onNoseIn c b bd interval stamp r
  | .noseBack .forward => onNoseBack c bd r
  | .backing .forward => onBacking c bd r
  | .tailClear .forward => onTailClear c b bd stamp r
  | .approach .reverse => onReverseApproach c b bd r
  | .retreat .reverse => onReverseRetreat c b bd stamp r
  | .noseIn .reverse interval => onReverseNoseIn c b bd interval r
  | .noseBack .reverse => onReverseNoseBack c b bd r
  | .backing .reverse => onReverseBacking c bd r
  | .tailClear .reverse => onReverseTailClear c bd stamp r
  | .faulted => boundaryFaulted c bd r

/-! ### Edges -/

/-- The boundary a line serves, and as which sensor (R77). -/
def CircuitMap.gateOf (m : CircuitMap) (line : SensorLine) : Option (BoundaryIx × BoundaryDesc × GateSensor) :=
  (List.finRange 52).findSome? fun b =>
    (m.boundary b).bind fun d =>
      if d.uLine = line then some (b, d, .u) else if d.dLine = line then some (b, d, .d) else none

/-- The zone whose berth sensor a line is (R77). -/
def CircuitMap.berthOf (m : CircuitMap) (line : SensorLine) : Option ZoneIx :=
  (List.finRange 48).find? fun z => (m.zone z).any fun d => d.berth == some line

/-- An edge on a boundary's line takes its passage machine one transition, and the event it reports is handled. -/
def takeGateEdge (b : BoundaryIx) (d : BoundaryDesc) (sensor : GateSensor) (rising : Bool) (stamp : Nat) (s : State) :
    State :=
  match tget s.bounds b with
  | none => s
  | some x =>
    let res := x.edge d.rollback sensor rising stamp
    let s1 := { s with bounds := tput s.bounds b (some res.1) }
    match res.2 with
    | none => s1
    | some e => s1.onRide fun c r => handEvent c b d stamp e r

/-- An edge of a line, by the use the map makes of the line (R77, R80, R84). -/
def takeEdge (line : SensorLine) (rising : Bool) (stamp : Nat) (s : State) : State :=
  match s.map.gateOf line with
  | some (b, d, sensor) => takeGateEdge b d sensor rising stamp s
  | none =>
    match s.map.berthOf line with
    | some z => if rising then s.onRide fun c r => onBerth c z r else s
    | none => s

/-! ### The filter (R78, R79) -/

/-- The filter time F in µs (R11). -/
def State.filterTime (s : State) : Nat := ((s.map.circuit.map (·.filterTime)).getD 0) * Config.usPerMs

/-- The pending change of a line, where one is in progress. -/
def Sensors.change? (x : Sensors) (line : SensorLine) : Option Nat :=
  (x.changes.find? fun p => p.1 = line).map (·.2)

/-- The pending change of a line becomes an edge (R78). -/
def produceEdge (line : SensorLine) (stamp : Nat) (s : State) : State :=
  let rising := !tget s.sensors.covered line
  takeEdge line rising stamp
    { s with
      sensors := { s.sensors with
        covered := tput s.sensors.covered line rising
        changes := s.sensors.changes.filter fun p => p.1 ≠ line } }

/-- The pending changes at the front of the list, up to that of `line`, become edges in their order (R79). -/
def produceThrough (line : SensorLine) : List (SensorLine × Nat) → State → State
  | [], s => s
  | (l, stamp) :: rest, s => if l = line then produceEdge l stamp s else produceThrough line rest (produceEdge l stamp s)

/-- The filter's part in a raw change to `high` (R78): the change starts, or the pending one is discarded. A pending change that
has already held for F is an edge first; with F at 0 the change is an edge at once. -/
def filterChange (line : SensorLine) (high : Bool) (s : State) : State :=
  let s0 := match s.sensors.change? line with
    | some stamp => if stamp + s.filterTime ≤ s.now then produceThrough line s.sensors.changes s else s
    | none => s
  let s1 := { s0 with sensors := { s0.sensors with high := tput s0.sensors.high line high } }
  if tget s1.sensors.covered line = !high then
    { s1 with sensors := { s1.sensors with changes := s1.sensors.changes.filter fun p => p.1 ≠ line } }
  else
    let s2 := { s1 with sensors := { s1.sensors with changes := s1.sensors.changes ++ [(line, s1.now)] } }
    if s2.filterTime = 0 then produceEdge line s2.now s2 else s2

/-- A raw level change on a track sensor line (R78, R81). -/
def rawSensorChange (line : SensorLine) (high : Bool) (s : State) : State :=
  if tget s.sensors.high line = high then s
  else match s.sensors.phase with
    | .running => filterChange line high s
    | _ => { s with sensors := { s.sensors with high := tput s.sensors.high line high } }

/-- The pending change of a line, where it has held for F and no change of an earlier stamp waits (R78, R79). -/
def dueEdge (line : SensorLine) (s : State) : Option Nat :=
  match s.sensors.phase, s.sensors.change? line with
  | .running, some stamp =>
    if stamp + s.filterTime ≤ s.now ∧ s.sensors.changes.all (fun p => decide (stamp ≤ p.2)) then some stamp else none
  | _, _ => none

/-- The edge of a line is taken, where one is due. -/
def takeDueEdge (line : SensorLine) (s : State) : State :=
  match dueEdge line s with
  | some stamp => produceEdge line stamp s
  | none => s

/-! ### Derivation and stall -/

/-- The record of a boundary derived from the levels of its lines (R91). -/
def derivedBoundary (covered : Bool) : BoundaryRec :=
  { passage := if covered then .fault .coveredAtStart else .clear, stalled := false, lastInterval := none }

/-- Either line of a boundary reads covered. -/
def BoundaryDesc.covered (d : BoundaryDesc) (levels : Vector Bool 128) : Bool := tget levels d.uLine || tget levels d.dLine

/-- F after a map is taken up the filtered levels are set and every boundary is derived; each found covered is reported as a
boundary fault (R81, R91). -/
def startTrackFilter (s : State) : State :=
  match s.sensors.phase with
  | .waiting due =>
    if due ≤ s.now then
      let levels : Vector Bool 128 := tgen fun l => !tget s.sensors.high l
      let s1 := { s with
        sensors := { s.sensors with covered := levels, changes := [], phase := .running }
        bounds := tgen fun b => (s.map.boundary b).map fun (d : BoundaryDesc) => derivedBoundary (d.covered levels) }
      s1.onRide fun c r =>
        overAll (fun (b : BoundaryIx) r =>
          match c.map.boundary b with
          | some d => if d.covered levels then boundaryFaulted c d r else r
          | none => r) r
    else s
  | _ => s

/-- A boundary that has been in ENTERING for the gate limit reports GATE_STALL, once for each stay (R87). -/
def reportStall (b : BoundaryIx) (s : State) : State :=
  match tget s.bounds b, s.map.boundary b with
  | some x, some d =>
    match x.passage with
    | .entering dir start =>
      if x.stalled = false ∧ start + Config.gateLimit ≤ s.now then
        ({ s with bounds := tput s.bounds b (some { x with stalled := true }) }).onRide fun c r => onStall c d dir r
      else s
    | _ => s
  | _, _ => s

end Sys2Proof.Machine
end

