-- ==== Sys2Proof/Machine/Inputs.lean ====
section
/-! DEFINITION. Function inputs: their filter (R141), what each function does with a taken change (R38, R143, R144, R146,
R147), and the setting of the levels 20 ms after a map is taken up (R142); and the proof lines (R125). -/

namespace Sys2Proof.Machine

/-! ### Taken changes -/

/-- A restraint or gate input of a station changes: both proofs are active now, or one has become inactive (R144, R146). -/
def proofInputChange (c : Ctx) (st : StationIx) (on : Bool) (r : Ride) : Ride :=
  if on then if c.stationProofs st then stationEvent c st .proofsMade r else r
  else stationEvent c st .proofLost r

/-- What a change of an input's active level does, by the input's function; `c` reads the inputs after the change. -/
def functionChange (c : Ctx) (f : InputFunction) (on : Bool) (r : Ride) : Ride :=
  match f with
  | .none => r
  | .estop => if on then r.report .estop else r
  | .zoneHold z =>
    if on then addHold c z .input r else if c.anyActive (.zoneHold z) then r else removeHold z .input r
  | .dispatchA st => pairingChange c st .a on r
  | .dispatchB st => pairingChange c st .b on r
  | .restraint st | .gate st => proofInputChange c st on r

/-- The filtered level of input `i` becomes `high`, and its pending change is gone. -/
def Inputs.settle (x : Inputs) (i : InputIx) (high : Bool) : Inputs :=
  { x with filtered := tput x.filtered i high, changes := tput x.changes i none }

/-- A change of a configured input is taken (R141). -/
def takeInputChange (i : InputIx) (d : InputDesc) (high : Bool) (s : State) : State :=
  ({ s with inputs := s.inputs.settle i high }).onRide fun c r => functionChange c d.function (high == d.activeHigh) r

/-! ### The filter (R141) -/

/-- The pending change of an input has held for 20 ms. -/
def inputDue (i : InputIx) (s : State) : Bool :=
  match tget s.inputs.changes i with
  | some start => decide (start + Config.inputFilter ≤ s.now)
  | none => false

/-- The pending change of input `i` is taken, where it is due. -/
def takeDueInput (i : InputIx) (s : State) : State :=
  match s.inputs.phase, s.map.input i with
  | .running, some d => if inputDue i s then takeInputChange i d (!tget s.inputs.filtered i) s else s
  | _, _ => s

/-- The filter's part in a raw change of input `i` to `high`: taken at once with the filter OFF; with it ON, the change starts
to hold, or the pending one is discarded. -/
def filterInput (i : InputIx) (d : InputDesc) (high : Bool) (s : State) : State :=
  if !d.filtered then takeInputChange i d high s
  else
    { s with inputs := { s.inputs with
        changes := tput s.inputs.changes i (if tget s.inputs.filtered i = high then none else some s.now) } }

/-- A raw level change on a function input line (R141, R142). A pending change that has already held for 20 ms is taken
first. -/
def rawInputChange (i : InputIx) (high : Bool) (s : State) : State :=
  if tget s.inputs.high i = high then s
  else
    let s0 := takeDueInput i s
    let s1 := { s0 with inputs := { s0.inputs with high := tput s0.inputs.high i high } }
    match s1.inputs.phase, s1.map.input i with
    | .running, some d => filterInput i d high s1
    | _, _ => s1

/-! ### The levels set after a take-up (R142) -/

/-- The function inputs with every configured input's filtered level at its raw level, changes taken from now on. -/
def Inputs.started (m : CircuitMap) (x : Inputs) : Inputs :=
  { x with
    filtered := tgen fun i => (m.input i).isSome && tget x.high i
    changes := Vector.replicate 16 none
    phase := .running }

/-- What one input's level implies as the levels are set: an INPUT hold source, or the ride stop cause ESTOP. -/
def inputFound (c : Ctx) (i : InputIx) (r : Ride) : Ride :=
  match c.map.input i with
  | some { function := .zoneHold z, .. } => if c.active i then addHold c z .input r else r
  | some { function := .estop, .. } => if c.active i then r.report .estop else r
  | _ => r

/-- A station's pairing as the levels are set (R142). -/
def pairingFound (c : Ctx) (d : StationDesc) : Pairing :=
  if d.authority = .link then .armed
  else if c.active d.dispatchA || c.active d.dispatchB then .spent else .armed

/-- One station as the levels are set: its pairing, and its proofs. -/
def stationFound (c : Ctx) (st : StationIx) (r : Ride) : Ride :=
  match r.station? st, c.map.station st with
  | some x, some d =>
    let r1 := r.putStation st { x with pairing := pairingFound c d }
    if c.stationProofs st then stationEvent c st .proofsMade r1 else r1
  | _, _ => r

/-- 20 ms after the take-up the levels are set and what they imply is handed on (R142). -/
def startInputs (s : State) : State :=
  match s.inputs.phase with
  | .waiting due =>
    if due ≤ s.now then
      ({ s with inputs := s.inputs.started s.map }).onRide fun c r =>
        overAll (fun (st : StationIx) r => stationFound c st r) (overAll (fun (i : InputIx) r => inputFound c i r) r)
    else s
  | _ => s

/-! ### Proof lines (R125) -/

/-- The zone whose brake uses a proof line. -/
def CircuitMap.brakeOf (m : CircuitMap) (line : ProofLine) : Option ZoneIx :=
  (List.finRange 48).find? fun z => (m.zone z).any fun d => d.proofLines.contains line

/-- The switch that uses a proof line. -/
def CircuitMap.switchOf (m : CircuitMap) (line : ProofLine) : Option (SwitchIx × SwitchDesc) :=
  (List.finRange 4).findSome? fun w =>
    (m.switch w).bind fun d => if d.proofA = line ∨ d.proofB = line then some (w, d) else none

/-- A taken change of a proof line reaches the element or the switch that uses it. -/
def proofTaken (c : Ctx) (line : ProofLine) (r : Ride) : Ride :=
  match c.map.brakeOf line with
  | some z => brakeProofChange c z r
  | none =>
    match c.map.switchOf line with
    | some (w, d) => switchProofChange c w (c.proof d.proofA) (c.proof d.proofB) r
    | none => r

/-- A change of level on a proof line. Without a map in use the blocks hold no records and none is reached. -/
def proofLineChange (line : ProofLine) (high : Bool) (s : State) : State :=
  if tget s.proofs line = high then s
  else ({ s with proofs := tput s.proofs line high }).onRide fun c r => proofTaken c line r

end Sys2Proof.Machine
end

