-- ==== Sys2Proof/Machine/TakeUp.lean ====
section
/-! DEFINITION. Taking up a validated map (R23, R81, R109, R127, R138, R142, R156), putting it away (R157), the start-up
reset (R179), and the image's check and load (R180, R181). -/

namespace Sys2Proof.Machine

/-! ### Records built afresh -/

/-- A zone record at a take-up (R23). -/
def ZoneRec.fresh : ZoneRec := { claim := .clear, holds := 0#4, fault := none, entrySpeed := none }

/-- The DRIVE zone that names a channel (R138). -/
def CircuitMap.driveZone (m : CircuitMap) (ch : ChannelIx) : Option ZoneIx :=
  (List.finRange 48).find? fun z => (m.zone z).any fun d => d.element == .drive ch

/-- An element record at a take-up, before a brake's levels are applied (R127). -/
def freshElement (c : Ctx) (z : ZoneIx) : Option Element :=
  match c.map.elementAt z with
  | .brake _ _ _ => some (.brake (.closing (c.proofDue z)) .close)
  | .drive _ => some (.drive .closed .close)
  | .none => none

/-- A switch's position derived from its proof levels (R109). -/
def derivedPos (a b : Bool) : SwitchPos :=
  match a, b with
  | true, false => .locked .a
  | false, true => .locked .b
  | false, false => .fault .noPosition
  | true, true => .fault .proofConflict

/-- A switch record at a take-up (R109). -/
def freshSwitch (c : Ctx) (d : SwitchDesc) : SwitchRec :=
  { pos := derivedPos (c.proof d.proofA) (c.proof d.proofB)
    pending := none
    committed := none
    role := match d.kind with
      | .diverge _ => .diverge none .b
      | .merge => .merge none none .idle .b }

/-- A switch placed in FAULT at a take-up has the effects of R111. -/
def reportFreshSwitch (w : SwitchIx) (r : Ride) : Ride :=
  match r.switch? w with
  | some { pos := .fault _, .. } => (r.raise .fault).report .switchFault
  | _ => r

/-- The records of the ride built from the map and the lines, with what each block reports as it builds its own. -/
def takeUpRide (c : Ctx) (r : Ride) : Ride :=
  let r1 : Ride :=
    { zones := tgen fun z => (c.map.zone z).map fun _ => ZoneRec.fresh
      presented := Vector.replicate 16 none
      trains := Vector.replicate 16 none
      elements := tgen fun z => freshElement c z
      channels := tgen fun ch => (c.map.drive ch).map fun _ =>
        ({ code := 0, target := 0, stepDue := none, zone := c.map.driveZone ch } : Channel)
      switches := tgen fun w => (c.map.switch w).map fun d => freshSwitch c d
      stations := tgen fun st => (c.map.station st).map fun _ => ({ state := .empty, pairing := .spent } : StationRec)
      causes := r.causes
      notices := r.notices }
  let r2 := overAll (fun (z : ZoneIx) r => brakeProofChange c z r) r1
  overAll (fun (w : SwitchIx) r => reportFreshSwitch w r) r2

/-- The sensor filter from the moment a map is taken up (R81). -/
def Sensors.takenUp (x : Sensors) (due : Nat) : Sensors :=
  { high := x.high, covered := Vector.replicate 128 false, changes := [], phase := .waiting due }

/-- The function inputs from the moment a map is taken up (R142). -/
def Inputs.takenUp (x : Inputs) (due : Nat) : Inputs :=
  { high := x.high, filtered := Vector.replicate 16 false, changes := Vector.replicate 16 none, phase := .waiting due }

/-- The working map becomes the map in use in MAINTENANCE, and each block takes it up (R156). -/
def takeUp (s : State) : State :=
  ({ s with
    mode := .maintenance
    sensors := s.sensors.takenUp (s.now + s.filterTime)
    bounds := Vector.replicate 52 none
    inputs := s.inputs.takenUp (s.now + Config.inputFilter)
    selection := none }).onRide takeUpRide

/-! ### Putting the map away, and the start-up reset -/

/-- The sensor lines with the filter stopped; the raw levels are the pins'. -/
def Sensors.stopped (x : Sensors) : Sensors :=
  { high := x.high, covered := Vector.replicate 128 false, changes := [], phase := .off }

/-- The function inputs with no change taken; the raw levels are the pins'. -/
def Inputs.stopped (x : Inputs) : Inputs :=
  { high := x.high, filtered := Vector.replicate 16 false, changes := Vector.replicate 16 none, phase := .off }

/-- Every record of the ride discarded; the causes and notices stand. -/
def Ride.bare (r : Ride) : Ride := { Ride.reset with causes := r.causes, notices := r.notices }

/-- The map in use is put away on entering CONFIG, and stop control latches with START (R157). -/
def putAway (s : State) : State :=
  { s with
    mode := .config
    sensors := s.sensors.stopped
    bounds := Vector.replicate 52 none
    inputs := s.inputs.stopped
    selection := none
    ride := s.ride.bare.report .start }

/-- An image whose writing is cut off is INVALID (R180, R183). -/
def State.imageAfterCut (s : State) : Image := if s.storing.isSome then { s.image with condition := .invalid } else s.image

/-- A start-up reset: the live state is discarded; the image, the time base and the pins stand (R179). -/
def startUpReset (s : State) : State :=
  { s with
    map := CircuitMap.vacant
    image := s.imageAfterCut
    storing := none
    report := Report.notRun
    mode := .loading
    sensors := s.sensors.stopped
    bounds := Vector.replicate 52 none
    inputs := s.inputs.stopped
    selection := none
    ride := Ride.reset
    link := .released
    dataOut := [] }

/-! ### The image (R180, R181) -/

/-- The CRC-32 of a content under a format version. -/
def imageCrc (version : Nat) (m : CircuitMap) : BitVec 32 := crc32 (imageBytes version m)

/-- The image passes its check (R180). -/
def Image.sound (x : Image) : Bool :=
  x.condition == .valid && x.version == Config.formatVersion && x.crc == imageCrc x.version x.content

/-- The image a completed store leaves (R183). -/
def Image.written (m : CircuitMap) : Image :=
  { condition := .valid, version := Config.formatVersion, content := m, crc := imageCrc Config.formatVersion m }

/-- A load step fails: the part comes up in CONFIG with an empty map and tells the host (R181). -/
def loadFails (report : Report) (s : State) : State :=
  { s with map := CircuitMap.vacant, report, mode := .config, ride := s.ride.raise .loadFailed }

/-- The load: image check, validation, installation (R181). -/
def loadImage (s : State) : State :=
  if s.image.sound then
    let report := s.image.content.validate
    if report.outcome = .pass then takeUp { s with map := s.image.content, report } else loadFails report s
  else loadFails Report.notRun s

end Sys2Proof.Machine
end

