-- ==== Sys2Proof/Machine/Events.lean ====
section
/-! DEFINITION. The events of the lines and the timers: track sensors (R78 to R81, R87), deadlines (R63, R65), proofs and
their timers (R110, R111, R129, R130), drive steps (R135), function inputs (R141, R142) and the stations' windows and waits
(R147, R150). A timer's event has no effect before its timer is due. -/

namespace Sys2Proof.Machine

/-- The time has come. -/
def State.reached (s : State) (due : Nat) : Bool := decide (due ≤ s.now)

/-- An effect on the ride that a condition guards. -/
def State.onRideIf (s : State) (cond : Bool) (f : Ctx → Ride → Ride) : State := if cond then s.onRide f else s

/-! ### Track sensors -/

/-- A raw change on a track sensor line (R78). -/
def execTrackSensorRawChange (dt : Nat) (line : SensorLine) (high : Bool) (s : State) : Host.Outcome State Fault Refusal :=
  .next (rawSensorChange line high (s.advance dt))

/-- A pending change that has held for F becomes an edge (R78). -/
def execTrackSensorEdge (dt : Nat) (line : SensorLine) (s : State) : Host.Outcome State Fault Refusal :=
  .next (takeDueEdge line (s.advance dt))

/-- The filtered levels of the track sensors are set (R81, R91). -/
def execTrackFilterStart (dt : Nat) (s : State) : Host.Outcome State Fault Refusal := .next (startTrackFilter (s.advance dt))

/-- A gate stall (R87). -/
def execGateStall (dt : Nat) (b : BoundaryIx) (s : State) : Host.Outcome State Fault Refusal :=
  .next (reportStall b (s.advance dt))

/-! ### Deadlines -/

/-- The deadline of the train in slot `t` has expired (R104). -/
def State.deadlineDue (s : State) (t : SlotIx) : Bool :=
  (s.ride.train? t).any fun x => x.deadline.any fun d => s.reached d.due

/-- A journey deadline expires. -/
def State.journeyExpires (s : State) (t : SlotIx) : State := s.onRideIf (s.deadlineDue t) fun c r => onJourneyExpiry c t r

/-- A journey deadline expires (R65). -/
def execJourneyDeadlineExpiry (dt : Nat) (t : SlotIx) (s : State) : Host.Outcome State Fault Refusal :=
  .next ((s.advance dt).journeyExpires t)

/-- A stop deadline expires. -/
def State.stopExpires (s : State) (t : SlotIx) : State := s.onRideIf (s.deadlineDue t) fun c r => onStopExpiry c t r

/-- A stop deadline expires (R63, R65). -/
def execStopDeadlineExpiry (dt : Nat) (t : SlotIx) (s : State) : Host.Outcome State Fault Refusal :=
  .next ((s.advance dt).stopExpires t)

/-! ### Proofs, moves and drive steps -/

/-- A change on a brake's proof line (R129). -/
def execBrakeProofChange (dt : Nat) (line : ProofLine) (high : Bool) (s : State) : Host.Outcome State Fault Refusal :=
  .next (proofLineChange line high (s.advance dt))

/-- A brake's proof timer runs out. -/
def State.proofExpires (s : State) (z : ZoneIx) : State :=
  s.onRideIf ((s.ride.element? z).any fun e => e.timerDue.any s.reached) fun c r => proofExpiry c z r

/-- A brake's proof timer runs out (R130). -/
def execProofTimerExpiry (dt : Nat) (z : ZoneIx) (s : State) : Host.Outcome State Fault Refusal :=
  .next ((s.advance dt).proofExpires z)

/-- A change on a switch's proof line (R110, R111). -/
def execSwitchProofChange (dt : Nat) (line : ProofLine) (high : Bool) (s : State) : Host.Outcome State Fault Refusal :=
  .next (proofLineChange line high (s.advance dt))

/-- A move timer runs out. -/
def State.moveExpires (s : State) (w : SwitchIx) : State :=
  s.onRideIf ((s.ride.switch? w).any fun x => x.pos.moveDue.any s.reached) fun _ r => faultSwitch w .moveTimeout r

/-- A switch's move timer runs out (R111). -/
def execMoveTimerExpiry (dt : Nat) (w : SwitchIx) (s : State) : Host.Outcome State Fault Refusal :=
  .next ((s.advance dt).moveExpires w)

/-- A channel's step falls due. -/
def State.channelSteps (s : State) (ch : ChannelIx) : State :=
  s.onRideIf ((s.ride.channel? ch).any fun x => x.stepDue.any s.reached) fun c r => channelStep c ch r

/-- A drive channel takes a step (R135). -/
def execDriveStep (dt : Nat) (ch : ChannelIx) (s : State) : Host.Outcome State Fault Refusal :=
  .next ((s.advance dt).channelSteps ch)

/-! ### Function inputs and stations -/

/-- A raw change on a function input line (R141). -/
def execFunctionInputRawChange (dt : Nat) (i : InputIx) (high : Bool) (s : State) : Host.Outcome State Fault Refusal :=
  .next (rawInputChange i high (s.advance dt))

/-- A change that has held for 20 ms is taken (R141). -/
def execFunctionInputChange (dt : Nat) (i : InputIx) (s : State) : Host.Outcome State Fault Refusal :=
  .next (takeDueInput i (s.advance dt))

/-- The levels of the function inputs are set (R142). -/
def execFunctionInputStart (dt : Nat) (s : State) : Host.Outcome State Fault Refusal := .next (startInputs (s.advance dt))

/-- A pair window runs out. -/
def State.windowExpires (s : State) (st : StationIx) : State :=
  if (s.ride.station? st).any fun x => x.pairing.windowDue.any s.reached then { s with ride := windowExpiry st s.ride }
  else s

/-- A pair window runs out (R147). -/
def execPairWindowExpiry (dt : Nat) (st : StationIx) (s : State) : Host.Outcome State Fault Refusal :=
  .next ((s.advance dt).windowExpires st)

/-- A dispatch wait runs out. -/
def State.waitExpires (s : State) (st : StationIx) : State :=
  s.onRideIf ((s.ride.station? st).any fun x => x.state.waitDue.any s.reached) fun c r => stationEvent c st .cancel r

/-- A dispatch wait runs out (R150). -/
def execDispatchWaitExpiry (dt : Nat) (st : StationIx) (s : State) : Host.Outcome State Fault Refusal :=
  .next ((s.advance dt).waitExpires st)

end Sys2Proof.Machine
end

