-- ==== Sys2Proof/Machine/Operands.lean ====
section
/-! DEFINITION. The operand forms of the link commands: what an object index and an argument name (Table 10-5 and each
command's own rule). -/

namespace Sys2Proof.Machine

/-- The object index as a number. -/
def objectOf (f : Frame) : Nat := f.obj.toNat

/-- The argument as a number. -/
def argumentOf (f : Frame) : Nat := f.arg.toNat

/-- The configured zone an object index names. -/
def CircuitMap.zoneNamed (m : CircuitMap) (obj : Nat) : Option (ZoneIx × ZoneDesc) :=
  (ixOf 48 obj).bind fun z => (m.zone z).map fun d => (z, d)

/-- The configured boundary an object index names. -/
def CircuitMap.boundaryNamed (m : CircuitMap) (obj : Nat) : Option (BoundaryIx × BoundaryDesc) :=
  (ixOf 52 obj).bind fun b => (m.boundary b).map fun d => (b, d)

/-- The configured switch an object index names. -/
def CircuitMap.switchNamed (m : CircuitMap) (obj : Nat) : Option (SwitchIx × SwitchDesc) :=
  (ixOf 4 obj).bind fun w => (m.switch w).map fun d => (w, d)

/-- The configured station an object index names. -/
def CircuitMap.stationNamed (m : CircuitMap) (obj : Nat) : Option (StationIx × StationDesc) :=
  (ixOf 4 obj).bind fun st => (m.station st).map fun d => (st, d)

/-- The occupied slot an object index names (R71). -/
def Ride.trainNamed (r : Ride) (obj : Nat) : Option (SlotIx × Train) :=
  (ixOf 16 obj).bind fun t => (r.train? t).map fun x => (t, x)

/-- The side of an argument 0 or 1 (R123). -/
def sideOf : Nat → Option Side
  | 0 => some .a
  | 1 => some .b
  | _ => none

/-- The hold source an argument names (R42). -/
def sourceOf : Nat → Option HoldSource
  | 0 => some .link
  | 1 => some .input
  | 2 => some .rollback
  | 3 => some .overdue
  | _ => none

/-- What the argument of SET_MODE seeks (R155). -/
def modeOf : Nat → Option Mode
  | 1 => some .config
  | 2 => some .maintenance
  | 3 => some .auto
  | _ => none

/-- The argument of DIRECT: a route at a switch, or the removal of the directive (R76). -/
inductive Directive where
  | remove
  | route (w : SwitchIx) (side : Side)
deriving DecidableEq, Repr

/-- The directive an argument spells: 256 times a switch number plus a route value (R76). -/
def directiveOf (arg : Nat) : Option Directive :=
  match ixOf 4 (arg / 256), arg % 256 with
  | some w, 0 => some (.route w .a)
  | some w, 1 => some (.route w .b)
  | some _, 2 => some .remove
  | _, _ => none

/-- The object of a map kind 0x01–0x08, where the index is a slot of that kind (Table 1-1). -/
def mapObjectOf (kind index : Nat) : Option MapObject :=
  if kind = 8 then if index = 0 then some .report else none else (slotOf kind index).map .slot

/-- The codes of the live record kinds (Table 10-10). -/
def LiveKind.code : LiveKind → Nat
  | .zone => 0x21
  | .train => 0x22
  | .boundary => 0x23
  | .switch => 0x24
  | .element => 0x25
  | .drive => 0x26
  | .station => 0x27
  | .inputs => 0x28

/-- The live kind an argument names (R172). -/
def liveKindOf : Nat → Option LiveKind
  | 0x21 => some .zone
  | 0x22 => some .train
  | 0x23 => some .boundary
  | 0x24 => some .switch
  | 0x25 => some .element
  | 0x26 => some .drive
  | 0x27 => some .station
  | 0x28 => some .inputs
  | _ => none

end Sys2Proof.Machine
end

