-- ==== Sys2Proof/Machine/Records.lean ====
section
/-! DEFINITION. The bodies of the live records, of the notice block and of the validation report, each a snapshot of its
record (R170; Tables 4-8, 6-7, 7-9, 7-10, 8-8, 8-9, 10-12, 10-13, 10-14), and the output pins (Table 11-2). -/

namespace Sys2Proof.Machine

/-- A number that fits one byte, or 0xFF. -/
def numByte (v : Option Nat) : Byte := byteOf (v.getD 255)

def Side.code : Side → Nat
  | .a => 0
  | .b => 1

/-- A side, or 0xFF. -/
def sideByte (v : Option Side) : Byte := numByte (v.map Side.code)

/-! ### ZONE (Table 10-12) -/

def Claim.code : Claim → Nat
  | .clear => 0
  | .reserved _ => 1
  | .entry _ => 2
  | .occupied _ => 3
  | .exit _ => 4
  | .guarded _ => 5

def ZoneFault.code : ZoneFault → Nat
  | .unexpected => 1
  | .overrun => 2
  | .speed => 3
  | .boundary => 4

def BrakeState.code : BrakeState → Nat
  | .closed => 0
  | .opening _ => 1
  | .opened => 2
  | .closing _ => 3
  | .fault _ => 4

def DriveState.code : DriveState → Nat
  | .closed => 0
  | .opening => 1
  | .opened => 2
  | .closing => 3

/-- The element state a zone record shows; 5 is NONE (R22). -/
def elementStateCode : Option Element → Nat
  | some (.brake st _) => st.code
  | some (.drive st _) => st.code
  | none => 5

def zoneBody (r : Ride) (z : ZoneIx) (x : ZoneRec) : List Byte :=
  [byteOf z.val, byteOf x.claim.code, optByte x.claim.occupant, optByte x.claim.holder, byteOf x.holds.toNat,
   byteOf ((x.fault.map ZoneFault.code).getD 0)] ++ be2 (x.entrySpeed.getD 65535) ++
  [byteOf (elementStateCode (r.element? z)), flagByte x.entrySpeed.isSome]

/-! ### TRAIN (Table 10-13) -/

def TrainPhase.code : TrainPhase → Nat
  | .entering => 0
  | .running => 1
  | .stopping => 2
  | .held => 3
  | .leaving => 4
  | .rollback => 5
  | .overdue => 6
  | .parked => 7
  | .lost => 8

def Direction.code : Direction → Nat
  | .forward => 0
  | .reverse => 1

def DeadlineKind.code : DeadlineKind → Nat
  | .journey => 1
  | .stop => 2

def Awaited.code : Awaited → Nat
  | .approach => 0
  | .berth => 1
  | .noseIn => 2

/-- The four places of a chain. -/
def chainBytes (chain : List ZoneIx) : List Byte := (List.range 4).map fun k => optByte (chain[k]?)

def trainBody (now : Nat) (t : SlotIx) (x : Train) : List Byte :=
  [byteOf t.val, byteOf x.label, byteOf x.phase.code, byteOf x.head.val, optByte x.tail, byteOf x.dir.code,
   byteOf x.chain.length] ++ chainBytes x.chain ++
  [optByte (x.guard.map Prod.fst), optByte (x.guard.map Prod.snd), byteOf ((x.deadline.map fun d => d.kind.code).getD 0)] ++
  be3 ((x.deadline.map fun d => msLeft now d.due).getD 0) ++ be3 ((x.deadline.bind (·.early)).getD 0xFFFFFF) ++
  be2 (x.lastSpeed.getD 65535) ++
  [numByte (x.awaited.map Awaited.code), byteOf x.early, byteOf x.overdue, optByte (x.directive.map Prod.fst),
   sideByte (x.directive.map Prod.snd), byteOf (x.stepping.toNat + 2 * x.lastSpeed.isSome.toNat)]

/-! ### BOUNDARY (Table 4-8) -/

def Passage.code : Passage → Nat
  | .clear => 0
  | .entering _ _ => 1
  | .spanning _ => 2
  | .leaving _ => 3
  | .fault _ => 4

def Passage.dir : Passage → Option Direction
  | .entering dir _ | .spanning dir | .leaving dir => some dir
  | _ => none

def Passage.faultCode : Passage → Nat
  | .fault .reverseUnexpected => 1
  | .fault .coveredAtStart => 2
  | _ => 0

/-- The gate time: in ENTERING the time since the gate start, saturating (R87). -/
def Passage.gateTime (now : Nat) : Passage → Nat
  | .entering _ start => min Config.gateLimit (now - start)
  | _ => 0

/-- The last gate interval in units of 256 µs, rounded up, saturating; 0 when absent. -/
def intervalUnits (interval : Option Nat) : Nat :=
  match interval with
  | some v => min 65535 ((v + 255) / 256)
  | none => 0

def boundaryBody (s : State) (b : BoundaryIx) (d : BoundaryDesc) (x : BoundaryRec) : List Byte :=
  [byteOf b.val, byteOf x.passage.code, numByte (x.passage.dir.map Direction.code), flagByte (tget s.sensors.covered d.uLine),
   flagByte (tget s.sensors.covered d.dLine), byteOf x.passage.faultCode] ++ be3 (x.passage.gateTime s.now) ++
  [flagByte x.stalled] ++ be2 (intervalUnits x.lastInterval)

/-! ### SWITCH (Table 6-7) -/

def SwitchPos.code : SwitchPos → Nat
  | .locked .a => 0
  | .locked .b => 1
  | .moving .a _ => 2
  | .moving .b _ => 3
  | .fault _ => 4

def SwitchFault.code : SwitchFault → Nat
  | .moveTimeout => 1
  | .proofConflict => 2
  | .proofLost => 3
  | .noPosition => 4
  | .enteredInMove => 5

def SwitchPos.faultCode : SwitchPos → Nat
  | .fault cause => cause.code
  | _ => 0

def SwitchPos.timer (now : Nat) : SwitchPos → Nat
  | .moving _ due => msLeft now due
  | _ => 0

def MoveSource.code : MoveSource → Nat
  | .routing => 0
  | .arbiter => 1
  | .link => 2

def Arbiter.code : Arbiter → Nat
  | .idle => 0
  | .aligning _ => 1
  | .granted _ _ => 2
  | .inUse _ => 3

/-- The side an arbiter holds. -/
def Arbiter.side : Arbiter → Option Side
  | .idle => none
  | .aligning side | .granted side _ | .inUse side => some side

/-- The granted train. -/
def Arbiter.train : Arbiter → Option SlotIx
  | .granted _ t => some t
  | _ => none

/-- The waiting trains field of a merge switch. -/
def waitingByte (reqA reqB : Option SlotIx) : Byte :=
  if reqA.isNone ∧ reqB.isNone then 0xFF#8
  else byteOf (16 * (reqA.map (·.val)).getD 15 + (reqB.map (·.val)).getD 15)

/-- The fields of one kind of switch: history to request sides. -/
def SwitchRole.body : SwitchRole → List Byte
  | .diverge setting last =>
    [byteOf last.code, 0xFF#8, sideByte (setting.map Prod.snd), optByte (setting.map Prod.fst), 0xFF#8, 0xFF#8]
  | .merge reqA reqB arb served =>
    [byteOf served.code, byteOf arb.code, sideByte arb.side, optByte arb.train, waitingByte reqA reqB,
     byteOf (reqA.isSome.toNat + 2 * reqB.isSome.toNat)]

def switchBody (s : State) (w : SwitchIx) (d : SwitchDesc) (x : SwitchRec) : List Byte :=
  [byteOf w.val, byteOf d.kind.code, byteOf x.pos.code, byteOf x.pos.faultCode, flagByte (tget s.proofs d.proofA),
   flagByte (tget s.proofs d.proofB)] ++ be2 (x.pos.timer s.now) ++
  [sideByte (x.pending.map Prod.fst), numByte (x.pending.map fun p => p.2.code), sideByte x.committed] ++ x.role.body

/-! ### ELEMENT and DRIVE (Tables 7-9 and 7-10) -/

def ElementCommand.code : ElementCommand → Nat
  | .close => 0
  | .openRun => 1
  | .openCreep => 2

def ElementFault.code : ElementFault → Nat
  | .openTimeout => 1
  | .closeTimeout => 2
  | .proofConflict => 3
  | .proofLost => 4

def BrakeState.faultCode : BrakeState → Nat
  | .fault cause => cause.code
  | _ => 0

def BrakeState.timer (now : Nat) : BrakeState → Nat
  | .opening due | .closing due => msLeft now due
  | _ => 0

/-- A brake's command output follows its state (R126). -/
def BrakeState.output : BrakeState → Bool
  | .opening _ | .opened => true
  | _ => false

def elementBody (s : State) (z : ZoneIx) : Element → List Byte
  | .brake st cmd =>
    [byteOf z.val, 1#8, byteOf st.code, byteOf cmd.code, byteOf st.faultCode, flagByte (s.ctx.brakeLevels z).1,
     flagByte (s.ctx.brakeLevels z).2] ++ be2 (st.timer s.now) ++ [flagByte st.output]
  | .drive st cmd =>
    [byteOf z.val, 2#8, byteOf st.code, byteOf cmd.code, 0#8, 0xFF#8, 0xFF#8, 0#8, 0#8, optByte (s.ctx.channelOf z)]

/-- A channel's phase: 0 STEADY, 1 RISING, 2 FALLING (R134). -/
def Channel.phaseCode (ch : Channel) : Nat := if ch.code = ch.target then 0 else if ch.code < ch.target then 1 else 2

def driveBody (now : Nat) (i : ChannelIx) (ch : Channel) : List Byte :=
  [byteOf i.val] ++ be2 ch.code ++ be2 ch.target ++
  [byteOf ch.phaseCode, byteOf ((ch.stepDue.map (msLeft now)).getD 0), flagByte ch.enabled, optByte ch.zone]

/-! ### STATION and INPUTS (Tables 8-8 and 8-9) -/

def StationState.code : StationState → Nat
  | .empty => 0
  | .arriving => 1
  | .loading => 2
  | .ready => 3
  | .pending _ _ => 4
  | .releasing _ => 5

def DemandSource.code : DemandSource → Nat
  | .buttons => 0
  | .link => 1

def StationState.source : StationState → Option DemandSource
  | .pending source _ => some source
  | _ => none

def StationState.wait (now : Nat) : StationState → Nat
  | .pending _ due => msLeft now due
  | _ => 0

def StationState.departing : StationState → Bool
  | .releasing departing => departing
  | _ => false

def Pairing.code : Pairing → Nat
  | .armed => 0
  | .timing _ _ => 1
  | .expired _ => 2
  | .spent => 3

def Pairing.first : Pairing → Option Side
  | .timing first _ | .expired first => some first
  | _ => none

def Pairing.window (now : Nat) : Pairing → Nat
  | .timing _ due => msLeft now due
  | _ => 0

def stationBody (s : State) (st : StationIx) (d : StationDesc) (x : StationRec) : List Byte :=
  [byteOf st.val, byteOf d.zone.val, byteOf x.state.code, optByte (s.ride.occupant? d.zone), flagByte (s.ctx.active d.restraint),
   flagByte (s.ctx.active d.gate), byteOf d.authority.code, byteOf x.pairing.code, sideByte x.pairing.first] ++
  be2 (x.pairing.window s.now) ++ [numByte (x.state.source.map DemandSource.code)] ++ be3 (x.state.wait s.now) ++
  [flagByte x.state.departing]

/-- Sixteen bits as a number, bit `i` for input `i`. -/
def inputBits (f : InputIx → Bool) : Nat := (List.finRange 16).foldl (fun n i => n + (f i).toNat * 2 ^ i.val) 0

def inputsBody (s : State) : List Byte :=
  be2 (inputBits s.ctx.active) ++ be2 (inputBits fun i => (s.map.input i).isSome && tget s.inputs.filtered i) ++
  [flagByte s.ctx.estopActive]

/-! ### The record of a kind and index -/

/-- A working map is in use: each block has taken it up (R156, R181). -/
def State.mapInUse (s : State) : Bool :=
  match s.mode with
  | .maintenance | .auto => true
  | _ => false

/-- The body of a live record, where the kind has one of that index (R172). -/
def State.liveBody (s : State) (kind : LiveKind) (index : Nat) : Option (List Byte) :=
  match kind with
  | .zone => (ixOf 48 index).bind fun z => (s.ride.zone? z).map fun x => zoneBody s.ride z x
  | .train => (ixOf 16 index).bind fun t => (s.ride.train? t).map fun x => trainBody s.now t x
  | .boundary => (ixOf 52 index).bind fun b =>
      match tget s.bounds b, s.map.boundary b with
      | some x, some d => some (boundaryBody s b d x)
      | _, _ => none
  | .switch => (ixOf 4 index).bind fun w =>
      match s.ride.switch? w, s.map.switch w with
      | some x, some d => some (switchBody s w d x)
      | _, _ => none
  | .element => (ixOf 48 index).bind fun z => (s.ride.element? z).map fun x => elementBody s z x
  | .drive => (ixOf 8 index).bind fun ch => (s.ride.channel? ch).map fun x => driveBody s.now ch x
  | .station => (ixOf 4 index).bind fun st =>
      match s.ride.station? st, s.map.station st with
      | some x, some d => some (stationBody s st d x)
      | _, _ => none
  | .inputs => if index = 0 ∧ s.mapInUse = true then some (inputsBody s) else none

/-- The next record of a stream: the lowest index from `start` on whose record exists (R174). -/
def State.nextLive (s : State) (kind : LiveKind) (start : Nat) : Option (Nat × List Byte) :=
  (List.range 52).findSome? fun i => if start ≤ i then (s.liveBody kind i).map fun body => (i, body) else none

/-! ### Notice block and report -/

/-- The kind code of the notice block (Table 10-10). -/
def noticeKind : Byte := 0x30#8

/-- The notice block's body (Table 10-14). -/
def State.noticeBody (s : State) : List Byte :=
  be2 s.ride.notices.toNat ++ be2 s.ride.causes.toNat ++ [byteOf s.mode.code, byteOf s.ride.trainCount]

def ReportOutcome.code : ReportOutcome → Nat
  | .pass => 0
  | .fail => 1
  | .notRun => 255

/-- The report's four bytes (R16, R173). -/
def Report.body (x : Report) : List Byte := [byteOf x.outcome.code, byteOf x.group, byteOf x.index, byteOf x.code]

/-- The kind code of a map record's block (Table 1-1). -/
def MapObject.kindCode : MapObject → Nat
  | .slot ref => ref.kindCode
  | .report => 8

/-- The body of a map record (R173). -/
def State.mapBody (s : State) : MapObject → List Byte
  | .slot ref => s.map.body ref
  | .report => s.report.body

/-! ### Output pins (Table 11-2) -/

/-- The element command output of a zone: asserted opens its brake (R126). -/
def State.elementOutput (s : State) (z : ZoneIx) : Bool :=
  match s.ride.element? z with
  | some (.brake st _) => st.output
  | _ => false

/-- A switch command output line: asserted by the switch that moves toward its position (R108). -/
def State.switchOutput (s : State) (line : OutputLine) : Bool :=
  (List.finRange 4).any fun w =>
    match s.ride.switch? w, s.map.switch w with
    | some { pos := .moving .a _, .. }, some d => d.outA == line
    | some { pos := .moving .b _, .. }, some d => d.outB == line
    | _, _ => false

/-- The setpoint output of a channel (R137). -/
def State.setpoint (s : State) (ch : ChannelIx) : Nat := ((s.ride.channel? ch).map (·.code)).getD 0

/-- The enable output of a channel (R137). -/
def State.enable (s : State) (ch : ChannelIx) : Bool := (s.ride.channel? ch).any (·.enabled)

end Sys2Proof.Machine
end

