-- ==== Sys2Proof/Machine/Link.lean ====
section
/-! DEFINITION. The link unit: the bytes it sends in each state of Table 10-1 (R165, R170), result codes (Table 10-7), the
taking of a command frame (R166 to R168, R47), and its response. -/

namespace Sys2Proof.Machine

/-! ### What the part sends, byte by byte -/

/-- The bytes of what is being sent and what the last of them brings about. A block that is due is formed from its record as it
stands now (R170, R174, R178). A record that is gone has no block; no run reaches this. -/
def State.opening (s : State) : Sending → List Byte × BlockEnd
  | .live kind index =>
    match s.liveBody kind index with
    | some body => (dataBlock (byteOf kind.code) body, .single)
    | none => ([], .single)
  | .mapRecord obj => (dataBlock (byteOf obj.kindCode) (s.mapBody obj), .single)
  | .notices => (dataBlock noticeKind s.noticeBody, .clearing s.ride.notices)
  | .stream kind next =>
    match s.nextLive kind next with
    | some (i, body) => (dataBlock (byteOf kind.code) body, .streaming kind (i + 1))
    | none => ([Config.endOfStreamByte], .single)
  | .begun rest after => (rest, after)

/-- The last byte of a block has been sent (Table 10-1, R174, R178). -/
def State.blockEnds (s : State) : BlockEnd → State
  | .single => { s with link := .awaitingFrame }
  | .clearing snapshot =>
    { s with link := .awaitingFrame, ride := { s.ride with notices := s.ride.notices &&& ~~~snapshot } }
  | .streaming kind next => { s with link := .sending (.stream kind next) }

/-- One byte of SENDING. -/
def State.sendByte (s : State) (what : Sending) : State :=
  match s.opening what with
  | (b :: b' :: rest, after) => { s with link := .sending (.begun (b' :: rest) after), dataOut := [b] }
  | (bytes, after) => { s.blockEnds after with dataOut := bytes }

/-- The state of Table 10-1 after a response; none where a RESTART takes effect with its last byte. -/
def Follow.link? : Follow → Option Link
  | .nothing => some .awaitingFrame
  | .send what => some (.sending what)
  | .awaitBlock ref => some (.awaitingBlock ref)
  | .restart => none

/-- The last byte of a response has been sent (Table 10-1, R182). -/
def State.responseEnds (s : State) (next : Follow) : State :=
  match next.link? with
  | some l => { s with link := l }
  | none => startUpReset s

/-- The host clocks one byte of fill (Table 10-1). Outside a transaction it clocks none; nor between the sync byte of a frame and
the rest of it, which comes with its command (assumption log 5). -/
def State.clock (s : State) : State :=
  match s.link with
  | .released => s
  | .receivingFrame _ => s
  | .awaitingFrame => { s with dataOut := [s.idleByte] }
  | .responding (wait + 1) rest next => { s with link := .responding wait rest next, dataOut := [Config.waitByte] }
  | .responding 0 (b :: b' :: rest) next => { s with link := .responding 0 (b' :: rest) next, dataOut := [b] }
  | .responding 0 rest next => { s.responseEnds next with dataOut := rest }
  | .sending what => s.sendByte what
  | .awaitingBlock _ => { s with dataOut := [Config.waitByte] }
  | .accepting (wait + 1) answer => { s with link := .accepting wait answer, dataOut := [Config.waitByte] }
  | .accepting 0 answer => { s with link := .awaitingFrame, dataOut := [answer] }

/-! ### Reading out what is owed

The host reads an answer to its end before it sends anything but fill (R165): a row of the table that comes while one is owed
begins with the bytes of it (assumption log 5). -/

/-- What the part still owes of a response or an acceptance byte, and the state after it. A RESTART answered DONE is not read
out: RESTART_TAKES_EFFECT does that. -/
def Link.heard : Link → List Byte × Link
  | .responding wait rest next =>
    match next.link? with
    | some l => (List.replicate wait Config.waitByte ++ rest, l)
    | none => ([], .responding wait rest next)
  | .accepting wait answer => (List.replicate wait Config.waitByte ++ [answer], .awaitingFrame)
  | l => ([], l)

/-- The block of a READ_LIVE or READ_MAP_RECORD, which the host reads out too. -/
def Sending.isRead : Sending → Bool
  | .live _ _ | .mapRecord _ | .begun _ .single => true
  | _ => false

/-- The bytes that the part sends up to the last byte of a command frame (Table 10-1): what it owes; with the frame's sync byte
the byte of the state it stands in; and the idle byte with the rest of the frame. -/
def State.frameBytes (s : State) : List Byte :=
  s.link.heard.1 ++
  match s.link.heard.2 with
  | .sending what =>
    if what.isRead then (s.opening what).1 ++ List.replicate 8 s.idleByte
    else (s.opening what).1.take 1 ++ List.replicate 7 s.idleByte
  | .awaitingBlock _ => Config.waitByte :: List.replicate 7 s.idleByte
  | .receivingFrame _ => List.replicate 7 s.idleByte
  | _ => List.replicate 8 s.idleByte

/-- Whether a command frame can be taken in a link state, and whether its sync byte cuts off a stream: a 0x96 in SENDING cuts
off what is sent, and in AWAITING_BLOCK it abandons the write (Table 10-1, R175). A stream with its end-of-stream byte alone left is
cut off too, with that byte sent: the model's choice (assumption log 5). -/
def Link.takesFrame (l : Link) : Option Bool :=
  match l.heard.2 with
  | .awaitingFrame | .awaitingBlock _ => some false
  | .receivingFrame cut => some cut
  | .sending what => some what.isStream
  | _ => none

/-! ### Commands and their answers -/

/-- Results (Table 10-7). -/
inductive Result where
  | done | busy | wrongMode | noObject | badArgument | conflict | sequence | capacity | checkFailed | unknown
deriving DecidableEq, Repr

def Result.code : Result → Nat
  | .done => 0
  | .busy => 1
  | .wrongMode => 2
  | .noObject => 3
  | .badArgument => 4
  | .conflict => 5
  | .sequence => 6
  | .capacity => 7
  | .checkFailed => 8
  | .unknown => 9

/-- The three bytes of a response frame: 0x80 is added to the result code where the command discarded a hold selection
(Table 10-6, R168). -/
def responseFrame (discarded : Bool) (res : Result) (condition : Byte) : List Byte :=
  let head := [byteOf (res.code + 128 * discarded.toNat), condition]
  head ++ [crc8 head]

/-- The response is prepared (R165). Its condition byte shows the state just after the command, a stream it begins as active
(R168). -/
def State.respond (s : State) (discarded : Bool) (res : Result) (next : Follow) : State :=
  let wait := (Config.waitBytes s.answers).val
  let s1 := { s with link := .responding wait [] next, answers := s.answers + 1 }
  { s1 with link := .responding wait (responseFrame discarded res s1.conditionByte) next }

/-- The link unit as a frame has been taken: what it was sending has ended. -/
def State.frameTaken (s : State) : State := { s with link := .awaitingFrame, dataOut := s.frameBytes }

/-- An open hold selection is closed and its set emptied, with the notice (R47). -/
def State.discardSelection (s : State) : State :=
  { s with selection := none, ride := s.ride.raise .selectionDiscarded }

/-- What sets a command apart from the others in the common handling of frames. -/
structure FrameClass where
  /-- it leaves an open hold selection open (R47) -/
  keeps : Bool
  /-- it is answered by its own rule even where its frame cut off a stream (R175) -/
  afterCut : Bool
  /-- it is answered by its own rule in LOADING too (R167) -/
  inLoading : Bool

/-- A command that R47 does not except. -/
def FrameClass.ordinary : FrameClass := { keeps := false, afterCut := false, inLoading := false }

/-- A command that R47 excepts. -/
def FrameClass.keeping : FrameClass := { FrameClass.ordinary with keeps := true }

/-- A frame's common handling just before its owner is asked: an open selection is discarded but by the excepted commands. -/
def State.beforeCommand (s : State) (cls : FrameClass) : State :=
  if !cls.keeps && s.selection.isSome then s.frameTaken.discardSelection else s.frameTaken

/-- The result and effects of a frame that passed its check (Table 10-2); `own` is the owning block's rule. -/
def State.answer (s : State) (cls : FrameClass) (cut : Bool) (own : State → Result × State) : Result × State :=
  if cut && !cls.afterCut then (.sequence, s)
  else if s.mode = .loading ∧ cls.inLoading = false then (.busy, s)
  else own s

/-- What follows a response: only a command answered DONE sends or awaits anything more (R165). -/
def Result.follow (res : Result) (next : Follow) : Follow := if res = .done then next else .nothing

/-- A command frame that passes its check is taken and answered (R167, R168); `next` is what follows the answer DONE. Nothing is
taken outside a transaction. -/
def State.takeFrame (s : State) (cls : FrameClass) (own : State → Result × State) (next : Follow := .nothing) : State :=
  match s.link.takesFrame with
  | none => s
  | some cut =>
    let s1 := s.beforeCommand cls
    let res := s1.answer cls cut own
    res.2.respond (!cls.keeps && s.selection.isSome) res.1 (res.1.follow next)

/-- A result with no effect. -/
def State.refuse (s : State) (res : Result) : Result × State := (res, s)

/-- A frame that fails its check: CHECK_ERROR, no discarded mark, and nothing else (R166). -/
def State.failFrame (s : State) : State :=
  match s.link.takesFrame with
  | none => s
  | some _ => ({ s.frameTaken with ride := s.ride.raise .checkError }).respond false .checkFailed .nothing

end Sys2Proof.Machine
end

