-- ==== Sys2Proof/Machine/HoldCommands.lean ====
section
/-! DEFINITION. The interlock's commands on holds and the hold selection (R40 to R46). -/

namespace Sys2Proof.Machine

/-- The common checks of a command on a zone (Table 2-6); `own` is what follows them. -/
def zoneCommand (f : Frame) (argumentOk : Bool) (own : ZoneIx → State → Result × State) (s : State) : Result × State :=
  if s.mode = .config then s.refuse .wrongMode
  else if !argumentOk then s.refuse .badArgument
  else
    match s.map.zoneNamed (objectOf f) with
    | none => s.refuse .noObject
    | some (z, _) => own z s

/-- The common checks of a command that needs an open selection (Table 2-6). -/
def selectionCommand (own : Selection → State → Result × State) (s : State) : Result × State :=
  if s.mode = .config then s.refuse .wrongMode
  else
    match s.selection with
    | none => s.refuse .sequence
    | some sel => own sel s

/-! ### HOLD and RELEASE_HOLD -/

/-- HOLD (R41). -/
def holdRule (f : Frame) : State → Result × State :=
  zoneCommand f true fun z s => (.done, s.onRide fun c r => addHold c z .link r)

/-- HOLD (R41). -/
def execHold (dt : Nat) (f : Frame) (s : State) : Host.Outcome State Fault Refusal :=
  .next ((s.advance dt).takeFrame .ordinary (holdRule f))

/-- The zone's occupant is a train in phase OVERDUE. -/
def Ride.overdueIn (r : Ride) (z : ZoneIx) : Bool :=
  ((r.occupant? z).bind r.train?).any fun x => x.phase == .overdue

/-- The refusals of R42 and the removal of a hold source. -/
def releaseSource (src : HoldSource) (z : ZoneIx) (s : State) : Result × State :=
  match src with
  | .input => s.refuse .badArgument
  | .overdue => if s.ride.overdueIn z then s.refuse .conflict else (.done, s.onRide fun _ r => removeHold z .overdue r)
  | src => (.done, s.onRide fun _ r => removeHold z src r)

/-- RELEASE_HOLD (R42). -/
def releaseRule (f : Frame) : State → Result × State :=
  match sourceOf (argumentOf f) with
  | none => zoneCommand f false fun _ s => s.refuse .badArgument
  | some src => zoneCommand f true (releaseSource src)

/-- RELEASE_HOLD (R42). -/
def execReleaseHold (dt : Nat) (f : Frame) (s : State) : Host.Outcome State Fault Refusal :=
  .next ((s.advance dt).takeFrame .ordinary (releaseRule f))

/-! ### The hold selection -/

/-- SELECT_FIRST opens a selection, or replaces the open one (R43). -/
def selectFirstRule (f : Frame) : State → Result × State :=
  zoneCommand f true fun z s => (.done, { s with selection := some { first := z, zones := [z] } })

/-- SELECT_FIRST (R43). -/
def execSelectFirst (dt : Nat) (f : Frame) (s : State) : Host.Outcome State Fault Refusal :=
  .next ((s.advance dt).takeFrame .keeping (selectFirstRule f))

/-- The walk from the first zone to `z` extends the selection, where it reaches `z` (R44). -/
def extendSelection (sel : Selection) (z : ZoneIx) (s : State) : Result × State :=
  match s.map.primaryWalk z Config.walkLimit sel.first with
  | none => s.refuse .badArgument
  | some walk => (.done, { s with selection := some { sel with zones := addZones sel.zones walk } })

/-- SELECT_LAST (R44). -/
def selectLastRule (f : Frame) : State → Result × State :=
  selectionCommand fun sel => zoneCommand f true (extendSelection sel)

/-- SELECT_LAST (R44). -/
def execSelectLast (dt : Nat) (f : Frame) (s : State) : Host.Outcome State Fault Refusal :=
  .next ((s.advance dt).takeFrame .keeping (selectLastRule f))

/-- DESELECT (R45). -/
def deselectRule (f : Frame) : State → Result × State :=
  selectionCommand fun sel => zoneCommand f true fun z s =>
    (.done, { s with selection := some { sel with zones := sel.zones.filter (· ≠ z) } })

/-- DESELECT (R45). -/
def execDeselect (dt : Nat) (f : Frame) (s : State) : Host.Outcome State Fault Refusal :=
  .next ((s.advance dt).takeFrame .keeping (deselectRule f))

/-- LINK is added to every zone of a set, or removed from every one, as one act (R46). -/
def holdZones (c : Ctx) (zones : List ZoneIx) (hold : Bool) (r : Ride) : Ride :=
  zones.foldl (fun r z => if hold then addHold c z .link r else removeHold z .link r) r

/-- The selection is applied and closed (R46). -/
def applyZones (sel : Selection) (hold : Bool) (s : State) : Result × State :=
  (.done, { s with selection := none }.onRide fun c r => holdZones c sel.zones hold r)

/-- APPLY_SELECTION (R46). -/
def applyRule (f : Frame) : State → Result × State :=
  selectionCommand fun sel s =>
    match argumentOf f with
    | 0 => applyZones sel true s
    | 1 => applyZones sel false s
    | _ => s.refuse .badArgument

/-- APPLY_SELECTION (R46). -/
def execApplySelection (dt : Nat) (f : Frame) (s : State) : Host.Outcome State Fault Refusal :=
  .next ((s.advance dt).takeFrame .keeping (applyRule f))

end Sys2Proof.Machine
end

