-- ==== Sys2Proof/Machine/Modes.lean ====
section
/-! DEFINITION. Modes and the ride stop: SET_MODE (R155 to R158), RIDE_STOP (R162) and RESUME (R161, R163). -/

namespace Sys2Proof.Machine

/-- The passage from CONFIG to MAINTENANCE: validation, then the take-up (R156). -/
def leaveConfig (s : State) : Result × State :=
  if s.map.validate.outcome = .pass then (.done, takeUp { s with report := s.map.validate })
  else (.conflict, { s with report := s.map.validate })

/-- Every pending demand is cancelled (R150). -/
def cancelDemands (c : Ctx) (r : Ride) : Ride := overAll (fun (st : StationIx) r => stationEvent c st .cancel r) r

/-- The change of mode to `target`, by the first line of Table 9-2 that applies from the present mode on. -/
def changeMode (target : Mode) (s : State) : Result × State :=
  if target = s.mode then (.done, s)
  else
    match s.mode, target with
    | .auto, .config | .config, .auto => s.refuse .wrongMode
    | .maintenance, .config => if s.ride.trainCount ≠ 0 then s.refuse .conflict else (.done, putAway s)
    | .config, .maintenance => leaveConfig s
    | .maintenance, .auto => (.done, { s with mode := .auto }.onRide fun _ r => r)
    | .auto, .maintenance => (.done, { s with mode := .maintenance }.onRide cancelDemands)
    | _, _ => s.refuse .busy

/-- SET_MODE (Table 9-2). -/
def setModeRule (f : Frame) (s : State) : Result × State :=
  if s.storing.isSome then s.refuse .busy
  else
    match modeOf (argumentOf f) with
    | none => s.refuse .badArgument
    | some target => changeMode target s

/-- SET_MODE (R155). -/
def execSetMode (dt : Nat) (f : Frame) (s : State) : Host.Outcome State Fault Refusal :=
  .next ((s.advance dt).takeFrame .ordinary (setModeRule f))

/-- RIDE_STOP (R162). -/
def rideStopRule (s : State) : Result × State := (.done, s.onRide fun _ r => r.report .link)

/-- RIDE_STOP (R162). -/
def execRideStop (dt : Nat) (_f : Frame) (s : State) : Host.Outcome State Fault Refusal :=
  .next ((s.advance dt).takeFrame .ordinary rideStopRule)

/-- A switch is in FAULT. -/
def Ride.switchFaulted (r : Ride) (w : SwitchIx) : Bool := (r.switch? w).any (·.pos.faulted)

/-- A boundary record is in FAULT. -/
def BoundaryRec.faulted (x : BoundaryRec) : Bool :=
  match x.passage with
  | .fault _ => true
  | _ => false

/-- Boundary `b` is in FAULT. -/
def State.boundaryFaulted? (s : State) (b : BoundaryIx) : Bool := (tget s.bounds b).any (·.faulted)

/-- The levels of the track sensors or of the function inputs have not been set since the take-up. -/
def State.levelsAwaited (s : State) : Bool := s.sensors.phase != .running || s.inputs.phase != .running

/-- A condition of R161 holds. -/
def State.resumeBarred (s : State) : Bool :=
  s.ctx.estopActive ||
  (List.finRange 48).any (fun z => (s.ride.zone? z).any fun x => x.fault.isSome) ||
  (List.finRange 52).any s.boundaryFaulted? ||
  (List.finRange 48).any s.ride.elementFaulted ||
  (List.finRange 4).any s.ride.switchFaulted ||
  (List.finRange 16).any (fun t => (s.ride.train? t).any fun x => x.phase == .lost) ||
  s.levelsAwaited

/-- RESUME (Table 9-4). -/
def resumeRule (s : State) : Result × State :=
  if s.mode = .config then s.refuse .wrongMode
  else if s.ride.latched = false then (.done, s)
  else if s.resumeBarred then s.refuse .conflict
  else (.done, s.onRide fun _ r => { r with causes := 0#11 })

/-- RESUME (R163). -/
def execResume (dt : Nat) (_f : Frame) (s : State) : Host.Outcome State Fault Refusal :=
  .next ((s.advance dt).takeFrame .ordinary resumeRule)

end Sys2Proof.Machine
end

