-- ==== Sys2Proof/Machine/FaultCommands.lean ====
section
/-! DEFINITION. CLEAR_FAULT for its four classes: zone (R49), boundary (R90), element (R139) and switch (R113). -/

namespace Sys2Proof.Machine

/-! ### Zone -/

/-- A boundary beside zone `z` is in FAULT (R49). -/
def State.faultBeside (s : State) (z : ZoneIx) : Bool :=
  (List.finRange 52).any fun b =>
    ((s.map.boundary b).any fun d => d.up == z || d.down == z) && s.boundaryFaulted? b

/-- The zone's fault cause becomes absent. -/
def clearZoneFault (z : ZoneIx) (r : Ride) : Ride :=
  match r.zone? z with
  | some x => r.putZone z { x with fault := none }
  | none => r

/-- CLEAR_FAULT for a zone; an argument outside 1–4 is refused here too (R49). -/
def clearZoneRule (f : Frame) : State → Result × State :=
  zoneCommand f (argumentOf f == 1) fun z s =>
    if s.faultBeside z then s.refuse .conflict else (.done, s.onRide fun _ r => clearZoneFault z r)

/-- CLEAR_FAULT for a zone (R49). The arguments 2 to 4 are the other classes' steps. -/
def execClearFaultZone (dt : Nat) (f : Frame) (s : State) : Host.Outcome State Fault Refusal :=
  .next
    (if argumentOf f = 2 ∨ argumentOf f = 3 ∨ argumentOf f = 4 then s.advance dt
     else (s.advance dt).takeFrame .ordinary (clearZoneRule f))

/-! ### Boundary -/

/-- A boundary in FAULT with both sensors uncovered goes to CLEAR (R90). -/
def clearBoundary (b : BoundaryIx) (d : BoundaryDesc) (s : State) : Result × State :=
  match tget s.bounds b with
  | none => (.done, s)
  | some x =>
    if !x.faulted then (.done, s)
    else if d.covered s.sensors.covered then s.refuse .conflict
    else (.done, { s with bounds := tput s.bounds b (some { x with passage := .clear }) })

/-- CLEAR_FAULT for a boundary (R90). -/
def clearBoundaryRule (obj : Byte) (s : State) : Result × State :=
  if s.mode = .config then s.refuse .wrongMode
  else
    match s.map.boundaryNamed obj.toNat with
    | none => s.refuse .noObject
    | some (b, d) => clearBoundary b d s

/-- CLEAR_FAULT for a boundary (R90). -/
def execClearFaultBoundary (dt : Nat) (obj : Byte) (s : State) : Host.Outcome State Fault Refusal :=
  .next ((s.advance dt).takeFrame .ordinary (clearBoundaryRule obj))

/-! ### Element -/

/-- A brake in FAULT with its closed proof alone active goes to CLOSED, proven (Table 7-8). -/
def clearElement (z : ZoneIx) (s : State) : Result × State :=
  if !s.ride.elementFaulted z then (.done, s)
  else if (s.ctx.brakeLevels z).2 && !(s.ctx.brakeLevels z).1 then
    (.done, s.onRide fun c r => brakeBecomes c z .closed .close r)
  else s.refuse .conflict

/-- CLEAR_FAULT for an element (Table 7-8). -/
def clearElementRule (obj : Byte) (s : State) : Result × State :=
  if s.mode = .config then s.refuse .wrongMode
  else
    match s.map.zoneNamed obj.toNat with
    | none => s.refuse .noObject
    | some (z, d) => if d.element = .none then s.refuse .noObject else clearElement z s

/-- CLEAR_FAULT for an element (R139). -/
def execClearFaultElement (dt : Nat) (obj : Byte) (s : State) : Host.Outcome State Fault Refusal :=
  .next ((s.advance dt).takeFrame .ordinary (clearElementRule obj))

/-! ### Switch -/

/-- The position of the one proof that is active; none where both or neither are. -/
def provenSide (a b : Bool) : Option Side :=
  match a, b with
  | true, false => some .a
  | false, true => some .b
  | _, _ => none

/-- A switch in FAULT proven at a position locks there, unless its zone is taken and was not committed there (Table 6-4). -/
def clearSwitch (w : SwitchIx) (d : SwitchDesc) (x : SwitchRec) (s : State) : Result × State :=
  if !x.pos.faulted then (.done, s)
  else
    match provenSide (tget s.proofs d.proofA) (tget s.proofs d.proofB) with
    | none => s.refuse .conflict
    | some side =>
      if switchZoneClear s.ctx s.ride w = false ∧ x.committed ≠ some side then s.refuse .conflict
      else (.done, s.onRide fun c r => lockSwitch c w side r)

/-- CLEAR_FAULT for a switch (Table 6-4). -/
def clearSwitchRule (obj : Byte) (s : State) : Result × State :=
  if s.mode = .config then s.refuse .wrongMode
  else
    match s.map.switchNamed obj.toNat with
    | none => s.refuse .noObject
    | some (w, d) =>
      match s.ride.switch? w with
      | none => (.done, s)
      | some x => clearSwitch w d x s

/-- CLEAR_FAULT for a switch (R113). -/
def execClearFaultSwitch (dt : Nat) (obj : Byte) (s : State) : Host.Outcome State Fault Refusal :=
  .next ((s.advance dt).takeFrame .ordinary (clearSwitchRule obj))

end Sys2Proof.Machine
end

