-- ==== Sys2Proof/Machine/LinkCommands.lean ====
section
/-! DEFINITION. The link unit's own commands and steps: condition and notices (R178), live records and streams (R172, R174,
R175), frames that are no command (R166, R167), and select (R165, R169). -/

namespace Sys2Proof.Machine

/-! ### GET_CONDITION and the notice block -/

/-- GET_CONDITION is answered in every mode and keeps an open selection (R47, R178). -/
def conditionClass : FrameClass := { keeps := true, afterCut := false, inLoading := true }

/-- GET_CONDITION (R178). -/
def execGetCondition (dt : Nat) (_f : Frame) (s : State) : Host.Outcome State Fault Refusal :=
  .next ((s.advance dt).takeFrame conditionClass (fun s => (.done, s)) (.send .notices))

/-- The last byte of the notice block has been sent: every notice of the snapshot is removed (R178). -/
def State.noticesSent (s : State) : State :=
  match s.link.heard with
  | (bytes, .sending what) =>
    match s.opening what with
    | (rest, .clearing snapshot) => { s.blockEnds (.clearing snapshot) with dataOut := bytes ++ rest }
    | _ => s
  | _ => s

/-- The notice block has been sent (R178). -/
def execNoticeBlockSent (dt : Nat) (s : State) : Host.Outcome State Fault Refusal := .next (s.advance dt).noticesSent

/-! ### Live records -/

/-- READ_LIVE (R172). -/
def readLiveRule (f : Frame) (s : State) : Result × State :=
  match liveKindOf (argumentOf f) with
  | none => s.refuse .badArgument
  | some kind => if (s.liveBody kind (objectOf f)).isSome then (.done, s) else s.refuse .noObject

/-- The block of the record that a READ_LIVE names (R172). -/
def liveBlock (f : Frame) : Follow :=
  match liveKindOf (argumentOf f) with
  | some kind => .send (.live kind (objectOf f))
  | none => .nothing

/-- READ_LIVE (R172). -/
def execReadLive (dt : Nat) (f : Frame) (s : State) : Host.Outcome State Fault Refusal :=
  .next ((s.advance dt).takeFrame .keeping (readLiveRule f) (liveBlock f))

/-- STREAM_LIVE (R174). -/
def streamRule (f : Frame) (s : State) : Result × State :=
  if (liveKindOf (argumentOf f)).isSome then (.done, s) else s.refuse .badArgument

/-- The stream that a STREAM_LIVE begins (R174). -/
def liveStream (f : Frame) : Follow :=
  match liveKindOf (argumentOf f) with
  | some kind => .send (.stream kind 0)
  | none => .nothing

/-- STREAM_LIVE (R174). -/
def execStreamLive (dt : Nat) (f : Frame) (s : State) : Host.Outcome State Fault Refusal :=
  .next ((s.advance dt).takeFrame .keeping (streamRule f) (liveStream f))

/-- A stream in SENDING: the bytes owed before its next block, its kind, and the lowest index not yet passed (R174). -/
def Link.stream? (l : Link) : Option (List Byte × LiveKind × Nat) :=
  match l.heard with
  | (bytes, .sending (.stream kind next)) => some (bytes, kind, next)
  | (bytes, .sending (.begun rest (.streaming kind next))) => some (bytes ++ rest, kind, next)
  | _ => none

/-- The next block of a stream (R174). -/
def State.sendStreamBlock (s : State) : State :=
  match s.link.stream? with
  | some (bytes, kind, next) =>
    match s.nextLive kind next with
    | some (i, body) =>
      { s with link := .sending (.stream kind (i + 1)), dataOut := bytes ++ dataBlock (byteOf kind.code) body }
    | none => s
  | none => s

/-- A stream's next block is sent (R174). -/
def execStreamBlock (dt : Nat) (s : State) : Host.Outcome State Fault Refusal := .next (s.advance dt).sendStreamBlock

/-- The end-of-stream byte, once no record is left to send (R174). -/
def State.finishStream (s : State) : State :=
  match s.link.stream? with
  | some (bytes, kind, next) =>
    match s.nextLive kind next with
    | some _ => s
    | none => { s with link := .awaitingFrame, dataOut := bytes ++ [Config.endOfStreamByte] }
  | none => s

/-- A stream ends with its end-of-stream byte (R174). -/
def execEndOfStream (dt : Nat) (s : State) : Host.Outcome State Fault Refusal := .next (s.advance dt).finishStream

/-- A 0x96 in SENDING: the block or stream being sent is cut off at the byte sent with it, and a command frame begins (R170,
R175). Where that byte is the last one left, a notice block's or the end-of-stream byte, it is sent and the cut counts all the same:
the model's choice (assumption log 5). -/
def State.cutOff (s : State) : State :=
  match s.link.heard with
  | (bytes, .sending what) =>
    { s with link := .receivingFrame what.isStream, dataOut := bytes ++ (s.opening what).1.take 1 }
  | _ => s

/-- A sync byte cuts off what is being sent (R170, R175). -/
def execStreamCutOff (dt : Nat) (s : State) : Host.Outcome State Fault Refusal := .next (s.advance dt).cutOff

/-- STOP_STREAM is answered by its own rule after a cut (R175). -/
def stopClass : FrameClass := { keeps := true, afterCut := true, inLoading := false }

/-- STOP_STREAM (R175). -/
def execStopStream (dt : Nat) (_f : Frame) (s : State) : Host.Outcome State Fault Refusal :=
  .next ((s.advance dt).takeFrame stopClass fun s => (.done, s))

/-! ### Frames that are no command -/

/-- UNKNOWN comes before BUSY in Table 10-2. -/
def unknownClass : FrameClass := { keeps := false, afterCut := false, inLoading := true }

/-- A frame whose code names no command (R167). -/
def execUnknownCommand (dt : Nat) (code : Byte) (_f : Frame) (s : State) : Host.Outcome State Fault Refusal :=
  .next
    (if commandCodes.contains code.toNat then s.advance dt
     else (s.advance dt).takeFrame unknownClass fun s => s.refuse .unknown)

/-- A frame that fails its check (R166). -/
def execCommandFrameCheckFailed (dt : Nat) (code : Byte) (f : Frame) (check : Byte) (s : State) :
    Host.Outcome State Fault Refusal :=
  .next (if check = crc8 (frameHead code f) then s.advance dt else (s.advance dt).failFrame)

/-! ### Select -/

/-- Select is asserted: a transaction begins in AWAITING_FRAME (R165). -/
def State.select (s : State) : State :=
  match s.link with
  | .released => if s.powered then { s with link := .awaitingFrame, resetLine := false, dataOut := [] } else s
  | _ => s

/-- Select is asserted (R165). -/
def execSelectAsserted (dt : Nat) (s : State) : Host.Outcome State Fault Refusal := .next (s.advance dt).select

/-- Select is released: the transaction ends at once, and a RESTART answered DONE takes effect (R169, R182). -/
def State.deselect (s : State) : State :=
  match s.link with
  | .responding _ _ .restart => startUpReset s
  | _ => { s with link := .released, dataOut := [] }

/-- Select is released (R169). -/
def execSelectReleased (dt : Nat) (s : State) : Host.Outcome State Fault Refusal := .next (s.advance dt).deselect

end Sys2Proof.Machine
end

