-- ==== Sys2Proof/Machine/MapCommands.lean ====
section
/-! DEFINITION. The map store's commands and steps: descriptor writes (R12 to R14, R171) and reads (R173), validation (R185),
the store (R183) and the reload (R184). -/

namespace Sys2Proof.Machine

/-! ### Writing and reading descriptors -/

/-- WRITE_MAP_RECORD (R12). -/
def writeRule (f : Frame) (s : State) : Result × State :=
  if s.storing.isSome then s.refuse .busy
  else if s.mode ≠ .config then s.refuse .wrongMode
  else if argumentOf f < 1 ∨ 7 < argumentOf f then s.refuse .badArgument
  else
    match slotOf (argumentOf f) (objectOf f) with
    | none => s.refuse .noObject
    | some _ => (.done, s)

/-- The block that a WRITE_MAP_RECORD awaits (R12). -/
def slotWrite (f : Frame) : Follow :=
  match slotOf (argumentOf f) (objectOf f) with
  | some ref => .awaitBlock ref
  | none => .nothing

/-- WRITE_MAP_RECORD (R12). -/
def execWriteMapRecord (dt : Nat) (f : Frame) (s : State) : Host.Outcome State Fault Refusal :=
  .next ((s.advance dt).takeFrame .ordinary (writeRule f) (slotWrite f))

/-- The write is over, its acceptance byte still to be sent (R165, R171). -/
def State.accept (s : State) (answer : Byte) : State :=
  { s with link := .accepting (Config.waitBytes s.answers).val answer, answers := s.answers + 1 }

/-- A host block that fails its check (R171). -/
def State.blockFails (s : State) : State :=
  ({ s with ride := s.ride.raise .checkError }).accept Config.checkFailedByte

/-- A block with a correct check code, awaited for slot `ref` (R13, R14). -/
def State.writeSlot (s : State) (ref : SlotRef) (kind : Byte) (body : List Byte) : State :=
  match s.map.write ref kind.toNat body with
  | some m => ({ s with map := m }).accept Config.acceptedByte
  | none => s.accept Config.rejectedByte

/-- `n` bytes of a host data block are taken, after what the part owed: it sends 0xFF with each (Table 10-1). -/
def State.blockTaken (s : State) (owed : List Byte) (n : Nat) : State :=
  { s with dataOut := owed ++ List.replicate n Config.waitByte }

/-- A host data block, taken whole (R171): start, kind and length, and but for a length that ends it the body and the CRC. A block
with fewer or more body bytes than it declares is not a whole block. -/
def State.takeBlock (s : State) (kind len : Byte) (body : List Byte) (crc : BitVec 16) : State :=
  match s.link.heard with
  | (owed, .awaitingBlock ref) =>
    if len.toNat = 0 ∨ 64 < len.toNat then (s.blockTaken owed 3).blockFails
    else if body.length ≠ len.toNat then s
    else if crc ≠ crc16 (kind :: len :: body) then (s.blockTaken owed (5 + len.toNat)).blockFails
    else (s.blockTaken owed (5 + len.toNat)).writeSlot ref kind body
  | _ => s

/-- A host data block (R171). -/
def execHostDataBlock (dt : Nat) (kind len : Byte) (body : List Byte) (crc : BitVec 16) (s : State) :
    Host.Outcome State Fault Refusal :=
  .next ((s.advance dt).takeBlock kind len body crc)

/-- A 0x96 in AWAITING_BLOCK: the write is abandoned and a command frame begins (R12, Table 10-1). -/
def State.abandonWrite (s : State) : State :=
  match s.link.heard with
  | (owed, .awaitingBlock _) => { s with link := .receivingFrame false, dataOut := owed ++ [Config.waitByte] }
  | _ => s

/-- An awaited write is abandoned (R12). -/
def execWriteAbandoned (dt : Nat) (s : State) : Host.Outcome State Fault Refusal := .next (s.advance dt).abandonWrite

/-- READ_MAP_RECORD (R173). -/
def readMapRule (f : Frame) (s : State) : Result × State :=
  if argumentOf f < 1 ∨ 8 < argumentOf f then s.refuse .badArgument
  else
    match mapObjectOf (argumentOf f) (objectOf f) with
    | none => s.refuse .noObject
    | some _ => (.done, s)

/-- The block of what a READ_MAP_RECORD names (R173). -/
def mapBlock (f : Frame) : Follow :=
  match mapObjectOf (argumentOf f) (objectOf f) with
  | some obj => .send (.mapRecord obj)
  | none => .nothing

/-- READ_MAP_RECORD (R173). -/
def execReadMapRecord (dt : Nat) (f : Frame) (s : State) : Host.Outcome State Fault Refusal :=
  .next ((s.advance dt).takeFrame .keeping (readMapRule f) (mapBlock f))

/-! ### Validation, store, reload -/

/-- The working map is validated and the report written (R16). -/
def State.validated (s : State) : State := { s with report := s.map.validate }

/-- CHECK_MAP (R185). -/
def execCheckMap (dt : Nat) (_f : Frame) (s : State) : Host.Outcome State Fault Refusal :=
  .next ((s.advance dt).takeFrame .ordinary fun s => (.done, s.validated))

/-- A store begins: its content is fixed, and the image is INVALID until it ends (R183). -/
def State.beginStore (s : State) : State :=
  { s with storing := some s.map, image := { s.image with condition := .invalid } }

/-- STORE_MAP (R183). -/
def storeRule (s : State) : Result × State :=
  if s.storing.isSome then s.refuse .busy
  else if s.mode = .auto then s.refuse .wrongMode
  else if s.map.validate.outcome = .pass then (.done, s.validated.beginStore)
  else s.validated.refuse .conflict

/-- STORE_MAP (R183). -/
def execStoreMap (dt : Nat) (_f : Frame) (s : State) : Host.Outcome State Fault Refusal :=
  .next ((s.advance dt).takeFrame .ordinary storeRule)

/-- A store in progress completes (R183). -/
def State.finishStore (s : State) : State :=
  match s.storing with
  | some m => { s with storing := none, image := Image.written m, ride := s.ride.raise .storeDone }
  | none => s

/-- A store completes (R183). -/
def execStoreComplete (dt : Nat) (s : State) : Host.Outcome State Fault Refusal := .next (s.advance dt).finishStore

/-- RELOAD_MAP (R184). -/
def reloadRule (s : State) : Result × State :=
  if s.storing.isSome then s.refuse .busy
  else if s.mode ≠ .config then s.refuse .wrongMode
  else if s.image.sound then (.done, { s with map := s.image.content })
  else (.conflict, { s with ride := s.ride.raise .loadFailed })

/-- RELOAD_MAP (R184). -/
def execReloadMap (dt : Nat) (_f : Frame) (s : State) : Host.Outcome State Fault Refusal :=
  .next ((s.advance dt).takeFrame .ordinary reloadRule)

end Sys2Proof.Machine
end

