-- ==== Sys2Proof/Machine/StartUp.lean ====
section
/-! DEFINITION. Start-up: RESTART (R182), power (R179, R183), the reset line (R179) and the load (R181). -/

namespace Sys2Proof.Machine

/-- RESTART (R182). -/
def restartRule (s : State) : Result × State :=
  if s.storing.isSome then s.refuse .busy
  else if s.mode = .auto then s.refuse .wrongMode
  else (.done, s)

/-- RESTART (R182). -/
def execRestart (dt : Nat) (_f : Frame) (s : State) : Host.Outcome State Fault Refusal :=
  .next ((s.advance dt).takeFrame .ordinary restartRule .restart)

/-- The last byte of the response to a RESTART answered DONE has been sent (R182). -/
def State.takeRestart (s : State) : State :=
  match s.link with
  | .responding wait rest .restart => { startUpReset s with dataOut := List.replicate wait Config.waitByte ++ rest }
  | _ => s

/-- A RESTART takes effect (R182). -/
def execRestartTakesEffect (dt : Nat) (s : State) : Host.Outcome State Fault Refusal := .next (s.advance dt).takeRestart

/-- Power is applied: a start-up reset (R179). The reset line then reads released (assumption log 4). -/
def State.powerUp (s : State) : State := if s.powered then s else { startUpReset s with powered := true, resetLine := false }

/-- Power is applied (R179). -/
def execPowerOn (dt : Nat) (s : State) : Host.Outcome State Fault Refusal := .next (s.advance dt).powerUp

/-- Power fails: the live state is lost, and a store in progress leaves the image INVALID (R180, R183; assumption log 15). The
reset line then reads released (assumption log 4). -/
def State.powerDown (s : State) : State := { startUpReset s with powered := false, resetLine := false }

/-- Power fails (R183). -/
def execPowerFail (dt : Nat) (s : State) : Host.Outcome State Fault Refusal := .next (s.advance dt).powerDown

/-- The reset line is asserted: a start-up reset (R179). -/
def State.resetPin (s : State) : State := if s.powered then { startUpReset s with resetLine := true } else s

/-- The reset line is asserted (R179). -/
def execResetAsserted (dt : Nat) (s : State) : Host.Outcome State Fault Refusal := .next (s.advance dt).resetPin

/-- The load, in LOADING with power applied; it follows the end of the reset (R181). -/
def State.load (s : State) : State :=
  if s.powered = true ∧ s.mode = .loading then loadImage { s with resetLine := false } else s

/-- The load (R181). -/
def execLoad (dt : Nat) (s : State) : Host.Outcome State Fault Refusal := .next (s.advance dt).load

end Sys2Proof.Machine
end

