-- ==== Sys2Proof/Machine/StationCommands.lean ====
section
/-! DEFINITION. DISPATCH (R149) and CANCEL_DISPATCH (R151). -/

namespace Sys2Proof.Machine

/-- The state of station `st`; EMPTY where it has no record. -/
def Ride.stationState (r : Ride) (st : StationIx) : StationState := ((r.station? st).map (·.state)).getD .empty

/-- DISPATCH (Table 8-5). -/
def dispatchRule (f : Frame) (s : State) : Result × State :=
  if s.mode ≠ .auto then s.refuse .wrongMode
  else
    match s.map.stationNamed (objectOf f) with
    | none => s.refuse .noObject
    | some (st, d) =>
      if d.authority = .buttons then s.refuse .badArgument
      else if s.ride.latched then s.refuse .conflict
      else if s.ride.stationState st ≠ .ready then s.refuse .conflict
      else (.done, s.onRide fun c r => stationEvent c st (.demand .link (dueAfter c.now d.dispatchWait)) r)

/-- DISPATCH (R149). -/
def execDispatch (dt : Nat) (f : Frame) (s : State) : Host.Outcome State Fault Refusal :=
  .next ((s.advance dt).takeFrame .ordinary (dispatchRule f))

/-- CANCEL_DISPATCH (R151). -/
def cancelRule (f : Frame) (s : State) : Result × State :=
  if s.mode = .config then s.refuse .wrongMode
  else
    match s.map.stationNamed (objectOf f) with
    | none => s.refuse .noObject
    | some (st, _) =>
      if (s.ride.stationState st).isReleasing then s.refuse .conflict
      else if (s.ride.stationState st).isPending then (.done, s.onRide fun c r => stationEvent c st .cancel r)
      else (.done, s)

/-- CANCEL_DISPATCH (R151). -/
def execCancelDispatch (dt : Nat) (f : Frame) (s : State) : Host.Outcome State Fault Refusal :=
  .next ((s.advance dt).takeFrame .ordinary (cancelRule f))

end Sys2Proof.Machine
end

