-- ==== Sys2Proof/Machine/SwitchCommands.lean ====
section
/-! DEFINITION. SET_ROUTE_MODE (R122) and MOVE_SWITCH (R123). -/

namespace Sys2Proof.Machine

/-- SET_ROUTE_MODE (R122). -/
def routeModeRule (f : Frame) (s : State) : Result × State :=
  match s.map.switchNamed (objectOf f) with
  | none => s.refuse .noObject
  | some (w, d) =>
    match routeModeOf (argumentOf f), d.kind with
    | some mode, .diverge _ =>
      (.done, { s with map := { s.map with switches := tput s.map.switches w (some { d with kind := .diverge mode }) } })
    | _, _ => s.refuse .badArgument

/-- SET_ROUTE_MODE (R122). -/
def execSetRouteMode (dt : Nat) (f : Frame) (s : State) : Host.Outcome State Fault Refusal :=
  .next ((s.advance dt).takeFrame .ordinary (routeModeRule f))

/-- A merge switch's arbiter is not IDLE. -/
def SwitchRole.arbiterBusy : SwitchRole → Bool
  | .merge _ _ .idle _ => false
  | .merge _ _ _ _ => true
  | .diverge _ _ => false

/-- MOVE_SWITCH (R123). -/
def moveSwitchRule (f : Frame) (s : State) : Result × State :=
  if s.mode ≠ .maintenance then s.refuse .wrongMode
  else
    match s.map.switchNamed (objectOf f) with
    | none => s.refuse .noObject
    | some (w, _) =>
      match sideOf (argumentOf f) with
      | none => s.refuse .badArgument
      | some side =>
        if (s.ride.switch? w).any (fun x => x.pos.faulted || x.role.arbiterBusy) || !switchZoneClear s.ctx s.ride w then
          s.refuse .conflict
        else (.done, s.onRide fun c r => requestMove c w side .link r)

/-- MOVE_SWITCH (R123). -/
def execMoveSwitch (dt : Nat) (f : Frame) (s : State) : Host.Outcome State Fault Refusal :=
  .next ((s.advance dt).takeFrame .ordinary (moveSwitchRule f))

end Sys2Proof.Machine
end

