-- ==== Sys2Proof/Machine/TrainCommands.lean ====
section
/-! DEFINITION. The train commands: ADMIT (R50, R72), RETIRE (R50, R73), STEP (R74, R119) and DIRECT (R76). -/

namespace Sys2Proof.Machine

/-! ### ADMIT -/

/-- Boundary `b` is in passage state CLEAR. -/
def State.boundaryClear (s : State) (b : BoundaryIx) : Bool := (tget s.bounds b).any fun x => x.passage == .clear

/-- The exit boundaries of a zone (R2). -/
def CircuitMap.exits (m : CircuitMap) (z : ZoneIx) : List BoundaryIx := (m.successors z).filterMap (m.exitTo z)

/-- The zone's element is CLOSED. -/
def Ride.elementClosed (r : Ride) (z : ZoneIx) : Bool :=
  match r.element? z with
  | some (.brake .closed _) | some (.drive .closed _) => true
  | _ => false

/-- A train can be admitted to a zone (R72, condition 3). -/
def State.canAdmit (s : State) (z : ZoneIx) (d : ZoneDesc) : Bool :=
  ((s.ride.zone? z).any fun x => x.claim == .clear && x.fault == none) &&
  s.map.isStopping z && s.ride.elementClosed z &&
  (d.entries ++ s.map.exits z).all s.boundaryClear &&
  (match d.berth with
   | some line => tget s.sensors.covered line
   | none => true)

/-- The lowest free slot (R51). -/
def Ride.freeIx (r : Ride) : Option SlotIx := (List.finRange 16).find? fun t => (r.train? t).isNone

/-- A record already carries the label. -/
def Ride.labelUsed (r : Ride) (label : Nat) : Bool := r.trainsList.any fun tx => tx.2.label == label

/-- The record of a train admitted to zone `z` (R72). -/
def admittedTrain (spur : Bool) (z : ZoneIx) (label : Nat) : Train :=
  { label, phase := if spur then .parked else .held, head := z, tail := none, dir := .forward, chain := [], guard := none,
    deadline := none, lastSpeed := none, awaited := none, early := 0, overdue := 0, directive := none, stepping := false }

/-- A train is created in slot `t`; its zone is OCCUPIED, and a station zone learns of a train HELD there (R50, R72). -/
def admitAt (c : Ctx) (t : SlotIx) (z : ZoneIx) (label : Nat) (r : Ride) : Ride :=
  let r1 := setClaim c z (.occupied t) (r.putTrain t (admittedTrain (c.map.isSpur z) z label))
  if c.map.isSpur z then r1 else zoneStationEvent c z .held r1

/-- ADMIT (Table 3-10, R72). -/
def admitRule (f : Frame) (s : State) : Result × State :=
  if s.mode ≠ .maintenance then s.refuse .wrongMode
  else if argumentOf f < 1 ∨ 255 < argumentOf f then s.refuse .badArgument
  else
    match s.map.zoneNamed (objectOf f) with
    | none => s.refuse .noObject
    | some (z, d) =>
      if s.ride.labelUsed (argumentOf f) then s.refuse .badArgument
      else if s.map.admissionLimit ≤ s.ride.trainCount then s.refuse .capacity
      else
        match s.ride.freeIx with
        | none => s.refuse .capacity
        | some t =>
          if s.canAdmit z d then (.done, s.onRide fun c r => admitAt c t z (argumentOf f) r) else s.refuse .conflict

/-- ADMIT (R72). -/
def execAdmitTrain (dt : Nat) (f : Frame) (s : State) : Host.Outcome State Fault Refusal :=
  .next ((s.advance dt).takeFrame .ordinary (admitRule f))

/-! ### RETIRE -/

/-- Every zone that names `t` goes to CLEAR (R50). -/
def clearZonesOf (c : Ctx) (t : SlotIx) (r : Ride) : Ride :=
  overAll (fun (z : ZoneIx) r => if (r.claim? z).bind (·.holder) = some t then setClaim c z .clear r else r) r

/-- The slot of `t` is freed, its zones and everything held for it are returned, and the elements of the zones it occupied are
commanded closed (R50, R73). -/
def retireTrain (c : Ctx) (t : SlotIx) (r : Ride) : Ride :=
  closeWhere c (fun z => r.occupant? z == some t)
    ((withdrawSwitches t ((clearZonesOf c t r).putPresented t none)).freeSlot t)

/-- The phases in which a train may be retired (R73). -/
def TrainPhase.retirable : TrainPhase → Bool
  | .held | .parked | .overdue | .lost => true
  | _ => false

/-- RETIRE (Table 3-10, R73). -/
def retireRule (f : Frame) (s : State) : Result × State :=
  if s.mode ≠ .maintenance then s.refuse .wrongMode
  else
    match s.ride.trainNamed (objectOf f) with
    | none => s.refuse .noObject
    | some (t, x) =>
      if x.phase.retirable then (.done, s.onRide fun c r => retireTrain c t r) else s.refuse .conflict

/-- RETIRE (R73). -/
def execRetire (dt : Nat) (f : Frame) (s : State) : Host.Outcome State Fault Refusal :=
  .next ((s.advance dt).takeFrame .ordinary (retireRule f))

/-! ### STEP -/

/-- The chain a STEP reserves, where R74 lets it be reserved at once. -/
def stepChain (c : Ctx) (r : Ride) (t : SlotIx) (x : Train) : Option (List ZoneIx) :=
  if x.phase == .held && readyToReserve c r x && stationMeets c x.head c.stationProofs then
    (prospectiveChain c r x).filter (chainAvailable c r t true x.head)
  else none

/-- Every arbiter of the chain found IDLE is granted to the stepping train's side (R119). -/
def grantChain (c : Ctx) (t : SlotIx) : ZoneIx → List ZoneIx → Ride → Ride
  | _, [], r => r
  | before, z :: zs, r =>
    grantChain c t z zs
      (match c.map.mergeAt z, c.map.sideFrom z before with
       | some w, some side => grantStep w side t r
       | _, _ => r)

/-- A STEP is taken: the chain is reserved and the element commanded open, at the creep code for a drive (R74). -/
def takeStep (c : Ctx) (t : SlotIx) (x : Train) (chain : List ZoneIx) (r : Ride) : Ride :=
  reserveChain c t chain true (grantChain c t x.head chain (r.putTrain t { x with stepping := true }))

/-- STEP (Table 3-10, R74). -/
def stepRule (f : Frame) (s : State) : Result × State :=
  if s.mode ≠ .maintenance then s.refuse .wrongMode
  else
    match s.ride.trainNamed (objectOf f) with
    | none => s.refuse .noObject
    | some (t, x) =>
      match stepChain s.ctx s.ride t x with
      | none => s.refuse .conflict
      | some chain => (.done, s.onRide fun c r => takeStep c t x chain r)

/-- STEP (R74). -/
def execStepTrain (dt : Nat) (f : Frame) (s : State) : Host.Outcome State Fault Refusal :=
  .next ((s.advance dt).takeFrame .ordinary (stepRule f))

/-! ### DIRECT -/

/-- Switch `w` is a configured DIVERGE switch. -/
def CircuitMap.isDiverge (m : CircuitMap) (w : SwitchIx) : Bool :=
  match m.switch w with
  | some { kind := .diverge _, .. } => true
  | _ => false

/-- DIRECT (Table 3-10, R76). That a free slot is answered NO_OBJECT before a switch that is vacant or no DIVERGE is answered
BAD_ARGUMENT is the model's choice (assumption log 25). -/
def directRule (f : Frame) (s : State) : Result × State :=
  if s.mode = .config then s.refuse .wrongMode
  else
    match directiveOf (argumentOf f) with
    | none => s.refuse .badArgument
    | some dir =>
      match s.ride.trainNamed (objectOf f) with
      | none => s.refuse .noObject
      | some (t, x) =>
        match dir with
        | .remove => (.done, { s with ride := s.ride.putTrain t { x with directive := none } })
        | .route w side =>
          if s.map.isDiverge w then (.done, { s with ride := s.ride.putTrain t { x with directive := some (w, side) } })
          else s.refuse .badArgument

/-- DIRECT (R76). -/
def execDirect (dt : Nat) (f : Frame) (s : State) : Host.Outcome State Fault Refusal :=
  .next ((s.advance dt).takeFrame .ordinary (directRule f))

end Sys2Proof.Machine
end

