-- ==== Sys2Proof/Machine/Dispatch.lean ====
section
/-! DEFINITION. The effect of every command: one arm for each row of the table, each one call of its meaning. -/

namespace Sys2Proof.Machine

/-- The effect of a command on everything but the queue. -/
def exec (i : Instr) (s : State) : Host.Outcome State Fault Refusal :=
  match i with
  | .getCondition dt f => Sys2Proof.Machine.execGetCondition dt f s
  | .setMode dt f => Sys2Proof.Machine.execSetMode dt f s
  | .restart dt f => Sys2Proof.Machine.execRestart dt f s
  | .restartTakesEffect dt => Sys2Proof.Machine.execRestartTakesEffect dt s
  | .storeMap dt f => Sys2Proof.Machine.execStoreMap dt f s
  | .storeComplete dt => Sys2Proof.Machine.execStoreComplete dt s
  | .reloadMap dt f => Sys2Proof.Machine.execReloadMap dt f s
  | .writeMapRecord dt f => Sys2Proof.Machine.execWriteMapRecord dt f s
  | .hostDataBlock dt kind len body crc => Sys2Proof.Machine.execHostDataBlock dt kind len body crc s
  | .writeAbandoned dt => Sys2Proof.Machine.execWriteAbandoned dt s
  | .readMapRecord dt f => Sys2Proof.Machine.execReadMapRecord dt f s
  | .checkMap dt f => Sys2Proof.Machine.execCheckMap dt f s
  | .readLive dt f => Sys2Proof.Machine.execReadLive dt f s
  | .streamLive dt f => Sys2Proof.Machine.execStreamLive dt f s
  | .streamBlock dt => Sys2Proof.Machine.execStreamBlock dt s
  | .endOfStream dt => Sys2Proof.Machine.execEndOfStream dt s
  | .streamCutOff dt => Sys2Proof.Machine.execStreamCutOff dt s
  | .stopStream dt f => Sys2Proof.Machine.execStopStream dt f s
  | .noticeBlockSent dt => Sys2Proof.Machine.execNoticeBlockSent dt s
  | .admitTrain dt f => Sys2Proof.Machine.execAdmitTrain dt f s
  | .retire dt f => Sys2Proof.Machine.execRetire dt f s
  | .stepTrain dt f => Sys2Proof.Machine.execStepTrain dt f s
  | .direct dt f => Sys2Proof.Machine.execDirect dt f s
  | .hold dt f => Sys2Proof.Machine.execHold dt f s
  | .releaseHold dt f => Sys2Proof.Machine.execReleaseHold dt f s
  | .selectFirst dt f => Sys2Proof.Machine.execSelectFirst dt f s
  | .selectLast dt f => Sys2Proof.Machine.execSelectLast dt f s
  | .deselect dt f => Sys2Proof.Machine.execDeselect dt f s
  | .applySelection dt f => Sys2Proof.Machine.execApplySelection dt f s
  | .rideStop dt f => Sys2Proof.Machine.execRideStop dt f s
  | .resume dt f => Sys2Proof.Machine.execResume dt f s
  | .clearFaultZone dt f => Sys2Proof.Machine.execClearFaultZone dt f s
  | .clearFaultBoundary dt obj => Sys2Proof.Machine.execClearFaultBoundary dt obj s
  | .clearFaultElement dt obj => Sys2Proof.Machine.execClearFaultElement dt obj s
  | .clearFaultSwitch dt obj => Sys2Proof.Machine.execClearFaultSwitch dt obj s
  | .dispatch dt f => Sys2Proof.Machine.execDispatch dt f s
  | .cancelDispatch dt f => Sys2Proof.Machine.execCancelDispatch dt f s
  | .setRouteMode dt f => Sys2Proof.Machine.execSetRouteMode dt f s
  | .moveSwitch dt f => Sys2Proof.Machine.execMoveSwitch dt f s
  | .unknownCommand dt code f => Sys2Proof.Machine.execUnknownCommand dt code f s
  | .commandFrameCheckFailed dt code f check => Sys2Proof.Machine.execCommandFrameCheckFailed dt code f check s
  | .selectAsserted dt => Sys2Proof.Machine.execSelectAsserted dt s
  | .selectReleased dt => Sys2Proof.Machine.execSelectReleased dt s
  | .powerOn dt => Sys2Proof.Machine.execPowerOn dt s
  | .powerFail dt => Sys2Proof.Machine.execPowerFail dt s
  | .resetAsserted dt => Sys2Proof.Machine.execResetAsserted dt s
  | .load dt => Sys2Proof.Machine.execLoad dt s
  | .trackSensorRawChange dt line high => Sys2Proof.Machine.execTrackSensorRawChange dt line high s
  | .trackSensorEdge dt line => Sys2Proof.Machine.execTrackSensorEdge dt line s
  | .trackFilterStart dt => Sys2Proof.Machine.execTrackFilterStart dt s
  | .gateStall dt b => Sys2Proof.Machine.execGateStall dt b s
  | .journeyDeadlineExpiry dt t => Sys2Proof.Machine.execJourneyDeadlineExpiry dt t s
  | .stopDeadlineExpiry dt t => Sys2Proof.Machine.execStopDeadlineExpiry dt t s
  | .brakeProofChange dt line high => Sys2Proof.Machine.execBrakeProofChange dt line high s
  | .proofTimerExpiry dt z => Sys2Proof.Machine.execProofTimerExpiry dt z s
  | .switchProofChange dt line high => Sys2Proof.Machine.execSwitchProofChange dt line high s
  | .moveTimerExpiry dt w => Sys2Proof.Machine.execMoveTimerExpiry dt w s
  | .driveStep dt ch => Sys2Proof.Machine.execDriveStep dt ch s
  | .functionInputRawChange dt j high => Sys2Proof.Machine.execFunctionInputRawChange dt j high s
  | .functionInputChange dt j => Sys2Proof.Machine.execFunctionInputChange dt j s
  | .functionInputStart dt => Sys2Proof.Machine.execFunctionInputStart dt s
  | .pairWindowExpiry dt st => Sys2Proof.Machine.execPairWindowExpiry dt st s
  | .dispatchWaitExpiry dt st => Sys2Proof.Machine.execDispatchWaitExpiry dt st s

end Sys2Proof.Machine
end

