-- ==== Sys2Proof/Machine/Step.lean ====
section
/-! DEFINITION. One step: the command at the front of the queue is taken and its effect is exec's; on an empty queue the host
clocks a byte of fill where a transaction is open, and otherwise the block idles. -/

namespace Sys2Proof.Machine

/-- One step of the block. On an empty queue nothing is commanded and no time passes: within a transaction the host clocks a byte
of fill (Table 10-1), and outside one the state stays as it is (assumption logs 1 and 5). -/
def step (s : State) : Host.Outcome State Fault Refusal :=
  match s.pending with
  | [] => .next s.clock
  | i :: rest => exec i { s with pending := rest }

/-- The state with the command that a word spells put at the front of its queue; unchanged where the word spells none. -/
def State.withFetchWord (s : State) (nbits w : Nat) : State :=
  match decodeTableWord nbits w with
  | some i => { s with pending := i :: s.pending }
  | none => s

end Sys2Proof.Machine
end

