-- ==== Sys2Proof/Safety.lean ====
section
/-! DEFINITION. What counts as a safe state and a safe run of the block, in the terms the claims use. -/

namespace Sys2Proof.Machine

/-- The drive outputs of the part are off: every setpoint presents 0 and every enable is off. -/
def State.drivesOff (s : State) : Prop := ∀ ch, s.setpoint ch = 0 ∧ s.enable ch = false

/-- Every element command output is de-asserted, so every brake closes. -/
def State.brakesClosing (s : State) : Prop := ∀ z, s.elementOutput z = false

/-- Every switch command output is released. -/
def State.switchesReleased (s : State) : Prop := ∀ line, s.switchOutput line = false

/-- The outputs stand as the manual gives them for a part without a map in use (Table 11-2, R179). -/
def State.outputsReleased (s : State) : Prop := s.drivesOff ∧ s.brakesClosing ∧ s.switchesReleased

/-- The working map and the map a store is writing hold every field in its range (R1). -/
def State.mapsInRange (s : State) : Prop := s.map.inRange ∧ s.image.content.inRange ∧ ∀ m, s.storing = some m → m.inRange

/-- The run of the block from `s` ends in a next state after every number of steps: no fault and no refusal. -/
def State.runsOn (s : State) : Prop := ∀ n, ∃ t, Sys2Proof.core.run n s = .next t

/-! ### Reading a ride field by field -/

/-- Source `src` holds zone `z` (R37). -/
def Ride.held (r : Ride) (z : ZoneIx) (src : HoldSource) : Bool := (r.zone? z).any fun x => x.holds? src

/-- The fault cause of zone `z` (R48). -/
def Ride.zoneFault (r : Ride) (z : ZoneIx) : Option ZoneFault := (r.zone? z).bind (·.fault)

/-- The entry speed of zone `z` (R24). -/
def Ride.entrySpeed (r : Ride) (z : ZoneIx) : Option Nat := (r.zone? z).bind (·.entrySpeed)

/-- What a train's record says of which train it is, where it stands and what has been counted: the fields that only ADMIT, the
track and the deadlines change. -/
structure Standing where
  label : Nat
  head : ZoneIx
  tail : Option ZoneIx
  guard : Option (ZoneIx × BoundaryIx)
  lastSpeed : Option Nat
  awaited : Option Awaited
  early : Nat
  overdue : Nat
deriving DecidableEq, Repr

/-- The standing of the train in slot `t`. -/
def Ride.standing (r : Ride) (t : SlotIx) : Option Standing :=
  (r.train? t).map fun x =>
    { label := x.label, head := x.head, tail := x.tail, guard := x.guard, lastSpeed := x.lastSpeed, awaited := x.awaited,
      early := x.early, overdue := x.overdue }

/-- The drives' targets are all 0, but for a channel whose descriptor is gone (R136). -/
def State.drivesStopping (s : State) : Prop :=
  ∀ ch x, s.ride.channel? ch = some x → (s.map.drive ch).isSome = true → x.target = 0

/-- No station holds a demand. -/
def State.noDemand (s : State) : Prop := ∀ st x, s.ride.station? st = some x → x.state.isPending = false

/-! ### What a step leaves as it was -/

/-- What the reconsideration that ends a step leaves as it was: every hold source, zone fault and entry speed, which trains
there are and where they stand. Ride stop causes and notices may only be added. -/
structure Ride.Keeps (a b : Ride) : Prop where
  holds : ∀ z src, b.held z src = a.held z src
  faults : ∀ z, b.zoneFault z = a.zoneFault z
  speeds : ∀ z, b.entrySpeed z = a.entrySpeed z
  trains : ∀ t, b.standing t = a.standing t
  causes : ∀ cause, a.cause? cause = true → b.cause? cause = true
  notices : ∀ n, a.notice? n = true → b.notice? n = true

/-- The map store is as it was (R1, R16, R180). -/
def State.sameStore (s t : State) : Prop :=
  t.map = s.map ∧ t.image = s.image ∧ t.storing = s.storing ∧ t.report = s.report

/-- The pins, the filters and the boundary records are as they were. -/
def State.sameLines (s t : State) : Prop :=
  t.powered = s.powered ∧ t.resetLine = s.resetLine ∧ t.sensors = s.sensors ∧ t.bounds = s.bounds ∧ t.proofs = s.proofs ∧
  t.inputs = s.inputs

/-- Nothing has changed but the time base, the ride, the selection and the link. -/
def State.onlyRide (s : State) (dt : Nat) (t : State) : Prop :=
  t.pending = s.pending ∧ t.now = s.now + dt ∧ s.sameStore t ∧ s.sameLines t ∧ t.mode = s.mode

/-- Nothing has changed but the time base and the ride. -/
def State.onlyEvent (s : State) (dt : Nat) (t : State) : Prop :=
  s.onlyRide dt t ∧ t.selection = s.selection ∧ t.link = s.link ∧ t.dataOut = s.dataOut ∧
  t.answers = s.answers

/-! ### The command link in statements -/

/-- A command frame is taken and handed to its owner: the transaction awaits or receives one, no stream was cut off, and the
part is not in LOADING (Table 10-2). -/
def State.takes (s : State) : Prop := s.link.takesFrame = some false ∧ s.mode ≠ .loading

/-- A command has been answered: its response is prepared, after at most 7 bytes of 0xFF, its condition byte that of the state
after the command (R165, R168); `next` follows the response. -/
def State.answered (t : State) (discarded : Bool) (res : Result) (next : Follow := .nothing) : Prop :=
  ∃ wait, wait ≤ 7 ∧ t.link = .responding wait (responseFrame discarded res t.conditionByte) next

/-- A host block has been answered: the acceptance byte is prepared, after at most 7 bytes of 0xFF (R165, R171). -/
def State.accepting (t : State) (answer : Byte) : Prop := ∃ wait, wait ≤ 7 ∧ t.link = .accepting wait answer

/-- The ride as a command that R47 does not except finds it: an open selection has been discarded, with the notice. -/
def State.told (s : State) : Ride := if s.selection.isSome then s.ride.raise .selectionDiscarded else s.ride

/-- The ride with LINK added to a zone, or removed from it. -/
def Ride.withLink (r : Ride) (hold : Bool) (z : ZoneIx) : Ride :=
  match r.zone? z with
  | some x => r.putZone z { x with holds := if hold then withBit x.holds HoldSource.link.bit else withoutBit x.holds HoldSource.link.bit }
  | none => r

/-- A RESTART has been answered DONE and has not taken effect (R182). -/
def Link.restartDue : Link → Bool
  | .responding _ _ .restart => true
  | _ => false

/-- The step makes a start-up reset (R179, R182). -/
def State.resetBy (s : State) : Instr → Bool
  | .restartTakesEffect _ | .selectReleased _ => s.link.restartDue
  | .powerOn _ => !s.powered
  | .powerFail _ => true
  | .resetAsserted _ => s.powered
  | _ => false

/-- The step may take a map up, or put it away (R156, R157, R181). -/
def takesUp : Instr → Bool
  | .setMode _ _ | .load _ => true
  | _ => false

/-- The commands that leave an open hold selection open (R47). -/
def keepsSelection : Instr → Bool
  | .getCondition _ _ | .readLive _ _ | .readMapRecord _ _ | .streamLive _ _ | .stopStream _ _ | .selectFirst _ _
  | .selectLast _ _ | .deselect _ _ | .applySelection _ _ => true
  | _ => false

/-- A command has been answered without being carried out: of all the state only an open selection is discarded, where the
command is not one of those R47 excepts, and the answer is on the link. -/
def State.turnedAway (s : State) (i : Instr) (res : Result) (t : State) : Prop :=
  s.onlyRide i.wait t ∧ t.ride = (if keepsSelection i then s.ride else s.told) ∧
  t.selection = (if keepsSelection i then s.selection else none) ∧
  t.answered (!keepsSelection i && s.selection.isSome) res

/-! ### Descriptors in statements -/

/-- A slot holds the descriptor that a body spells; it is vacant where the body spells none, as the vacating form does (R13, R14). -/
def CircuitMap.holds (m : CircuitMap) (ref : SlotRef) (body : List Byte) : Prop :=
  match ref with
  | .zone z => m.zone z = decodeZone body
  | .boundary b => m.boundary b = decodeBoundary body
  | .switch w => m.switch w = decodeSwitch body
  | .station st => m.station st = decodeStation body
  | .drive ch => m.drive ch = decodeDrive body
  | .input i => m.input i = decodeInput body
  | .circuit => m.circuit = decodeCircuit body

/-- A body spells a descriptor of a slot's kind (R5 to R11). -/
def SlotRef.spelled (ref : SlotRef) (body : List Byte) : Bool :=
  match ref with
  | .zone _ => (decodeZone body).isSome
  | .boundary _ => (decodeBoundary body).isSome
  | .switch _ => (decodeSwitch body).isSome
  | .station _ => (decodeStation body).isSome
  | .drive _ => (decodeDrive body).isSome
  | .input _ => (decodeInput body).isSome
  | .circuit => (decodeCircuit body).isSome

/-! ### Records in statements

What the bytes of a live record, of the notice block and of the condition byte say, field by field, in the codes of the tables. -/

/-- The `len` bytes of a body from byte `at_` on hold `value`, most significant byte first, where the value fits them. -/
def Holds (body : List Byte) (at_ len value : Nat) : Prop :=
  value < 256 ^ len → ((body.drop at_).take len).foldl (fun n b => 256 * n + b.toNat) 0 = value

/-- The number of a record or a slot; 0xFF where it is absent. -/
def indexOr255 {n : Nat} (i : Option (Fin n)) : Nat := (i.map (·.val)).getD 255

/-- A position or a side: 0 for A, 1 for B, 0xFF where it is absent. -/
def sideOr255 : Option Side → Nat
  | some .a => 0
  | some .b => 1
  | none => 255

/-- Whole milliseconds to `due`, rounded up; 0 where no timer runs. -/
def msTo (now : Nat) (due : Option Nat) : Nat := ((due.getD now - now) + 999) / 1000

/-- The state of an element (Tables 7-9 and 10-12). -/
def stateShown : Element → Nat
  | .brake .closed _ | .drive .closed _ => 0
  | .brake (.opening _) _ | .drive .opening _ => 1
  | .brake .opened _ | .drive .opened _ => 2
  | .brake (.closing _) _ | .drive .closing _ => 3
  | .brake (.fault _) _ => 4

/-- The command of an element (Table 7-9). -/
def commandShown : Element → Nat
  | .brake _ .close | .drive _ .close => 0
  | .brake _ .openRun | .drive _ .openRun => 1
  | .brake _ .openCreep | .drive _ .openCreep => 2

/-- The fault cause of an element (Table 7-9). -/
def faultShown : Element → Nat
  | .brake (.fault .openTimeout) _ => 1
  | .brake (.fault .closeTimeout) _ => 2
  | .brake (.fault .proofConflict) _ => 3
  | .brake (.fault .proofLost) _ => 4
  | _ => 0

/-- A ZONE record's body (Table 10-12). -/
structure ZoneShown (s : State) (z : ZoneIx) (x : ZoneRec) (body : List Byte) : Prop where
  length : body.length = 10
  zone : Holds body 0 1 z.val
  phase : Holds body 1 1 (match x.claim with
    | .clear => 0 | .reserved _ => 1 | .entry _ => 2 | .occupied _ => 3 | .exit _ => 4 | .guarded _ => 5)
  occupant : Holds body 2 1 (indexOr255 (s.ride.occupant? z))
  holder : Holds body 3 1 (indexOr255 x.claim.holder)
  holds : Holds body 4 1 ((x.holds? .link).toNat + 2 * (x.holds? .input).toNat + 4 * (x.holds? .rollback).toNat +
    8 * (x.holds? .overdue).toNat)
  fault : Holds body 5 1 (match x.fault with
    | none => 0 | some .unexpected => 1 | some .overrun => 2 | some .speed => 3 | some .boundary => 4)
  speed : Holds body 6 2 (x.entrySpeed.getD 0xFFFF)
  element : Holds body 8 1 (((s.ride.element? z).map stateShown).getD 5)
  flags : Holds body 9 1 x.entrySpeed.isSome.toNat

/-- A TRAIN record's body (Table 10-13). -/
structure TrainShown (s : State) (t : SlotIx) (x : Train) (body : List Byte) : Prop where
  length : body.length = 28
  slot : Holds body 0 1 t.val
  label : Holds body 1 1 x.label
  phase : Holds body 2 1 (match x.phase with
    | .entering => 0 | .running => 1 | .stopping => 2 | .held => 3 | .leaving => 4 | .rollback => 5 | .overdue => 6
    | .parked => 7 | .lost => 8)
  head : Holds body 3 1 x.head.val
  tail : Holds body 4 1 (indexOr255 x.tail)
  dir : Holds body 5 1 (match x.dir with | .forward => 0 | .reverse => 1)
  chainLength : Holds body 6 1 x.chain.length
  chain : ∀ k, k < 4 → Holds body (7 + k) 1 (indexOr255 x.chain[k]?)
  guardZone : Holds body 11 1 (indexOr255 (x.guard.map (·.1)))
  guardBoundary : Holds body 12 1 (indexOr255 (x.guard.map (·.2)))
  deadline : Holds body 13 1 (match x.deadline with
    | none => 0 | some { kind := .journey, .. } => 1 | some { kind := .stop, .. } => 2)
  remaining : Holds body 14 3 (msTo s.now (x.deadline.map fun dl => dl.start + dl.duration * 1000))
  early : Holds body 17 3 ((x.deadline.bind (·.early)).getD 0xFFFFFF)
  speed : Holds body 20 2 (x.lastSpeed.getD 0xFFFF)
  awaited : Holds body 22 1 (match x.awaited with
    | some .approach => 0 | some .berth => 1 | some .noseIn => 2 | none => 255)
  earlyCount : Holds body 23 1 x.early
  overdueCount : Holds body 24 1 x.overdue
  directiveSwitch : Holds body 25 1 (indexOr255 (x.directive.map (·.1)))
  directiveRoute : Holds body 26 1 (sideOr255 (x.directive.map (·.2)))
  flags : Holds body 27 1 (x.stepping.toNat + 2 * x.lastSpeed.isSome.toNat)

/-- A BOUNDARY record's body (Table 4-8). -/
structure BoundaryShown (s : State) (b : BoundaryIx) (d : BoundaryDesc) (x : BoundaryRec) (body : List Byte) : Prop where
  length : body.length = 12
  boundary : Holds body 0 1 b.val
  passage : Holds body 1 1 (match x.passage with
    | .clear => 0 | .entering _ _ => 1 | .spanning _ => 2 | .leaving _ => 3 | .fault _ => 4)
  dir : Holds body 2 1 (match x.passage with
    | .entering .forward _ | .spanning .forward | .leaving .forward => 0
    | .entering .reverse _ | .spanning .reverse | .leaving .reverse => 1
    | .clear | .fault _ => 255)
  uLevel : Holds body 3 1 (tget s.sensors.covered d.uLine).toNat
  dLevel : Holds body 4 1 (tget s.sensors.covered d.dLine).toNat
  fault : Holds body 5 1 (match x.passage with
    | .fault .reverseUnexpected => 1 | .fault .coveredAtStart => 2 | _ => 0)
  gateTime : Holds body 6 3 (match x.passage with | .entering _ start => min 16777215 (s.now - start) | _ => 0)
  stalled : Holds body 9 1 x.stalled.toNat
  interval : Holds body 10 2 (match x.lastInterval with | some v => min 65535 ((v + 255) / 256) | none => 0)

/-- A SWITCH record's body (Table 6-7). -/
structure SwitchShown (s : State) (w : SwitchIx) (d : SwitchDesc) (x : SwitchRec) (body : List Byte) : Prop where
  length : body.length = 17
  switch : Holds body 0 1 w.val
  kind : Holds body 1 1 (match d.kind with | .diverge _ => 1 | .merge => 2)
  position : Holds body 2 1 (match x.pos with
    | .locked .a => 0 | .locked .b => 1 | .moving .a _ => 2 | .moving .b _ => 3 | .fault _ => 4)
  fault : Holds body 3 1 (match x.pos with
    | .fault .moveTimeout => 1 | .fault .proofConflict => 2 | .fault .proofLost => 3 | .fault .noPosition => 4
    | .fault .enteredInMove => 5 | _ => 0)
  proofA : Holds body 4 1 (tget s.proofs d.proofA).toNat
  proofB : Holds body 5 1 (tget s.proofs d.proofB).toNat
  timer : Holds body 6 2 (msTo s.now (match x.pos with | .moving _ due => some due | _ => none))
  pendingPosition : Holds body 8 1 (sideOr255 (x.pending.map (·.1)))
  pendingSource : Holds body 9 1 (match x.pending with
    | some (_, .routing) => 0 | some (_, .arbiter) => 1 | some (_, .link) => 2 | none => 255)
  committed : Holds body 10 1 (sideOr255 x.committed)
  history : Holds body 11 1 (match x.role with | .diverge _ last => sideOr255 (some last) | .merge _ _ _ served => sideOr255 (some served))
  arbiter : Holds body 12 1 (match x.role with
    | .diverge _ _ => 255 | .merge _ _ .idle _ => 0 | .merge _ _ (.aligning _) _ => 1 | .merge _ _ (.granted _ _) _ => 2
    | .merge _ _ (.inUse _) _ => 3)
  selectedPosition : Holds body 13 1 (match x.role with
    | .diverge setting _ => sideOr255 (setting.map (·.2))
    | .merge _ _ .idle _ => 255
    | .merge _ _ (.aligning side) _ | .merge _ _ (.granted side _) _ | .merge _ _ (.inUse side) _ => sideOr255 (some side))
  selectedTrain : Holds body 14 1 (match x.role with
    | .diverge setting _ => indexOr255 (setting.map (·.1)) | .merge _ _ (.granted _ k) _ => k.val | .merge _ _ _ _ => 255)
  waiting : Holds body 15 1 (match x.role with
    | .diverge _ _ | .merge none none _ _ => 255
    | .merge (some a) (some b) _ _ => 16 * a.val + b.val
    | .merge (some a) none _ _ => 16 * a.val + 15
    | .merge none (some b) _ _ => 16 * 15 + b.val)
  requests : Holds body 16 1 (match x.role with
    | .diverge _ _ => 255 | .merge reqA reqB _ _ => reqA.isSome.toNat + 2 * reqB.isSome.toNat)

/-- An ELEMENT record's body (Table 7-9); of a DRIVE, `ch` is the channel its zone names. -/
structure ElementShown (s : State) (z : ZoneIx) (d : ZoneDesc) (e : Element) (body : List Byte) : Prop where
  length : body.length = 10
  zone : Holds body 0 1 z.val
  state : Holds body 2 1 (stateShown e)
  command : Holds body 3 1 (commandShown e)
  fault : Holds body 4 1 (faultShown e)
  timer : Holds body 7 2 (msTo s.now e.timerDue)
  brake : ∀ st cmd, e = .brake st cmd → Holds body 1 1 1 ∧ Holds body 9 1 (s.elementOutput z).toNat ∧
    ∀ o c ms, d.element = .brake o c ms → Holds body 5 1 (tget s.proofs o).toNat ∧ Holds body 6 1 (tget s.proofs c).toNat
  drive : ∀ st cmd, e = .drive st cmd → Holds body 1 1 2 ∧ Holds body 5 1 255 ∧ Holds body 6 1 255 ∧
    ∀ ch, d.element = .drive ch → Holds body 9 1 ch.val

/-- A DRIVE channel record's body (Table 7-10). -/
structure DriveShown (s : State) (i : ChannelIx) (x : Channel) (body : List Byte) : Prop where
  length : body.length = 9
  channel : Holds body 0 1 i.val
  code : Holds body 1 2 x.code
  target : Holds body 3 2 x.target
  phase : Holds body 5 1 (if x.code = x.target then 0 else if x.code < x.target then 1 else 2)
  timer : Holds body 6 1 (msTo s.now x.stepDue)
  enable : Holds body 7 1 (s.enable i).toNat
  zone : Holds body 8 1 (indexOr255 x.zone)

/-- A STATION record's body (Table 8-8). -/
structure StationShown (s : State) (st : StationIx) (d : StationDesc) (x : StationRec) (body : List Byte) : Prop where
  length : body.length = 16
  station : Holds body 0 1 st.val
  zone : Holds body 1 1 d.zone.val
  state : Holds body 2 1 (match x.state with
    | .empty => 0 | .arriving => 1 | .loading => 2 | .ready => 3 | .pending _ _ => 4 | .releasing _ => 5)
  occupant : Holds body 3 1 (indexOr255 (s.ride.occupant? d.zone))
  restraint : Holds body 4 1 (s.ctx.active d.restraint).toNat
  gate : Holds body 5 1 (s.ctx.active d.gate).toNat
  authority : Holds body 6 1 (match d.authority with | .buttons => 0 | .link => 1 | .either => 2)
  pairing : Holds body 7 1 (match x.pairing with | .armed => 0 | .timing _ _ => 1 | .expired _ => 2 | .spent => 3)
  first : Holds body 8 1 (match x.pairing with | .timing first _ | .expired first => sideOr255 (some first) | _ => 255)
  window : Holds body 9 2 (msTo s.now (match x.pairing with | .timing _ due => some due | _ => none))
  source : Holds body 11 1 (match x.state with | .pending .buttons _ => 0 | .pending .link _ => 1 | _ => 255)
  wait : Holds body 12 3 (msTo s.now (match x.state with | .pending _ due => some due | _ => none))
  departing : Holds body 15 1 (match x.state with | .releasing true => 1 | _ => 0)

/-- The INPUTS record's body (Table 8-9). -/
structure InputsShown (s : State) (body : List Byte) : Prop where
  length : body.length = 5
  active : ∃ n, Holds body 0 2 n ∧ n < 65536 ∧ ∀ i : InputIx, n.testBit i.val = s.ctx.active i
  filtered : ∃ n, Holds body 2 2 n ∧ n < 65536 ∧
    ∀ i : InputIx, n.testBit i.val = ((s.map.input i).isSome && tget s.inputs.filtered i)
  estop : Holds body 4 1 s.ctx.estopActive.toNat

/-- The notice block's body (Table 10-14). -/
structure NoticesShown (s : State) (body : List Byte) : Prop where
  length : body.length = 6
  notices : ∃ n, Holds body 0 2 n ∧ n < 4096 ∧
    ∀ p ∈ [(0, Notice.rideStop), (1, .overdue), (2, .early), (3, .overrun), (4, .rollback), (5, .fault), (6, .dispatchCancelled),
      (7, .latePair), (8, .storeDone), (9, .loadFailed), (10, .checkError), (11, .selectionDiscarded)],
      n.testBit p.1 = s.ride.notice? p.2
  causes : ∃ n, Holds body 2 2 n ∧ n < 2048 ∧
    ∀ p ∈ [(0, Cause.start), (1, .estop), (2, .link), (3, .zoneFault), (4, .elementFault), (5, .switchFault), (6, .boundaryFault),
      (7, .lost), (8, .overdue), (9, .rollbackUnguarded), (10, .stationProof)],
      n.testBit p.1 = s.ride.cause? p.2
  mode : Holds body 4 1 (match s.mode with | .loading => 0 | .config => 1 | .maintenance => 2 | .auto => 3)
  count : Holds body 5 1 ((List.finRange 16).countP fun t => (s.ride.train? t).isSome)

/-- The condition byte (Table 10-8). A stream is active from its response until it ends (R168, R174). -/
structure ConditionShown (s : State) (c : Byte) : Prop where
  mode : c.toNat % 4 = (match s.mode with | .loading => 0 | .config => 1 | .maintenance => 2 | .auto => 3)
  latched : c.getLsbD 2 = s.ride.latched
  attention : c.getLsbD 3 = true ↔ ∃ n, s.ride.notice? n = true
  storing : c.getLsbD 4 = s.storing.isSome
  stream : c.getLsbD 5 = true ↔ ∃ kind next left what, (what = .stream kind next ∨ what = .begun left (.streaming kind next)) ∧
    (s.link = .sending what ∨ ∃ wait rest, s.link = .responding wait rest (.send what))
  selection : c.getLsbD 6 = s.selection.isSome
  clear : c.getLsbD 7 = false

/-- What a read of each live kind shows of its record, and that an index without a record has none (R172); what the notice block and
the condition byte show (R168, R178). -/
def State.recordsShown (s : State) : Prop :=
  (∀ z x, s.ride.zone? z = some x → ∃ body, s.liveBody .zone z.val = some body ∧ ZoneShown s z x body) ∧
  (∀ t x, s.ride.train? t = some x → ∃ body, s.liveBody .train t.val = some body ∧ TrainShown s t x body) ∧
  (∀ b d x, s.map.boundary b = some d → tget s.bounds b = some x →
    ∃ body, s.liveBody .boundary b.val = some body ∧ BoundaryShown s b d x body) ∧
  (∀ w d x, s.map.switch w = some d → s.ride.switch? w = some x →
    ∃ body, s.liveBody .switch w.val = some body ∧ SwitchShown s w d x body) ∧
  (∀ z d e, s.map.zone z = some d → s.ride.element? z = some e →
    ∃ body, s.liveBody .element z.val = some body ∧ ElementShown s z d e body) ∧
  (∀ i x, s.ride.channel? i = some x → ∃ body, s.liveBody .drive i.val = some body ∧ DriveShown s i x body) ∧
  (∀ st d x, s.map.station st = some d → s.ride.station? st = some x →
    ∃ body, s.liveBody .station st.val = some body ∧ StationShown s st d x body) ∧
  (s.mode = .maintenance ∨ s.mode = .auto → ∃ body, s.liveBody .inputs 0 = some body ∧ InputsShown s body) ∧
  (∀ n, (s.liveBody .zone n).isSome = true ↔ ∃ z : ZoneIx, z.val = n ∧ (s.ride.zone? z).isSome = true) ∧
  (∀ n, (s.liveBody .train n).isSome = true ↔ ∃ t : SlotIx, t.val = n ∧ (s.ride.train? t).isSome = true) ∧
  (∀ n, (s.liveBody .boundary n).isSome = true → ∃ b : BoundaryIx, b.val = n ∧ (tget s.bounds b).isSome = true) ∧
  (∀ n, (s.liveBody .switch n).isSome = true → ∃ w : SwitchIx, w.val = n ∧ (s.ride.switch? w).isSome = true) ∧
  (∀ n, (s.liveBody .element n).isSome = true ↔ ∃ z : ZoneIx, z.val = n ∧ (s.ride.element? z).isSome = true) ∧
  (∀ n, (s.liveBody .drive n).isSome = true ↔ ∃ i : ChannelIx, i.val = n ∧ (s.ride.channel? i).isSome = true) ∧
  (∀ n, (s.liveBody .station n).isSome = true → ∃ st : StationIx, st.val = n ∧ (s.ride.station? st).isSome = true) ∧
  (∀ n, (s.liveBody .inputs n).isSome = true → n = 0 ∧ (s.mode = .maintenance ∨ s.mode = .auto)) ∧
  NoticesShown s s.noticeBody ∧ ConditionShown s s.conditionByte

/-! ### Validation in statements -/

/-- Every check of a table holds; a check is listed with the condition under which it fails (R16). -/
def Passes (checks : List (Nat × Bool)) : Prop := ∀ p ∈ checks, p.2 = false

/-- The check `code` of a table fails and every check before it holds. -/
def FailsAt (checks : List (Nat × Bool)) (code : Nat) : Prop :=
  ∃ before rest, checks = before ++ (code, true) :: rest ∧ Passes before

/-- Every configured slot of a group passes. -/
def GroupPasses {α : Type} {n : Nat} (slot : Fin n → Option α) (checks : Fin n → α → List (Nat × Bool)) : Prop :=
  ∀ i d, slot i = some d → Passes (checks i d)

/-- Slot `index` of a group fails at `code`, and every configured slot below it passes. -/
def GroupFailsAt {α : Type} {n : Nat} (slot : Fin n → Option α) (checks : Fin n → α → List (Nat × Bool)) (index code : Nat) :
    Prop :=
  ∃ i d, i.val = index ∧ slot i = some d ∧ FailsAt (checks i d) code ∧ ∀ j e, j < i → slot j = some e → Passes (checks j e)

/-- A walk along the routes leads from a zone to a zone (R3). -/
def CircuitMap.leadsTo (m : CircuitMap) : ZoneIx → ZoneIx → Prop :=
  Relation.ReflTransGen fun a b => m.successor a .a = some b ∨ m.successor a .b = some b

/-! ### The track in statements -/

/-- The interlock opens nothing and reserves nothing by itself: the mode is not AUTO, or the ride stop is latched (R29). -/
def State.calm (s : State) : Prop := s.mode ≠ .auto ∨ s.ride.latched = true

/-- The pending change of `line` stamped `stamp` has held for F and is the oldest (R78, R79). -/
structure State.EdgeDue (s : State) (dt : Nat) (line : SensorLine) (stamp : Nat) : Prop where
  running : s.sensors.phase = .running
  waiting : s.sensors.change? line = some stamp
  held : stamp + s.filterTime ≤ s.now + dt
  oldest : ∀ p ∈ s.sensors.changes, stamp ≤ p.2

/-- The pending change of `line` is due, and its edge makes boundary `b` report `e` (R77, R84). -/
structure State.Reports (s : State) (dt : Nat) (line : SensorLine) (b : BoundaryIx) (d : BoundaryDesc) (stamp : Nat)
    (e : PassageEvent) : Prop where
  due : s.EdgeDue dt line stamp
  gate : ∃ sensor x, s.map.gateOf line = some (b, d, sensor) ∧ tget s.bounds b = some x ∧
    (x.edge d.rollback sensor (!tget s.sensors.covered line) stamp).2 = some e

/-- Every train but the one in slot `k` stands as it did, and every hold source but those of zone `h` is as it was. -/
structure Ride.Apart (a b : Ride) (k : SlotIx) (h : Option ZoneIx) : Prop where
  trains : ∀ j, j ≠ k → b.standing j = a.standing j
  holds : ∀ z src, some z ≠ h → b.held z src = a.held z src
  causes : ∀ cause, a.cause? cause = true → b.cause? cause = true
  notices : ∀ n, a.notice? n = true → b.notice? n = true

/-- The train in slot `k` has gone to LOST: no deadline, nothing awaited, not stepping, the ride stopped (R56). -/
def Ride.lostIn (b : Ride) (k : SlotIx) : Prop :=
  (∃ y, b.train? k = some y ∧ y.phase = .lost ∧ y.deadline = none ∧ y.awaited = none ∧ y.stepping = false) ∧
  b.cause? .lost = true ∧ b.notice? .fault = true

/-- A fault has been reported for zone `z`: the ride stop cause and the notice, and a cause in the zone's record (R48). -/
def Ride.faultedAt (b : Ride) (z : ZoneIx) : Prop :=
  b.cause? .zoneFault = true ∧ b.notice? .fault = true ∧ ((b.zone? z).isSome = true → b.zoneFault z ≠ none)

/-- A step from `a` to `b` has reported `cause` for zone `z`: the ride stop cause and the notice, and the cause in the zone's record,
unless it held one, which stays (R48). -/
def Ride.faultedBy (a b : Ride) (z : ZoneIx) (cause : ZoneFault) : Prop :=
  b.faultedAt z ∧ ((a.zone? z).isSome = true → b.zoneFault z = some ((a.zoneFault z).getD cause))

/-- Switch record `x` has become `y` in FAULT: the route setting is kept, and the pending request but an ALIGNING arbiter's own, which
goes with it; a merge's requests and last-served side are kept and its arbiter is IDLE (R111, R116). -/
structure SwitchRec.stoppedAs (x y : SwitchRec) (cause : SwitchFault) : Prop where
  pos : y.pos = .fault cause
  route : ∀ setting last, x.role = .diverge setting last → y.role = x.role ∧ y.pending = x.pending
  merge : ∀ reqA reqB arb served, x.role = .merge reqA reqB arb served →
    y.role = .merge reqA reqB .idle served ∧
    (((∃ side, arb = .aligning side) ∧ ∃ side, x.pending = some (side, .arbiter)) → y.pending = none) ∧
    ((∀ side, arb ≠ .aligning side) ∨ (∀ side, x.pending ≠ some (side, .arbiter)) → y.pending = x.pending)

/-- The committed position of switch `w` is as it was, or absent because a zone that holds the switch has gone to CLEAR (R113). -/
def State.committedStays (s t : State) (w : SwitchIx) (x y : SwitchRec) : Prop :=
  y.committed = x.committed ∨ y.committed = none ∧ ∃ z d, s.map.zone z = some d ∧ d.switch = some w ∧
    s.ride.claim? z ≠ some .clear ∧ t.ride.claim? z = some .clear

/-! ### Invariants -/

/-- No map is in use: no block holds a record, both filters are stopped, no selection is open, and the ride stop is latched with
START (R157, R179). -/
def State.put (s : State) : Prop :=
  s.ride = { Ride.reset with causes := s.ride.causes, notices := s.ride.notices } ∧
  s.ride.cause? .start = true ∧ s.sensors.phase = .off ∧ s.inputs.phase = .off ∧
  s.bounds = Vector.replicate 52 none ∧ s.selection = none

/-- While the part is in LOADING or CONFIG no map is in use. -/
def State.putAwayInvariant (s : State) : Prop := (s.mode = .loading ∨ s.mode = .config) → s.put

/-- The figures of a train record stay in their ranges (Table 3-1). -/
def Train.inBounds (x : Train) : Prop :=
  1 ≤ x.label ∧ x.label ≤ 255 ∧ x.early ≤ Config.countLimit ∧ x.overdue ≤ Config.countLimit ∧
  x.chain.length ≤ Config.chainLimit ∧ ∀ v, x.lastSpeed = some v → v ≤ Config.speedLimit

/-- Every train record is in bounds, no two carry one label, no chain presented is longer than four zones, and every entry speed
fits its field (Tables 2-1 and 3-1, R30, R51). -/
def State.recordsInvariant (s : State) : Prop :=
  (∀ t x, s.ride.train? t = some x → x.inBounds) ∧
  (∀ t u x y, s.ride.train? t = some x → s.ride.train? u = some y → x.label = y.label → t = u) ∧
  (∀ t chain, s.ride.presented? t = some chain → chain.length ≤ Config.chainLimit) ∧
  ∀ z v, s.ride.entrySpeed z = some v → v ≤ Config.speedLimit

/-- What Table 3-1 says of the train records beside their figures: a deadline counts at most 600,000 ms, and so does its early bound,
which a STOP deadline lacks; the awaited event is present in OVERDUE and absent otherwise; no chain holds a zone twice, and each of
its zones is RESERVED for the train (R33); the records are no more than the admission limit (R51). What carries it: no chain
presented holds a zone twice, and none that the map in use can give does (R30). -/
def State.tableInvariant (s : State) : Prop :=
  (∀ k x dl, s.ride.train? k = some x → x.deadline = some dl →
    dl.duration ≤ 600000 ∧ (∀ early, dl.early = some early → early ≤ 600000) ∧ (dl.kind = .stop → dl.early = none)) ∧
  (∀ k x, s.ride.train? k = some x → (x.awaited.isSome = true ↔ x.phase = .overdue)) ∧
  (∀ k x, s.ride.train? k = some x → x.chain.Nodup ∧ ∀ z ∈ x.chain, s.ride.claim? z = some (.reserved k)) ∧
  s.ride.trainCount ≤ s.map.admissionLimit ∧ (∀ k chain, s.ride.presented? k = some chain → chain.Nodup) ∧
  (s.mode = .maintenance ∨ s.mode = .auto → ∀ z, (chainFrom s.map (Config.chainLimit - 1) z).Nodup)

/-- Every zone in RESERVED or GUARDED is named in the chain, or as the guard zone, of its holder's record (R22); every train but one
in LOST is named as occupant by its head zone, and by its tail zone, another one, where it has one (R51). The last two clauses carry
it: with a map in use every boundary joins two zones, and a host block is awaited in CONFIG alone (R12, R18). -/
def State.claimsInvariant (s : State) : Prop :=
  (∀ z k, s.ride.claim? z = some (.reserved k) → ∃ x, s.ride.train? k = some x ∧ z ∈ x.chain) ∧
  (∀ z k, s.ride.claim? z = some (.guarded k) → ∃ x b, s.ride.train? k = some x ∧ x.guard = some (z, b)) ∧
  (∀ k x, s.ride.train? k = some x → x.phase ≠ .lost →
    s.ride.occupant? x.head = some k ∧ ∀ z, x.tail = some z → z ≠ x.head ∧ s.ride.occupant? z = some k) ∧
  (s.mode = .maintenance ∨ s.mode = .auto → ∀ b d, s.map.boundary b = some d → d.up ≠ d.down) ∧
  ∀ ref, s.link.heard.2 = .awaitingBlock ref → s.mode = .config

/-- A brake's output is asserted only in a zone without hold source or fault, and while no ride stop is latched (R35, R36). -/
def State.brakesInvariant (s : State) : Prop :=
  ∀ z, s.elementOutput z = true →
    (∀ src, s.ride.held z src = false) ∧ s.ride.zoneFault z = none ∧ s.ride.latched = false

/-- No chain is presented but in AUTO, and none for a free slot (R29, R32). -/
def State.presentationInvariant (s : State) : Prop :=
  ∀ t chain, s.ride.presented? t = some chain → s.mode = .auto ∧ (s.ride.train? t).isSome = true

end Sys2Proof.Machine
end

