-- ==== Sys2Proof/Certificates/Slice0/Obligations.lean ====
section
/-! DEFINITION. The statements for the provers. Each holds of every state and every operand that its hypotheses allow, states
that no run reaches included. `s.takes` says that a command frame is taken and handed to its owner (Table 10-2); `Keeps` says
what the reconsideration at the end of a step leaves as it was (Safety.lean). -/

open Sys2Proof Sys2Proof.Machine

/-! ### The queue, time and reset -/

/-- A step takes the command at the front of the queue and is that command's effect, with the queue's rest waiting. -/
def Obligations.StepRunsFrontCommand : Prop :=
  ∀ (c : Instr) (rest : List Instr) (s : State), s.pending = c :: rest → step s = exec c { s with pending := rest }

/-- What a start-up reset leaves (R179): LOADING, the ride stop latched with START alone, no record, no notice, no selection, no
store, a vacant map, the link outside a transaction, and every output off. The seven invariants below hold of it. -/
def Obligations.ResetState : Prop :=
  State.reset.mode = .loading ∧ (∀ cause, State.reset.ride.cause? cause = true ↔ cause = .start) ∧
  State.reset.ride.latched = true ∧ State.reset.attention = false ∧
  (∀ t, State.reset.ride.train? t = none) ∧ (∀ z, State.reset.ride.zone? z = none) ∧
  (∀ b, tget State.reset.bounds b = none) ∧ (∀ w, State.reset.ride.switch? w = none) ∧
  (∀ st, State.reset.ride.station? st = none) ∧ State.reset.selection = none ∧ State.reset.storing = none ∧
  State.reset.map = CircuitMap.vacant ∧ State.reset.link = .released ∧ State.reset.pending = [] ∧ State.reset.outputsReleased ∧
  State.reset.mapsInRange ∧ State.reset.putAwayInvariant ∧ State.reset.recordsInvariant ∧ State.reset.presentationInvariant ∧
  State.reset.claimsInvariant ∧ State.reset.brakesInvariant ∧ State.reset.tableInvariant

/-- Every command of the table, in every state, ends in a next state: no fault and no refusal. The queue is as it was, and the
time base has gone on by exactly the time the command carries. On an empty queue no time passes, and but for a RESTART that takes
effect nothing changes beside the exchange on the link and the notices that a block just sent has reported (the passing of time is
the model's choice, assumption log 1, and so is the clocking of a byte on an empty queue, assumption log 5). -/
def Obligations.EveryCommandEnds : Prop :=
  (∀ (i : Instr) (s : State), ∃ t, exec i s = .next t ∧ t.pending = s.pending ∧ t.now = s.now + i.wait) ∧
  ∀ s : State, s.pending = [] → ∃ t, step s = .next t ∧ t.pending = [] ∧ t.now = s.now ∧ t.answers = s.answers ∧
    (s.link.restartDue = true ∨
      t = { s with link := t.link, dataOut := t.dataOut, ride := { s.ride with notices := t.ride.notices } } ∧
      ∀ n, t.ride.notice? n = true → s.ride.notice? n = true)

/-- What the part sends with each byte of fill that the host clocks, and where the exchange stands after it, state by state of
Table 10-1: the idle byte, 0x00 while a store is in progress and 0xFF otherwise, in AWAITING_FRAME; 0xFF and then the response in
PREPARING and RESPONDING; a block in SENDING, whose snapshot is fixed once its start byte is sent; 0xFF in AWAITING_BLOCK; 0xFF and
then the acceptance byte in ACCEPTING. A response of any length is read out byte by byte, after its bytes of 0xFF (R165, R170). That
a step on an empty queue clocks the byte, and that none is clocked in RECEIVING_FRAME, is the model's choice (assumption log 5). -/
def Obligations.BytesClocked : Prop :=
  (∀ s : State, s.pending = [] →
    (s.link = .released → step s = .next s) ∧
    (s.link = .awaitingFrame → step s = .next { s with dataOut := [if s.storing.isSome then 0x00#8 else 0xFF#8] }) ∧
    (∀ cut, s.link = .receivingFrame cut → step s = .next s) ∧
    (∀ wait rest next, s.link = .responding (wait + 1) rest next →
      step s = .next { s with link := .responding wait rest next, dataOut := [0xFF#8] }) ∧
    (∀ b rest next, s.link = .responding 0 (b :: rest) next → rest ≠ [] →
      step s = .next { s with link := .responding 0 rest next, dataOut := [b] }) ∧
    (∀ b, s.link = .responding 0 [b] .nothing → step s = .next { s with link := .awaitingFrame, dataOut := [b] }) ∧
    (∀ b what, s.link = .responding 0 [b] (.send what) → step s = .next { s with link := .sending what, dataOut := [b] }) ∧
    (∀ b ref, s.link = .responding 0 [b] (.awaitBlock ref) →
      step s = .next { s with link := .awaitingBlock ref, dataOut := [b] }) ∧
    (∀ what b rest after, s.link = .sending what → s.opening what = (b :: rest, after) → rest ≠ [] →
      step s = .next { s with link := .sending (.begun rest after), dataOut := [b] }) ∧
    (∀ what b, s.link = .sending what → s.opening what = ([b], .single) →
      step s = .next { s with link := .awaitingFrame, dataOut := [b] }) ∧
    (∀ what b kind next, s.link = .sending what → s.opening what = ([b], .streaming kind next) →
      step s = .next { s with link := .sending (.stream kind next), dataOut := [b] }) ∧
    (∀ what b snapshot, s.link = .sending what → s.opening what = ([b], .clearing snapshot) →
      step s = .next { s with
        link := .awaitingFrame, dataOut := [b], ride := { s.ride with notices := s.ride.notices &&& ~~~snapshot } }) ∧
    (∀ ref, s.link = .awaitingBlock ref → step s = .next { s with dataOut := [0xFF#8] }) ∧
    (∀ wait answer, s.link = .accepting (wait + 1) answer →
      step s = .next { s with link := .accepting wait answer, dataOut := [0xFF#8] }) ∧
    (∀ answer, s.link = .accepting 0 answer → step s = .next { s with link := .awaitingFrame, dataOut := [answer] })) ∧
  (∀ (s : State) (rest : List Byte) (after : BlockEnd), s.opening (.begun rest after) = (rest, after)) ∧
  ∀ (s : State) (wait : Nat) (rest : List Byte) (next : Follow) (k : Nat) (b : Byte), s.pending = [] →
    s.link = .responding wait rest next → (List.replicate wait 0xFF#8 ++ rest)[k]? = some b →
    ∃ t, Sys2Proof.core.run (k + 1) s = .next t ∧ t.dataOut = [b]

/-- The bytes that the part sends up to the last byte of a command frame: what it owes of a response, an acceptance byte or a
READ's block is read out first (the model's choice, assumption log 5); with the frame's sync byte goes the next byte of a notice
block or a stream, which is cut off there (the start byte of the stream's next block, or the end-of-stream byte where no record is
left), or 0xFF where a host block is awaited, and otherwise the idle byte; and the idle byte
goes with the rest of the frame (Table 10-1, R165). -/
def Obligations.FramesAreClocked : Prop :=
  ∀ (i : Instr) (s t : State) (owed : List Byte) (l : Link) (idle : Byte), i.wf = true → i.command.isSome = true →
    s.link.takesFrame.isSome = true → exec i s = .next t → (owed, l) = s.link.heard →
    idle = (if s.storing.isSome then 0x00#8 else 0xFF#8) →
    (l = .awaitingFrame → t.dataOut = owed ++ List.replicate 8 idle) ∧
    (∀ ref, l = .awaitingBlock ref → t.dataOut = owed ++ 0xFF#8 :: List.replicate 7 idle) ∧
    (∀ cut, l = .receivingFrame cut → t.dataOut = owed ++ List.replicate 7 idle) ∧
    (∀ kind index body, l = .sending (.live kind index) → ({ s with now := s.now + i.wait }).liveBody kind index = some body →
      t.dataOut = owed ++ dataBlock (byteOf kind.code) body ++ List.replicate 8 idle) ∧
    (∀ ref, l = .sending (.mapRecord (.slot ref)) →
      t.dataOut = owed ++ dataBlock (byteOf ref.kindCode) (s.map.body ref) ++ List.replicate 8 idle) ∧
    (l = .sending (.mapRecord .report) → t.dataOut = owed ++ dataBlock 0x08#8 s.report.body ++ List.replicate 8 idle) ∧
    (∀ rest, l = .sending (.begun rest .single) → t.dataOut = owed ++ rest ++ List.replicate 8 idle) ∧
    (l = .sending .notices → t.dataOut = owed ++ 0x6A#8 :: List.replicate 7 idle) ∧
    (∀ kind next, l = .sending (.stream kind next) →
      t.dataOut = owed ++ (if (({ s with now := s.now + i.wait }).nextLive kind next).isSome then 0x6A#8 else 0x5F#8) ::
        List.replicate 7 idle) ∧
    (∀ b rest after, l = .sending (.begun (b :: rest) after) → after ≠ .single →
      t.dataOut = owed ++ b :: List.replicate 7 idle) ∧
    (∀ wait rest, s.link = .responding wait rest .nothing → owed = List.replicate wait 0xFF#8 ++ rest ∧ l = .awaitingFrame) ∧
    (∀ wait rest what, s.link = .responding wait rest (.send what) →
      owed = List.replicate wait 0xFF#8 ++ rest ∧ l = .sending what) ∧
    (∀ wait rest ref, s.link = .responding wait rest (.awaitBlock ref) →
      owed = List.replicate wait 0xFF#8 ++ rest ∧ l = .awaitingBlock ref) ∧
    ∀ wait answer, s.link = .accepting wait answer → owed = List.replicate wait 0xFF#8 ++ [answer] ∧ l = .awaitingFrame

/-! ### Encodings -/

/-- Frames and their bytes stand one to one (Table 10-5): every well-formed step that is a frame decodes from its own eight bytes,
whatever its operands; and eight bytes that decode are the encoding of what they decode to, which is well formed, so that no
frame has two readings. -/
def Obligations.FrameRoundTrip : Prop :=
  (∀ (i : Instr) (bs : List Byte), i.wf = true → encodeFrame i = some bs → bs.length = 8 ∧ decodeFrame i.wait bs = some i) ∧
  ∀ (dt : Nat) (bs : List Byte) (i : Instr), decodeFrame dt bs = some i → i.wf = true ∧ i.wait = dt ∧ encodeFrame i = some bs

/-- Every descriptor whose fields are in their ranges decodes from the body it is sent as, for each of the seven kinds, and the
body has the length of its kind (Tables 1-3 to 1-8 and 10-11). -/
def Obligations.DescriptorRoundTrip : Prop :=
  (∀ d : ZoneDesc, d.inRange = true → decodeZone (encodeZone d) = some d ∧ (encodeZone d).length = 41) ∧
  (∀ d : BoundaryDesc, d.inRange = true → decodeBoundary (encodeBoundary d) = some d ∧ (encodeBoundary d).length = 7) ∧
  (∀ d : SwitchDesc, d.inRange = true → decodeSwitch (encodeSwitch d) = some d ∧ (encodeSwitch d).length = 9) ∧
  (∀ d : StationDesc, d.inRange = true → decodeStation (encodeStation d) = some d ∧ (encodeStation d).length = 12) ∧
  (∀ d : DriveDesc, d.inRange = true → decodeDrive (encodeDrive d) = some d ∧ (encodeDrive d).length = 9) ∧
  (∀ d : InputDesc, decodeInput (encodeInput d) = some d ∧ (encodeInput d).length = 4) ∧
  ∀ d : CircuitDesc, d.inRange = true → decodeCircuit (encodeCircuit d) = some d ∧ (encodeCircuit d).length = 3

/-- A body that decodes holds fields in their ranges and is the body its descriptor is sent as: a value out of range, an unknown
code or a field present that its kind lacks is rejected (R5 to R11). -/
def Obligations.DecodedDescriptorsEncode : Prop :=
  (∀ bs d, decodeZone bs = some d → d.inRange = true ∧ encodeZone d = bs) ∧
  (∀ bs d, decodeBoundary bs = some d → d.inRange = true ∧ encodeBoundary d = bs) ∧
  (∀ bs d, decodeSwitch bs = some d → d.inRange = true ∧ encodeSwitch d = bs) ∧
  (∀ bs d, decodeStation bs = some d → d.inRange = true ∧ encodeStation d = bs) ∧
  (∀ bs d, decodeDrive bs = some d → d.inRange = true ∧ encodeDrive d = bs) ∧
  (∀ bs d, decodeInput bs = some d → encodeInput d = bs) ∧
  ∀ bs d, decodeCircuit bs = some d → d.inRange = true ∧ encodeCircuit d = bs

/-! ### Invariants -/

/-- Every step keeps the ranges of the working map, of the image's content and of the content being stored (R1). -/
def Obligations.MapsStayInRange : Prop := ∀ s t : State, s.mapsInRange → step s = .next t → t.mapsInRange

/-- Every step keeps this: in LOADING and in CONFIG no block holds a record, no filter runs, no selection is open, and the ride
stop is latched with START (R157, R179). -/
def Obligations.MapStaysPutAway : Prop := ∀ s t : State, s.putAwayInvariant → step s = .next t → t.putAwayInvariant

/-- Every step keeps every train record within its ranges, labels unique, chains no longer than four zones and speeds within
their fields (R22, R51, Table 3-1). With the maps in range, and with the records and claims as the invariants say, every step keeps
the rest of Table 3-1 too: deadlines and early bounds of at most 600,000 ms, the awaited event in OVERDUE alone, no zone twice in a
chain and each RESERVED for its train, and no more records than the admission limit (R30, R33, R51, R53). -/
def Obligations.RecordsStayInBounds : Prop :=
  (∀ s t : State, s.recordsInvariant → step s = .next t → t.recordsInvariant) ∧
  ∀ s t : State, s.mapsInRange → s.putAwayInvariant → s.recordsInvariant → s.claimsInvariant → s.tableInvariant → step s = .next t →
    t.tableInvariant

/-- Every step keeps this: chains are presented in AUTO alone, and only for trains on the table (R29, R32). -/
def Obligations.PresentationsStayInAuto : Prop :=
  ∀ s t : State, s.presentationInvariant → step s = .next t → t.presentationInvariant

/-- Every step keeps this: a zone in RESERVED is named in the chain of its holder's record and one in GUARDED as its guard zone; and a
train that is not LOST is named as occupant by its head zone and by its tail zone, another one, where it has one (R22, R51). What it
rests on is kept with it: with a map in use no boundary joins a zone to itself, and a host block is awaited in CONFIG alone. That
chains are no longer than four zones, as the records' own invariant says, is a premise: a zone that a chain gives up at its far end
is the fifth (R26). -/
def Obligations.ClaimsAgree : Prop :=
  ∀ s t : State, s.claimsInvariant → s.recordsInvariant → step s = .next t → t.claimsInvariant

/-- Every step keeps this: a brake whose output is asserted is in a zone with no hold source and no fault, and no ride stop is
latched (R35, R36). -/
def Obligations.BrakesStayShut : Prop := ∀ s t : State, s.brakesInvariant → step s = .next t → t.brakesInvariant

/-! ### Rules of the whole machine -/

/-- While the ride stop stays latched, no step asserts a brake's output that was de-asserted (R35, R160). A step that asserts one
leaves it, where brakes, claims and trains stood as the invariants say, in the head zone of its occupant, without a hold source or a
fault, with no ride stop latched and every zone of the occupant's chain reserved for it (R35). A step that takes a zone's occupant
away leaves the zone's output de-asserted (R36), but where the zone becomes that train's guard: R36 names no close for the nose that
withdraws from a zone it entered in reverse, which the ROLLBACK hold of its entry has shut (R39). That NOSE_BACK closes the zone it
takes the train out of too, where R36 and R67 name the zones that name the train, is the model's reading (assumption log 8). -/
def Obligations.BrakesOpenOnlyWhenAllowed : Prop :=
  (∀ (i : Instr) (s t : State) (z : ZoneIx), s.ride.latched = true → exec i s = .next t → t.ride.latched = true →
    s.elementOutput z = false → t.elementOutput z = false) ∧
  (∀ (i : Instr) (s t : State) (z : ZoneIx), s.claimsInvariant → s.brakesInvariant → exec i s = .next t →
    s.elementOutput z = false → t.elementOutput z = true →
    (∃ k x, t.ride.occupant? z = some k ∧ t.ride.train? k = some x ∧ x.head = z ∧
      ∀ y, y ∈ x.chain → t.ride.claim? y = some (.reserved k)) ∧
    (∀ src, t.ride.held z src = false) ∧ t.ride.zoneFault z = none ∧ t.ride.latched = false) ∧
  ∀ (i : Instr) (s t : State) (z : ZoneIx), s.claimsInvariant → exec i s = .next t → (s.ride.occupant? z).isSome = true →
    t.ride.occupant? z = none → (∀ k, t.ride.claim? z ≠ some (.guarded k)) → t.elementOutput z = false

/-- A step that latches the ride stop leaves every brake's output de-asserted, every channel's target at 0 and no dispatch
demand (R36, R136, R150, R160). -/
def Obligations.LatchingStopsTheRide : Prop :=
  ∀ (i : Instr) (s t : State), s.ride.latched = false → exec i s = .next t → t.ride.latched = true →
    t.brakesClosing ∧ t.drivesStopping ∧ t.noDemand

/-- A notice stays present until the notice block that reports it has been sent, and a ride stop cause stays in the set until
RESUME; a start-up reset apart, nothing else removes either (R159, R163, R177). -/
def Obligations.NoticesAndCausesStay : Prop :=
  ∀ (i : Instr) (s t : State), exec i s = .next t → s.resetBy i = false →
    (∀ n : Notice, (∀ dt, i ≠ .noticeBlockSent dt) → s.ride.notice? n = true → t.ride.notice? n = true) ∧
    ∀ cause : Cause, (∀ dt f, i ≠ .resume dt f) → s.ride.cause? cause = true → t.ride.cause? cause = true

/-- A hold source leaves a zone, short of a reset or a take-up, only by RELEASE_HOLD; LINK also by APPLY_SELECTION, and INPUT by
a function input instead (R37, R38, R39). -/
def Obligations.HoldSourcesStay : Prop :=
  ∀ (i : Instr) (s t : State) (z : ZoneIx) (src : HoldSource), exec i s = .next t → s.resetBy i = false → takesUp i = false →
    (∀ dt f, i ≠ .releaseHold dt f) →
    (src = .link → ∀ dt f, i ≠ .applySelection dt f) →
    (src = .input → (∀ dt j high, i ≠ .functionInputRawChange dt j high) ∧ ∀ dt j, i ≠ .functionInputChange dt j) →
    s.ride.held z src = true → t.ride.held z src = true

/-- A fault stays, with its first cause, until CLEAR_FAULT for its class, a take-up or a reset: a zone's (R48), a boundary's
(R89), a brake's (R131) and a switch's (R111). SET_MODE between MAINTENANCE and AUTO takes no map up, and clears none.
TRACK_FILTER_START, which derives every boundary afresh (R91), is excepted for boundaries. -/
def Obligations.FaultsStay : Prop :=
  ∀ (i : Instr) (s t : State), exec i s = .next t → s.resetBy i = false →
    (takesUp i = false ∨ (∃ dt f, i = .setMode dt f) ∧ (s.mode = .maintenance ∨ s.mode = .auto) ∧ t.mode ≠ .config) →
    (∀ z cause, (∀ dt f, i ≠ .clearFaultZone dt f) → s.ride.zoneFault z = some cause → t.ride.zoneFault z = some cause) ∧
    (∀ b x cause, (∀ dt obj, i ≠ .clearFaultBoundary dt obj) → (∀ dt, i ≠ .trackFilterStart dt) →
      tget s.bounds b = some x → x.passage = .fault cause → ∃ y, tget t.bounds b = some y ∧ y.passage = .fault cause) ∧
    (∀ z cause cmd, (∀ dt obj, i ≠ .clearFaultElement dt obj) → s.ride.element? z = some (.brake (.fault cause) cmd) →
      ∃ cmd', t.ride.element? z = some (.brake (.fault cause) cmd')) ∧
    (∀ w x cause, (∀ dt obj, i ≠ .clearFaultSwitch dt obj) → s.ride.switch? w = some x → x.pos = .fault cause →
      ∃ y, t.ride.switch? w = some y ∧ y.pos = .fault cause)

/-- The mode changes only by SET_MODE, the load or a start-up reset (R154); the image only by a store: as STORE_MAP begins it, as it
completes, or as a reset cuts it off (R180, R183); and with a map in use, the working map only by SET_ROUTE_MODE, and that in
the kinds of its switches alone (R1, R122). -/
def Obligations.ModeImageMapChangeOnlyBy : Prop :=
  ∀ (i : Instr) (s t : State), exec i s = .next t →
    (t.mode ≠ s.mode → takesUp i = true ∨ s.resetBy i = true) ∧
    (t.image ≠ s.image →
      (∃ dt f, i = .storeMap dt f) ∨ (s.storing.isSome = true ∧ ((∃ dt, i = .storeComplete dt) ∨ s.resetBy i = true))) ∧
    ((s.mode = .maintenance ∨ s.mode = .auto) → s.resetBy i = false → (∀ ref, s.link.heard.2 ≠ .awaitingBlock ref) →
      (t.map ≠ s.map → ∃ dt f, i = .setRouteMode dt f) ∧
      t.map.zones = s.map.zones ∧ t.map.boundaries = s.map.boundaries ∧ t.map.stations = s.map.stations ∧
      t.map.drives = s.map.drives ∧ t.map.inputs = s.map.inputs ∧ t.map.circuit = s.map.circuit ∧
      ∀ w, (s.map.switch w = none → t.map.switch w = none) ∧
        ∀ d, s.map.switch w = some d → ∃ k, t.map.switch w = some { d with kind := k })

/-- A train record appears only by ADMIT and goes only by RETIRE, a take-up or a reset, and its label never changes (R51). -/
def Obligations.SlotsChangeOnlyBy : Prop :=
  ∀ (i : Instr) (s t : State) (k : SlotIx), exec i s = .next t → s.resetBy i = false → takesUp i = false →
    ((∀ dt f, i ≠ .admitTrain dt f) → s.ride.train? k = none → t.ride.train? k = none) ∧
    ((∀ dt f, i ≠ .retire dt f) → ∀ x, s.ride.train? k = some x → ∃ y, t.ride.train? k = some y ∧ y.label = x.label)

/-- No command of the link moves a train: RETIRE, SET_MODE and a reset apart, every train keeps its zones, its guard, its speed,
what it awaits and its counts through every command frame, and through a proof change, a drive step, and a proof, move, pair or
dispatch timer that runs out (R54). -/
def Obligations.CommandsMoveNoTrain : Prop :=
  ∀ (i : Instr) (s t : State) (k : SlotIx), exec i s = .next t → s.resetBy i = false → takesUp i = false →
    (i.command.isSome = true ∨ (∃ dt l h, i = .brakeProofChange dt l h) ∨ (∃ dt z, i = .proofTimerExpiry dt z) ∨
      (∃ dt l h, i = .switchProofChange dt l h) ∨ (∃ dt w, i = .moveTimerExpiry dt w) ∨ (∃ dt ch, i = .driveStep dt ch) ∨
      (∃ dt st, i = .pairWindowExpiry dt st) ∨ ∃ dt st, i = .dispatchWaitExpiry dt st) →
    (∀ dt f, i ≠ .retire dt f) → (s.ride.train? k).isSome = true → t.ride.standing k = s.ride.standing k

/-- An open selection is discarded by every command but the nine that R47 names, whatever the command's answer: it is closed, the
notice raised, and the result code carries the discarded mark. The nine carry no mark, and but for APPLY_SELECTION they leave it
open. -/
def Obligations.SelectionIsDiscarded : Prop :=
  ∀ (i : Instr) (s t : State), i.wf = true → i.command.isSome = true → s.link.takesFrame.isSome = true →
    s.selection.isSome = true → exec i s = .next t →
    (keepsSelection i = false → t.selection = none ∧ t.ride.notice? .selectionDiscarded = true ∧
      ∃ res next, t.answered true res next) ∧
    (keepsSelection i = true → (∃ res next, t.answered false res next) ∧
      ((∀ dt f, i ≠ .applySelection dt f) → t.selection.isSome = true))

/-- Commands turned away by the link unit (Table 10-2): one whose frame cut off a stream is answered SEQUENCE, STOP_STREAM
excepted; one in LOADING is answered BUSY, GET_CONDITION and an unknown code excepted. Neither is carried out. Outside a
transaction a frame has no effect (the model's choice, assumption log 6). -/
def Obligations.CommandsTurnedAway : Prop :=
  ∀ (i : Instr) (s : State), i.wf = true → i.command.isSome = true →
    (s.link.takesFrame = some true → (∀ dt f, i ≠ .stopStream dt f) →
      ∃ t, exec i s = .next t ∧ s.turnedAway i .sequence t) ∧
    (s.link.takesFrame = some false → s.mode = .loading → (∀ dt f, i ≠ .getCondition dt f) →
      (∀ dt code f, i ≠ .unknownCommand dt code f) → ∃ t, exec i s = .next t ∧ s.turnedAway i .busy t) ∧
    (s.link.takesFrame = none → exec i s = .next (s.advance i.wait))

/-! ### The link unit's own commands -/

/-- GET_CONDITION is answered DONE in every mode, the notice block to follow; it changes nothing. When the block has been sent,
exactly the notices of its snapshot are removed, the set as its start byte was sent. READ_LIVE is answered DONE with the block of the
record named, READ_MAP_RECORD with the block of the slot or of the report, and neither changes anything; an index without a record is
answered NO_OBJECT, and a kind that is none BAD_ARGUMENT. Each block is formed from its record as its start byte is sent (R170, R172,
R173, R178). What the body of each live kind, the notice block and the condition byte say of the state is given field by field
(Tables 4-8, 6-7, 7-9, 7-10, 8-8, 8-9, 10-8, 10-12, 10-13 and 10-14). That NOTICE_BLOCK_SENT begins with the bytes of the response
still owed is the model's choice (assumption log 5). -/
def Obligations.ReadsSendBlocks : Prop :=
  (∀ (s : State) (dt : Nat) (f : Frame), s.link.takesFrame = some false →
    ∃ t, exec (.getCondition dt f) s = .next t ∧ t.answered false .done (.send .notices) ∧
      t = { s with now := s.now + dt, link := t.link, dataOut := t.dataOut, answers := t.answers }) ∧
  (∀ (s : State) (dt : Nat) (what : Sending), s.link.heard.2 = .sending what →
    (what = .notices →
      ∃ t, exec (.noticeBlockSent dt) s = .next t ∧ t.dataOut = s.link.heard.1 ++ dataBlock 0x30#8 s.noticeBody ∧
        t = { s with now := s.now + dt, link := .awaitingFrame, dataOut := t.dataOut, ride := { s.ride with notices := 0#12 } }) ∧
    ∀ rest snapshot, what = .begun rest (.clearing snapshot) →
      ∃ t, exec (.noticeBlockSent dt) s = .next t ∧
        t = { s with
          now := s.now + dt, link := .awaitingFrame, dataOut := s.link.heard.1 ++ rest,
          ride := { s.ride with notices := t.ride.notices } } ∧
        ∀ n, t.ride.notice? n = (s.ride.notice? n && !snapshot.getLsbD n.bit)) ∧
  (∀ (s : State) (dt : Nat) (f : Frame) (kind : LiveKind) (body : List Byte), s.takes → liveKindOf f.arg.toNat = some kind →
    ({ s with now := s.now + dt }).liveBody kind f.obj.toNat = some body →
    ∃ t, exec (.readLive dt f) s = .next t ∧ t.answered false .done (.send (.live kind f.obj.toNat)) ∧
      t = { s with now := s.now + dt, link := t.link, dataOut := t.dataOut, answers := t.answers }) ∧
  (∀ (s : State) (dt : Nat) (f : Frame), s.takes →
    (liveKindOf f.arg.toNat = none → ∃ t, exec (.readLive dt f) s = .next t ∧ s.turnedAway (.readLive dt f) .badArgument t) ∧
    ∀ kind, liveKindOf f.arg.toNat = some kind → ({ s with now := s.now + dt }).liveBody kind f.obj.toNat = none →
      ∃ t, exec (.readLive dt f) s = .next t ∧ s.turnedAway (.readLive dt f) .noObject t) ∧
  (∀ (s : State) (dt : Nat) (f : Frame) (obj : MapObject), s.takes → 1 ≤ f.arg.toNat → f.arg.toNat ≤ 8 →
    mapObjectOf f.arg.toNat f.obj.toNat = some obj →
    ∃ t, exec (.readMapRecord dt f) s = .next t ∧ t.answered false .done (.send (.mapRecord obj)) ∧
      t = { s with now := s.now + dt, link := t.link, dataOut := t.dataOut, answers := t.answers }) ∧
  ∀ s : State,
    s.recordsShown ∧ s.opening .notices = (dataBlock 0x30#8 s.noticeBody, .clearing s.ride.notices) ∧
    (∀ kind index body, s.liveBody kind index = some body →
      s.opening (.live kind index) = (dataBlock (byteOf kind.code) body, .single)) ∧
    (∀ ref, s.opening (.mapRecord (.slot ref)) = (dataBlock (byteOf ref.kindCode) (s.map.body ref), .single)) ∧
    s.opening (.mapRecord .report) = (dataBlock 0x08#8 s.report.body, .single)

/-- STREAM_LIVE is answered DONE with a stream from index 0 to follow, shown as active; each block is the record of the lowest index
from there on that exists, and the end-of-stream byte follows when none is left. A 0x96 in SENDING cuts off what is being sent: a
stream, which is over; a notice block, whose notices stay; or a READ's block, of which no further byte is sent. STOP_STREAM is then
answered DONE (R170, R174, R175, R178). A cut as a step of its own, its frame to come, and STOP_STREAM from SENDING as a whole frame
are the model's choice (assumption log 6). So are these (assumption log 5): a row begins with the bytes of the response still owed; a
0x96 that goes out with the last byte of a notice block leaves the notices; and one that goes out with the end-of-stream byte cuts
the stream off, that byte sent. -/
def Obligations.StreamsSendRecords : Prop :=
  (∀ (s : State) (dt : Nat) (f : Frame) (kind : LiveKind), s.takes → liveKindOf f.arg.toNat = some kind →
    ∃ t, exec (.streamLive dt f) s = .next t ∧ t.answered false .done (.send (.stream kind 0)) ∧ t.conditionByte.getLsbD 5 = true ∧
      t = { s with now := s.now + dt, link := t.link, dataOut := t.dataOut, answers := t.answers }) ∧
  (∀ (s : State) (dt : Nat) (kind : LiveKind) (start : Nat) (owed rest : List Byte) (what : Sending),
    s.link.heard = (owed, .sending what) →
    (what = .stream kind start ∧ rest = [] ∨ what = .begun rest (.streaming kind start)) →
    (∀ i body, start ≤ i → i < 52 → ({ s with now := s.now + dt }).liveBody kind i = some body →
      (∀ j, start ≤ j → j < i → ({ s with now := s.now + dt }).liveBody kind j = none) →
      exec (.streamBlock dt) s = .next { s with
        now := s.now + dt, link := .sending (.stream kind (i + 1)),
        dataOut := owed ++ rest ++ dataBlock (byteOf kind.code) body }) ∧
    ((∀ j, start ≤ j → j < 52 → ({ s with now := s.now + dt }).liveBody kind j = none) →
      exec (.endOfStream dt) s =
        .next { s with now := s.now + dt, link := .awaitingFrame, dataOut := owed ++ rest ++ [0x5F#8] })) ∧
  (∀ (s : State) (dt : Nat) (owed : List Byte) (what : Sending), s.link.heard = (owed, .sending what) →
    ∃ t, exec (.streamCutOff dt) s = .next t ∧ t = { s with now := s.now + dt, link := t.link, dataOut := t.dataOut } ∧
      (∀ kind next, what = .stream kind next → t.link = .receivingFrame true ∧
        (({ s with now := s.now + dt }).nextLive kind next = none → t.dataOut = owed ++ [0x5F#8]) ∧
        ((({ s with now := s.now + dt }).nextLive kind next).isSome = true → t.dataOut = owed ++ [0x6A#8])) ∧
      (∀ b rest kind next, what = .begun (b :: rest) (.streaming kind next) →
        t.link = .receivingFrame true ∧ t.dataOut = owed ++ [b]) ∧
      (∀ b rest after, what = .begun (b :: rest) after → t.dataOut = owed ++ [b] ∧
        ((∀ kind next, after ≠ .streaming kind next) → t.link = .receivingFrame false)) ∧
      (∀ kind index body, what = .live kind index → ({ s with now := s.now + dt }).liveBody kind index = some body →
        t.link = .receivingFrame false ∧ t.dataOut = owed ++ [0x6A#8]) ∧
      ((what = .notices ∨ ∃ obj, what = .mapRecord obj) → t.link = .receivingFrame false ∧ t.dataOut = owed ++ [0x6A#8])) ∧
  ∀ (s : State) (dt : Nat) (f : Frame), s.link.takesFrame.isSome = true → s.mode ≠ .loading →
    ∃ t, exec (.stopStream dt f) s = .next t ∧ t.answered false .done ∧
      t = { s with now := s.now + dt, link := t.link, dataOut := t.dataOut, answers := t.answers }

/-- A frame whose code names no command is answered UNKNOWN in every mode, and discards an open selection. A frame that fails its
check is answered CHECK_FAILED without the discarded mark, raises CHECK_ERROR and does nothing else. Select asserted begins a
transaction in AWAITING_FRAME; select released ends it whatever it was doing, and changes neither the map nor a record nor the
selection nor a store (R47, R165, R166, R167, R169). That select asserted finds the reset line released is the model's choice
(assumption log 4). -/
def Obligations.FramesAndSelect : Prop :=
  (∀ (s : State) (dt : Nat) (code : Byte) (f : Frame), (Instr.unknownCommand dt code f).wf = true →
    s.link.takesFrame = some false →
    ∃ t, exec (.unknownCommand dt code f) s = .next t ∧ s.turnedAway (.unknownCommand dt code f) .unknown t) ∧
  (∀ (s : State) (dt : Nat) (code : Byte) (f : Frame) (check : Byte),
    (Instr.commandFrameCheckFailed dt code f check).wf = true → s.link.takesFrame.isSome = true →
    ∃ t, exec (.commandFrameCheckFailed dt code f check) s = .next t ∧ t.answered false .checkFailed ∧
      t = { s with
        now := s.now + dt, ride := s.ride.raise .checkError, link := t.link, dataOut := t.dataOut, answers := t.answers }) ∧
  (∀ (s : State) (dt : Nat), s.link = .released → s.powered = true →
    exec (.selectAsserted dt) s =
      .next { s with now := s.now + dt, link := .awaitingFrame, resetLine := false, dataOut := [] }) ∧
  ∀ (s : State) (dt : Nat), s.link.restartDue = false →
    exec (.selectReleased dt) s = .next { s with now := s.now + dt, link := .released, dataOut := [] }

/-! ### The map store's commands -/

/-- Validation visits the circuit descriptor, then the configured zones, boundaries, switches, stations, drives and inputs, each group
in ascending index, and reports the first check that fails in it: its group, its index and its code; where none fails it reports PASS
with group, index and code 0 (R16). What a map that passes satisfies (R17 to R21): at least three zones and zone 0, no SPUR; every
zone reached from zone 0, and zone 0 from every zone that is no SPUR; successors, boundaries, switches, stations, drives and inputs
that are configured and name one another; no line used twice; and lengths that fit the trains. Which boundary check 0x1A examines where
the zone is upstream of both entry boundaries of a successor is the model's choice (assumption log 27). -/
def Obligations.ValidationChecks : Prop :=
  (∀ m : CircuitMap,
    (m.validate = Report.pass ∧ Passes m.circuitChecks ∧ GroupPasses m.zone m.zoneChecks ∧
      GroupPasses m.boundary m.boundaryChecks ∧ GroupPasses m.switch m.switchChecks ∧ GroupPasses m.station m.stationChecks ∧
      GroupPasses m.drive (fun ch _ => m.driveChecks ch) ∧ GroupPasses m.input m.inputChecks) ∨
    ∃ group index code, m.validate = { outcome := .fail, group := group, index := index, code := code } ∧
      (group = 7 ∧ index = 0 ∧ FailsAt m.circuitChecks code ∨
        Passes m.circuitChecks ∧
          (group = 1 ∧ GroupFailsAt m.zone m.zoneChecks index code ∨
            GroupPasses m.zone m.zoneChecks ∧
              (group = 2 ∧ GroupFailsAt m.boundary m.boundaryChecks index code ∨
                GroupPasses m.boundary m.boundaryChecks ∧
                  (group = 3 ∧ GroupFailsAt m.switch m.switchChecks index code ∨
                    GroupPasses m.switch m.switchChecks ∧
                      (group = 4 ∧ GroupFailsAt m.station m.stationChecks index code ∨
                        GroupPasses m.station m.stationChecks ∧
                          (group = 5 ∧ GroupFailsAt m.drive (fun ch _ => m.driveChecks ch) index code ∨
                            GroupPasses m.drive (fun ch _ => m.driveChecks ch) ∧
                              group = 6 ∧ GroupFailsAt m.input m.inputChecks index code))))))) ∧
  ∀ m : CircuitMap, m.validate.outcome = .pass →
    (∃ cd, m.circuit = some cd) ∧ 3 ≤ (List.finRange 48).countP (fun z => (m.zone z).isSome) ∧
    (∃ d, m.zone 0 = some d ∧ d.kind ≠ .spur) ∧
    (∀ z d, m.zone z = some d →
      m.leadsTo 0 z ∧ (d.kind ≠ .spur → m.leadsTo z 0) ∧ (d.kind = .spur → d.succA = none ∧ d.succB = none) ∧
      (d.kind ≠ .spur → d.succA.isSome = true) ∧ (d.succB = none ∨ d.entryB = none) ∧
      (∀ y, d.succA = some y ∨ d.succB = some y → y ≠ z ∧
        ∃ e b bd, m.zone y = some e ∧ (e.entryA = b ∨ e.entryB = some b) ∧ m.boundary b = some bd ∧ bd.up = z ∧ bd.down = y ∧
          (d.kind = .launch → bd.rollback = true)) ∧
      (∀ b, d.entryA = b ∨ d.entryB = some b → ∃ bd, m.boundary b = some bd ∧ bd.down = z) ∧
      (∀ w, d.switch = some w → d.element ≠ .none ∧ d.runB.isSome = true ∧ ∃ sd, m.switch w = some sd ∧ sd.zone = z ∧
        (sd.kind = .merge → d.entryB.isSome = true) ∧ (∀ mode, sd.kind = .diverge mode → d.succB.isSome = true)) ∧
      (d.switch = none → d.succB = none ∧ d.entryB = none ∧ d.runB = none) ∧ (d.kind ≠ .run → d.element ≠ .none) ∧
      (d.kind = .station → d.berth.isSome = true ∧ ∃ st sd, d.station = some st ∧ m.station st = some sd ∧ sd.zone = z) ∧
      (d.kind ≠ .station → d.station = none) ∧
      (∀ ch, d.element = .drive ch → (m.drive ch).isSome = true ∧ ∀ y e, m.zone y = some e → e.element = .drive ch → y = z) ∧
      (∀ o c ms, d.element = .brake o c ms → o ≠ c ∧
        (∀ y e, m.zone y = some e → y ≠ z → o ∉ e.proofLines ∧ c ∉ e.proofLines) ∧
        ∀ w sd, m.switch w = some sd → sd.proofA ≠ o ∧ sd.proofA ≠ c ∧ sd.proofB ≠ o ∧ sd.proofB ≠ c) ∧
      (∀ line, d.berth = some line → (∀ y e, m.zone y = some e → e.berth = some line → y = z) ∧
        ∀ b bd, m.boundary b = some bd → bd.uLine ≠ line ∧ bd.dLine ≠ line) ∧
      (∀ cd, m.circuit = some cd → cd.trainLength ≤ d.runA ∧ ∀ run, d.runB = some run → cd.trainLength ≤ run) ∧
      (∀ a b c, m.isNonStopping z = true → m.isNonStopping a = true → m.isNonStopping b = true → m.isNonStopping c = true →
        ¬((∃ r, m.successor z r = some a) ∧ (∃ r, m.successor a r = some b) ∧ ∃ r, m.successor b r = some c))) ∧
    (∀ b bd, m.boundary b = some bd →
      bd.up ≠ bd.down ∧ (∃ e, m.zone bd.down = some e ∧ (e.entryA = b ∨ e.entryB = some b)) ∧
      (∃ u, m.zone bd.up = some u ∧ (u.succA = some bd.down ∨ u.succB = some bd.down) ∧
        (bd.rollback = true → u.element ≠ .none)) ∧
      bd.uLine ≠ bd.dLine ∧ (∀ cd, m.circuit = some cd → bd.gate < cd.trainLength) ∧
      ∀ b' bd', m.boundary b' = some bd' → b' ≠ b →
        bd.uLine ≠ bd'.uLine ∧ bd.uLine ≠ bd'.dLine ∧ bd.dLine ≠ bd'.uLine ∧ bd.dLine ≠ bd'.dLine) ∧
    (∀ w sd, m.switch w = some sd →
      (∃ d, m.zone sd.zone = some d ∧ d.switch = some w) ∧ sd.outA ≠ sd.outB ∧ sd.proofA ≠ sd.proofB ∧
      ∀ w' sd', m.switch w' = some sd' → w' ≠ w →
        sd.outA ≠ sd'.outA ∧ sd.outA ≠ sd'.outB ∧ sd.outB ≠ sd'.outB ∧
        sd.proofA ≠ sd'.proofA ∧ sd.proofA ≠ sd'.proofB ∧ sd.proofB ≠ sd'.proofB) ∧
    (∀ st sd, m.station st = some sd →
      (∃ d, m.zone sd.zone = some d ∧ d.kind = .station ∧ d.station = some st) ∧
      (∃ x, m.input sd.restraint = some x ∧ x.function = .restraint st) ∧
      (∃ x, m.input sd.gate = some x ∧ x.function = .gate st) ∧
      (∃ x, m.input sd.dispatchA = some x ∧ x.function = .dispatchA st) ∧
      ∃ x, m.input sd.dispatchB = some x ∧ x.function = .dispatchB st) ∧
    ∀ i x, m.input i = some x →
      (∀ z, x.function = .zoneHold z → (m.zone z).isSome = true) ∧
      (∀ st, x.function = .restraint st → ∃ sd, m.station st = some sd ∧ sd.restraint = i) ∧
      (∀ st, x.function = .gate st → ∃ sd, m.station st = some sd ∧ sd.gate = i) ∧
      (∀ st, x.function = .dispatchA st → ∃ sd, m.station st = some sd ∧ sd.dispatchA = i) ∧
      ∀ st, x.function = .dispatchB st → ∃ sd, m.station st = some sd ∧ sd.dispatchB = i

/-- CHECK_MAP, command code 0x12, whatever its object index and argument: BUSY in LOADING, and in the other modes DONE with the
validation report written, with or without a store or a latched ride stop; map, mode and image stay (R185). -/
def Obligations.CheckMap : Prop :=
  ∀ (s : State) (dt : Nat) (f : Frame), s.link.takesFrame = some false →
    commandOf dt 0x12#8 f = .checkMap dt f ∧
    ∃ t, exec (.checkMap dt f) s = .next t ∧
      if s.mode = .loading then t.answered s.selection.isSome .busy ∧ s.onlyRide dt t
      else t.answered s.selection.isSome .done ∧
        t = { s with
          now := s.now + dt, report := s.map.validate, selection := none, ride := s.told, link := t.link, dataOut := t.dataOut, answers := t.answers }

/-- WRITE_MAP_RECORD opens the wait for a block; a block whose check is correct replaces the slot, or vacates it with the body
0x00, and is answered 0xA1, every other slot as it was; one whose content is rejected, by its kind or because its body spells no
descriptor of the slot's kind, is answered 0xA7, one that fails its check 0xA4 with CHECK_ERROR, and both leave the map as it was; a
0x96 abandons the write (R12, R13, R14, R171). That HOST_DATA_BLOCK and WRITE_ABANDONED begin with the bytes of the response still
owed is the model's choice (assumption log 5). -/
def Obligations.WritesReplaceSlots : Prop :=
  (∀ (s : State) (dt : Nat) (f : Frame) (ref : SlotRef), s.takes → s.storing = none → s.mode = .config →
    slotOf f.arg.toNat f.obj.toNat = some ref →
    ∃ t, exec (.writeMapRecord dt f) s = .next t ∧ t.answered s.selection.isSome .done (.awaitBlock ref) ∧
      t = { s with
        now := s.now + dt, selection := none, ride := s.told, link := t.link, dataOut := t.dataOut, answers := t.answers }) ∧
  (∀ (s : State) (dt : Nat) (ref : SlotRef) (kind len : Byte) (body : List Byte) (crc : BitVec 16),
    s.link.heard.2 = .awaitingBlock ref → (Instr.hostDataBlock dt kind len body crc).wf = true →
    ∃ t, exec (.hostDataBlock dt kind len body crc) s = .next t ∧
      (0 < len.toNat ∧ len.toNat ≤ 64 ∧ crc = crc16 (kind :: len :: body) →
        t.dataOut = s.link.heard.1 ++ List.replicate (5 + len.toNat) 0xFF#8 ∧
        (∀ m, s.map.write ref kind.toNat body = some m → t.accepting 0xA1#8 ∧
          t = { s with now := s.now + dt, map := m, link := t.link, dataOut := t.dataOut, answers := t.answers }) ∧
        (s.map.write ref kind.toNat body = none → t.accepting 0xA7#8 ∧
          t = { s with now := s.now + dt, link := t.link, dataOut := t.dataOut, answers := t.answers })) ∧
      (len.toNat = 0 ∨ 64 < len.toNat ∨ crc ≠ crc16 (kind :: len :: body) → t.accepting 0xA4#8 ∧
        t = { s with
          now := s.now + dt, ride := s.ride.raise .checkError, link := t.link, dataOut := t.dataOut,
          answers := t.answers })) ∧
  (∀ (s : State) (dt : Nat) (ref : SlotRef), s.link.heard.2 = .awaitingBlock ref →
    exec (.writeAbandoned dt) s =
      .next { s with now := s.now + dt, link := .receivingFrame false, dataOut := s.link.heard.1 ++ [0xFF#8] }) ∧
  (∀ (m m' : CircuitMap) (ref : SlotRef) (kind : Nat) (body : List Byte), m.write ref kind body = some m' →
    m'.holds ref body ∧ m'.body ref = body ∧ ∀ other, other ≠ ref → m'.body other = m.body other) ∧
  ∀ (m : CircuitMap) (ref : SlotRef) (kind : Nat) (body : List Byte),
    m.write ref kind body ≠ none ↔ kind = ref.kindCode ∧ (body = [0x00#8] ∨ ref.spelled body = true)

/-- STORE_MAP on a map that passes validation begins a store of the working map; on completion the image is VALID, of format version
1, with that content and its CRC, and STORE_DONE is raised (R183). On a map that fails, the report is written and nothing is stored.
RELOAD_MAP in CONFIG makes the image's descriptors the working map, and leaves the report; where the image fails its check the map
stays and LOAD_FAILED is raised (R184). That the image is INVALID from the acceptance of STORE_MAP on, and keeps its old version,
content and CRC meanwhile, is the model's choice (assumption log 2): R183 says that it is INVALID from the first write. -/
def Obligations.StoresAndReloads : Prop :=
  (∀ (s : State) (dt : Nat) (f : Frame), s.takes → s.storing = none → s.mode ≠ .auto → s.map.validate.outcome = .pass →
    ∃ t, exec (.storeMap dt f) s = .next t ∧ t.answered s.selection.isSome .done ∧
      t = { s with
        now := s.now + dt, report := s.map.validate, storing := some s.map, image := { s.image with condition := .invalid },
        selection := none, ride := s.told, link := t.link, dataOut := t.dataOut, answers := t.answers }) ∧
  (∀ (s : State) (dt : Nat) (f : Frame), s.takes → s.storing = none → s.mode ≠ .auto → s.map.validate.outcome ≠ .pass →
    ∃ t, exec (.storeMap dt f) s = .next t ∧ t.answered s.selection.isSome .conflict ∧
      t = { s with
        now := s.now + dt, report := s.map.validate, selection := none, ride := s.told, link := t.link, dataOut := t.dataOut,
        answers := t.answers }) ∧
  (∀ (s : State) (dt : Nat) (m : CircuitMap), s.storing = some m →
    ∃ t, exec (.storeComplete dt) s = .next t ∧ t.image.condition = .valid ∧ t.image.version = 1 ∧ t.image.content = m ∧
      t.image.crc = crc32 (imageBytes 1 m) ∧ t.image.sound = true ∧
      t = { s with now := s.now + dt, storing := none, image := t.image, ride := s.ride.raise .storeDone }) ∧
  ∀ (s : State) (dt : Nat) (f : Frame), s.link.takesFrame = some false → s.storing = none → s.mode = .config →
    ∃ t, exec (.reloadMap dt f) s = .next t ∧
      if s.image.sound then t.answered s.selection.isSome .done ∧
        t = { s with
          now := s.now + dt, map := s.image.content, selection := none, ride := s.told, link := t.link, dataOut := t.dataOut,
          answers := t.answers }
      else t.answered s.selection.isSome .conflict ∧
        t = { s with
          now := s.now + dt, selection := none, ride := s.told.raise .loadFailed, link := t.link, dataOut := t.dataOut,
          answers := t.answers }

/-! ### Start-up and modes -/

/-- RESTART answered DONE waits for its response to be sent. What a start-up reset leaves of any state: LOADING, no record, no
notice, START as the only cause, a vacant map, no store and no transaction; the pins' levels and the time base are as they were,
and the image too but for a store cut off, which leaves it INVALID (R179, R180, R182, R183). It happens by RESTART_TAKES_EFFECT, which
sends what is left of the response, or by SELECT_RELEASED after a RESTART, by POWER_ON without power, and by the reset line with
power. The model's own: that POWER_FAIL makes it too (assumption log 15); that the raw levels of the pins stand through it (log 3), and
the time base (log 19); that the reset line then reads asserted (log 4); that a store cut off leaves the image its old content
(log 2); and that RESTART_TAKES_EFFECT sends the bytes of 0xFF still to come and the rest of the response in its own row (log 5). -/
def Obligations.ResetsDiscardLiveState : Prop :=
  (∀ (s : State) (dt : Nat) (f : Frame), s.takes → s.storing = none → s.mode ≠ .auto →
    ∃ t, exec (.restart dt f) s = .next t ∧ t.answered s.selection.isSome .done .restart ∧
      t = { s with
        now := s.now + dt, selection := none, ride := s.told, link := t.link, dataOut := t.dataOut, answers := t.answers }) ∧
  ∀ (i : Instr) (s : State), s.resetBy i = true →
    ∃ t, exec i s = .next t ∧ t.mode = .loading ∧ t.ride = Ride.reset ∧ t.bounds = Vector.replicate 52 none ∧
      t.selection = none ∧ t.storing = none ∧ t.map = CircuitMap.vacant ∧ t.link = .released ∧ t.outputsReleased ∧
      t.now = s.now + i.wait ∧ t.proofs = s.proofs ∧ t.sensors.high = s.sensors.high ∧ t.inputs.high = s.inputs.high ∧
      (s.storing = none → t.image = s.image) ∧
      (s.storing.isSome = true → t.image.condition = .invalid ∧ t.image.content = s.image.content) ∧
      (∀ dt, i = .powerFail dt → t.powered = false) ∧ (∀ dt, i = .powerOn dt → t.powered = true) ∧
      (∀ dt, i = .resetAsserted dt → t.powered = true ∧ t.resetLine = true) ∧
      ∀ dt wait rest, i = .restartTakesEffect dt → s.link = .responding wait rest .restart →
        t.dataOut = List.replicate wait 0xFF#8 ++ rest

/-- The load in LOADING with power: a sound image whose map passes validation becomes the working map and is taken up; otherwise
the part comes up in CONFIG with a vacant map and LOAD_FAILED, its report NOT_RUN where the image failed its check (R181). That the
load finds the reset line released is the model's choice (assumption log 4), and so is that a NOT_RUN report's group, index and check
code are 0 (assumption log 2). What a map taken up leaves: MAINTENANCE, every configured zone CLEAR without source or fault, no train, every
brake under CLOSE with its output de-asserted (CLOSED where its closed proof is active alone, in FAULT where both are active, and
otherwise CLOSING with its proof timer running), every DRIVE element CLOSED, every configured channel at code 0, every configured
switch locked or in FAULT as its proofs stand, a FAULT reported, every station EMPTY, both filters waiting, and the causes held before
kept (R23, R81, R109, R127, R138, R142, R156). -/
def Obligations.LoadAndTakeUp : Prop :=
  (∀ s : State, s.ride.latched = true →
    (takeUp s).mode = .maintenance ∧ (takeUp s).map = s.map ∧ (takeUp s).selection = none ∧
    (∀ t, (takeUp s).ride.train? t = none) ∧
    (∀ z, (takeUp s).ride.zone? z = (s.map.zone z).map fun _ => { claim := .clear, holds := 0#4, fault := none, entrySpeed := none }) ∧
    (takeUp s).brakesClosing ∧
    (∀ z d, s.map.zone z = some d →
      (∀ o c ms, d.element = .brake o c ms →
        (takeUp s).ride.element? z = some (.brake
          (match tget s.proofs o, tget s.proofs c with
            | false, true => .closed
            | true, true => .fault .proofConflict
            | _, false => .closing (s.now + ms * 1000)) .close) ∧
        (tget s.proofs o = true → tget s.proofs c = true →
          (takeUp s).ride.cause? .elementFault = true ∧ (takeUp s).ride.notice? .fault = true)) ∧
      ∀ ch, d.element = .drive ch → (takeUp s).ride.element? z = some (.drive .closed .close)) ∧
    (∀ ch, (s.map.drive ch).isSome = true → ∃ x, (takeUp s).ride.channel? ch = some x ∧ x.code = 0 ∧ x.target = 0 ∧ x.stepDue = none) ∧
    (∀ w d, s.map.switch w = some d → ∃ x, (takeUp s).ride.switch? w = some x ∧ x.pending = none ∧ x.committed = none ∧
      x.pos = (match tget s.proofs d.proofA, tget s.proofs d.proofB with
        | true, false => .locked .a
        | false, true => .locked .b
        | false, false => .fault .noPosition
        | true, true => .fault .proofConflict) ∧
      (tget s.proofs d.proofA = tget s.proofs d.proofB →
        (takeUp s).ride.cause? .switchFault = true ∧ (takeUp s).ride.notice? .fault = true)) ∧
    (∀ st, (s.map.station st).isSome = true → (takeUp s).ride.station? st = some { state := .empty, pairing := .spent }) ∧
    (takeUp s).sensors.phase = .waiting (s.now + s.filterTime) ∧ (takeUp s).inputs.phase = .waiting (s.now + 20000) ∧
    ∀ cause, s.ride.cause? cause = true → (takeUp s).ride.cause? cause = true) ∧
  ∀ (s : State) (dt : Nat), s.powered = true → s.mode = .loading →
    (s.image.sound = true → s.image.content.validate.outcome = .pass →
      exec (.load dt) s = .next (takeUp { s with
        now := s.now + dt, resetLine := false, map := s.image.content, report := s.image.content.validate })) ∧
    (s.image.sound = true → s.image.content.validate.outcome ≠ .pass →
      exec (.load dt) s = .next { s with
        now := s.now + dt, resetLine := false, map := CircuitMap.vacant, report := s.image.content.validate, mode := .config,
        ride := s.ride.raise .loadFailed }) ∧
    (s.image.sound = false →
      exec (.load dt) s = .next { s with
        now := s.now + dt, resetLine := false, map := CircuitMap.vacant, report := Report.notRun, mode := .config,
        ride := s.ride.raise .loadFailed })

/-- SET_MODE: from CONFIG a map that passes validation is taken up in MAINTENANCE, one that fails leaves the mode; to CONFIG with
no train the map is put away and START latched; between MAINTENANCE and AUTO the mode changes, and leaving AUTO cancels every
demand; the present mode is answered DONE with no change (R155 to R158). -/
def Obligations.SetModeChangesMode : Prop :=
  ∀ (s : State) (dt : Nat) (f : Frame) (target : Mode), s.takes → s.storing = none → modeOf f.arg.toNat = some target →
    ∃ t, exec (.setMode dt f) s = .next t ∧
      (target = s.mode → t.answered s.selection.isSome .done ∧
        t = { s with now := s.now + dt, selection := none, ride := s.told, link := t.link, dataOut := t.dataOut, answers := t.answers }) ∧
      (s.mode = .config → target = .maintenance → s.map.validate.outcome = .pass → t.answered s.selection.isSome .done ∧
        t = { takeUp { s with now := s.now + dt, report := s.map.validate, ride := s.told } with
          link := t.link, dataOut := t.dataOut, answers := t.answers }) ∧
      (s.mode = .config → target = .maintenance → s.map.validate.outcome ≠ .pass → t.answered s.selection.isSome .conflict ∧
        t = { s with
          now := s.now + dt, report := s.map.validate, selection := none, ride := s.told, link := t.link, dataOut := t.dataOut, answers := t.answers }) ∧
      (s.mode = .maintenance → target = .config → s.ride.trainCount = 0 →
        t.answered s.selection.isSome .done ∧ t.mode = .config ∧ t.put ∧ t.outputsReleased ∧ s.sameStore t) ∧
      (s.mode = .maintenance → target = .config → s.ride.trainCount ≠ 0 → t.answered s.selection.isSome .conflict ∧
        t = { s with now := s.now + dt, selection := none, ride := s.told, link := t.link, dataOut := t.dataOut, answers := t.answers }) ∧
      (s.mode = .maintenance → target = .auto → t.answered s.selection.isSome .done ∧ t.mode = .auto ∧ s.sameStore t ∧
        s.sameLines t ∧ t.selection = none ∧ s.told.Keeps t.ride) ∧
      (s.mode = .auto → target = .maintenance → t.answered s.selection.isSome .done ∧ t.mode = .maintenance ∧ s.sameStore t ∧
        s.sameLines t ∧ t.selection = none ∧ s.told.Keeps t.ride ∧ t.noDemand) ∧
      (s.mode = .auto ∧ target = .config ∨ s.mode = .config ∧ target = .auto → t.answered s.selection.isSome .wrongMode ∧
        t = { s with now := s.now + dt, selection := none, ride := s.told, link := t.link, dataOut := t.dataOut, answers := t.answers })

/-- RIDE_STOP latches the ride stop with LINK, outside LOADING always (R162). RESUME outside CONFIG empties the cause set where
no condition of R161 holds, answers CONFLICT where one does, and is DONE with no change where the latch is clear; neither changes
a hold, a fault or a train's place (R161, R163). In MAINTENANCE the latch is then clear. In AUTO the reservations that the step goes
on to make can stop the ride again: each cause then present is one they report, ELEMENT_FAULT or STATION_PROOF, or SWITCH_FAULT where
a switch was moving as the command was taken, and every other cause is gone; with no train on the table the latch is clear. -/
def Obligations.StopAndResume : Prop :=
  (∀ (s : State) (dt : Nat) (f : Frame), s.takes →
    ∃ t, exec (.rideStop dt f) s = .next t ∧ s.onlyRide dt t ∧ t.selection = none ∧ t.answered s.selection.isSome .done ∧
      t.ride.cause? .link = true ∧ t.ride.latched = true ∧ s.told.Keeps t.ride) ∧
  (∀ (s : State) (dt : Nat) (f : Frame), s.takes → s.mode ≠ .config → s.ride.latched = true → s.resumeBarred = false →
    ∃ t, exec (.resume dt f) s = .next t ∧ s.onlyRide dt t ∧ t.selection = none ∧ t.answered s.selection.isSome .done ∧
      ({ s.told with causes := 0#11 } : Ride).Keeps t.ride ∧ (s.mode = .maintenance → t.ride.latched = false) ∧
      (∀ cause, t.ride.cause? cause = true → cause = .elementFault ∨ cause = .stationProof ∨
        cause = .switchFault ∧ ∃ w x side due, s.ride.switch? w = some x ∧ x.pos = .moving side due) ∧
      ((∀ k, s.ride.train? k = none) → t.ride.latched = false)) ∧
  (∀ (s : State) (dt : Nat) (f : Frame), s.takes → s.mode ≠ .config → s.ride.latched = false →
    ∃ t, exec (.resume dt f) s = .next t ∧ t.answered s.selection.isSome .done ∧
      t = { s with now := s.now + dt, selection := none, ride := s.told, link := t.link, dataOut := t.dataOut, answers := t.answers }) ∧
  ∀ (s : State) (dt : Nat) (f : Frame), s.takes → s.mode ≠ .config → s.ride.latched = true →
    (s.ctx.estopActive = true ∨ (∃ z, s.ride.zoneFault z ≠ none) ∨
      (∃ b x cause, tget s.bounds b = some x ∧ x.passage = .fault cause) ∨
      (∃ z cause cmd, s.ride.element? z = some (.brake (.fault cause) cmd)) ∨
      (∃ w x cause, s.ride.switch? w = some x ∧ x.pos = .fault cause) ∨
      (∃ k x, s.ride.train? k = some x ∧ x.phase = .lost) ∨
      s.sensors.phase ≠ .running ∨ s.inputs.phase ≠ .running) →
    ∃ t, exec (.resume dt f) s = .next t ∧ t.answered s.selection.isSome .conflict ∧
      t = { s with now := s.now + dt, selection := none, ride := s.told, link := t.link, dataOut := t.dataOut, answers := t.answers }

/-! ### The train commands -/

/-- ADMIT makes a record in the lowest free slot with the fields of R72, and its zone OCCUPIED by it; RETIRE frees the slot, and no
zone names the train any more; the brake of every zone that it occupied has its output de-asserted. Hold sources, faults and the
other trains are as they were (R36, R50, R72, R73). -/
def Obligations.AdmitAndRetire : Prop :=
  (∀ (s : State) (dt : Nat) (f : Frame) (z : ZoneIx) (d : ZoneDesc) (k : SlotIx), s.takes → s.mode = .maintenance →
    1 ≤ f.arg.toNat → f.arg.toNat ≤ 255 → s.map.zoneNamed f.obj.toNat = some (z, d) → s.ride.labelUsed f.arg.toNat = false →
    s.ride.trainCount < s.map.admissionLimit → s.ride.freeIx = some k → s.canAdmit z d = true →
    ∃ t, exec (.admitTrain dt f) s = .next t ∧ s.onlyRide dt t ∧ t.selection = none ∧ t.answered s.selection.isSome .done ∧
      (s.told.putTrain k (admittedTrain (s.map.isSpur z) z f.arg.toNat)).Keeps t.ride ∧
      t.ride.train? k = some (admittedTrain (s.map.isSpur z) z f.arg.toNat) ∧ t.ride.claim? z = some (.occupied k)) ∧
  ∀ (s : State) (dt : Nat) (f : Frame) (k : SlotIx) (x : Train), s.takes → s.mode = .maintenance →
    s.ride.trainNamed f.obj.toNat = some (k, x) →
    (x.phase = .held ∨ x.phase = .parked ∨ x.phase = .overdue ∨ x.phase = .lost) →
    ∃ t, exec (.retire dt f) s = .next t ∧ s.onlyRide dt t ∧ t.selection = none ∧ t.answered s.selection.isSome .done ∧
      (s.told.freeSlot k).Keeps t.ride ∧ t.ride.train? k = none ∧ t.ride.presented? k = none ∧
      (∀ z, (t.ride.claim? z).bind (·.holder) ≠ some k) ∧
      ∀ z, s.ride.occupant? z = some k → t.elementOutput z = false

/-- When a train can be stepped, and with which chain: the conditions of R74 one by one, a zone of the chain being available as R31
gives for a STEP. STEP reserves that chain and marks the train stepping; without one it is answered CONFLICT. Unless the step itself
stops the ride, every zone of the chain is RESERVED for it and the brake of its zone has its output asserted, or the drive's element
stands under OPEN_CREEP, OPEN where its channel is at the creep code and otherwise OPENING, with the channel's target at that code
(R30, R31, R33, R35, R74, R133). DIRECT sets the directive of
the train named, or removes it, and changes nothing else (R76). -/
def Obligations.StepAndDirect : Prop :=
  (∀ (c : Ctx) (r : Ride) (k : SlotIx) (x : Train) (chain : List ZoneIx), stepChain c r k x = some chain ↔
    x.phase = .held ∧ r.latched = false ∧ c.map.isSpur x.head = false ∧ c.map.isStopping x.head = true ∧
    (∃ zr, r.zone? x.head = some zr ∧ zr.holds = 0#4 ∧ zr.fault = none) ∧
    (∀ cause cmd, r.element? x.head ≠ some (.brake (.fault cause) cmd)) ∧ x.chain = [] ∧
    (∀ d, c.map.zone x.head = some d → d.kind = .station →
      ∃ st sd, d.station = some st ∧ c.map.station st = some sd ∧ c.active sd.restraint = true ∧ c.active sd.gate = true) ∧
    prospectiveChain c r x = some chain ∧
    ∀ (n : Nat) (before z : ZoneIx), (x.head :: chain)[n]? = some before → chain[n]? = some z →
      (∃ zr, r.zone? z = some zr ∧ zr.claim = .clear ∧ zr.fault = none ∧ (c.map.isStopping z = false → zr.holds = 0#4)) ∧
      (∀ w, c.map.divergeAt z = some w →
        ∃ sx at_ setting last, r.switch? w = some sx ∧ sx.pos = .locked at_ ∧ sx.role = .diverge setting last) ∧
      ∀ w, c.map.mergeAt z = some w →
        ∃ sx side reqA reqB arb served, r.switch? w = some sx ∧ sx.role = .merge reqA reqB arb served ∧
          c.map.sideFrom z before = some side ∧ ((∃ j, arb = .granted side j) ∨ arb = .idle ∧ sx.pos = .locked side)) ∧
  (∀ (s : State) (dt : Nat) (f : Frame) (k : SlotIx) (x : Train), s.takes → s.mode = .maintenance →
    s.ride.trainNamed f.obj.toNat = some (k, x) → stepChain s.ctx s.ride k x = none →
    ∃ t, exec (.stepTrain dt f) s = .next t ∧ s.turnedAway (.stepTrain dt f) .conflict t) ∧
  (∀ (s : State) (dt : Nat) (f : Frame) (k : SlotIx) (x : Train) (chain : List ZoneIx), s.takes → s.mode = .maintenance →
    s.ride.trainNamed f.obj.toNat = some (k, x) → stepChain s.ctx s.ride k x = some chain →
    ∃ t, exec (.stepTrain dt f) s = .next t ∧ s.onlyRide dt t ∧ t.selection = none ∧ t.answered s.selection.isSome .done ∧
      s.told.Keeps t.ride ∧
      (t.ride.latched = false →
        (∃ y, t.ride.train? k = some y ∧ y.chain = chain ∧ y.stepping = true) ∧
        (∀ z, z ∈ chain → t.ride.claim? z = some (.reserved k)) ∧
        (∀ st cmd, s.ride.element? x.head = some (.brake st cmd) → t.elementOutput x.head = true) ∧
        ∀ st cmd ch dd cx, s.ride.element? x.head = some (.drive st cmd) → s.map.elementAt x.head = .drive ch →
          s.map.drive ch = some dd → s.ride.channel? ch = some cx →
          t.ride.element? x.head = some (.drive (if cx.code = dd.creep then .opened else .opening) .openCreep) ∧
            ∃ y, t.ride.channel? ch = some y ∧ y.target = dd.creep ∧ y.code = cx.code)) ∧
  ∀ (s : State) (dt : Nat) (f : Frame) (k : SlotIx) (x : Train) (w : SwitchIx), s.takes → s.mode ≠ .config →
    s.ride.trainNamed f.obj.toNat = some (k, x) →
    (∀ side : Side, s.map.isDiverge w = true → f.arg.toNat = 256 * w.val + side.code →
      ∃ t, exec (.direct dt f) s = .next t ∧ t.answered s.selection.isSome .done ∧
        t = { s with
          now := s.now + dt, selection := none, ride := s.told.putTrain k { x with directive := some (w, side) },
          link := t.link, dataOut := t.dataOut, answers := t.answers }) ∧
    (f.arg.toNat = 256 * w.val + 2 →
      ∃ t, exec (.direct dt f) s = .next t ∧ t.answered s.selection.isSome .done ∧
        t = { s with
          now := s.now + dt, selection := none, ride := s.told.putTrain k { x with directive := none },
          link := t.link, dataOut := t.dataOut, answers := t.answers })

/-! ### Holds, the hold selection and faults -/

/-- HOLD adds LINK to the zone named and RELEASE_HOLD removes the source named; every other source, every fault and every train's
place stay. A zone that HOLD finds without LINK has its element commanded closed: a brake's output is de-asserted, and a RUNNING
train whose head zone it is goes to STOPPING on the stop allowance (R36, R41, R42, R60, R103). -/
def Obligations.HoldAndRelease : Prop :=
  ∀ (s : State) (dt : Nat) (f : Frame) (z : ZoneIx) (d : ZoneDesc) (x : ZoneRec), s.takes → s.mode ≠ .config →
    s.map.zoneNamed f.obj.toNat = some (z, d) → s.ride.zone? z = some x →
    (∃ t, exec (.hold dt f) s = .next t ∧ s.onlyRide dt t ∧ t.selection = none ∧ t.answered s.selection.isSome .done ∧
      (s.told.putZone z { x with holds := x.holds ||| 1#4 }).Keeps t.ride ∧
      (x.holds? .link = false → t.elementOutput z = false) ∧
      ∀ k y, x.holds? .link = false → (s.ride.element? z).isSome = true → s.ride.occupant? z = some k →
        s.ride.train? k = some y → y.head = z → y.phase = .running →
        ∃ y', t.ride.train? k = some y' ∧ y'.phase = .stopping ∧
          y'.deadline = some { kind := .stop, start := s.now + dt, duration := d.stop, early := none }) ∧
    (∀ src : HoldSource, f.arg.toNat = src.bit → src ≠ .input → (src = .overdue → s.ride.overdueIn z = false) →
      ∃ t, exec (.releaseHold dt f) s = .next t ∧ s.onlyRide dt t ∧ t.selection = none ∧
        t.answered s.selection.isSome .done ∧
        (s.told.putZone z { x with holds := x.holds &&& ~~~(1#4 <<< src.bit) }).Keeps t.ride) ∧
    (f.arg.toNat = HoldSource.overdue.bit → s.ride.overdueIn z = true →
      ∃ t, exec (.releaseHold dt f) s = .next t ∧ s.turnedAway (.releaseHold dt f) .conflict t) ∧
    (f.arg.toNat = HoldSource.input.bit →
      ∃ t, exec (.releaseHold dt f) s = .next t ∧ s.turnedAway (.releaseHold dt f) .badArgument t)

/-- SELECT_FIRST opens a selection of the one zone named. SELECT_LAST adds the zones of the walk along the primary route from the
first zone to the zone named, each once; where the walk does not reach it, the selection stays as it was (R43, R44). -/
def Obligations.SelectFirstAndLast : Prop :=
  ∀ (s : State) (dt : Nat) (f : Frame) (z : ZoneIx) (d : ZoneDesc), s.takes → s.mode ≠ .config →
    s.map.zoneNamed f.obj.toNat = some (z, d) →
    (∃ t, exec (.selectFirst dt f) s = .next t ∧ t.answered false .done ∧
      t = { s with
        now := s.now + dt, selection := some { first := z, zones := [z] }, link := t.link, dataOut := t.dataOut, answers := t.answers }) ∧
    ∀ sel, s.selection = some sel →
      (∀ walk : List ZoneIx, walk.head? = some sel.first → walk.getLast? = some z → walk.length ≤ 49 →
        (∀ k a, walk[k]? = some a → k + 1 < walk.length → a ≠ z) →
        (∀ k a b, walk[k]? = some a → walk[k + 1]? = some b → s.map.successor a .a = some b) →
        ∃ t zones, exec (.selectLast dt f) s = .next t ∧ t.answered false .done ∧
          (∀ y, y ∈ zones ↔ y ∈ sel.zones ∨ y ∈ walk) ∧ (sel.zones.Nodup → zones.Nodup) ∧
          t = { s with
            now := s.now + dt, selection := some { first := sel.first, zones := zones }, link := t.link,
            dataOut := t.dataOut, answers := t.answers }) ∧
      (s.map.primaryWalk z 48 sel.first = none →
        ∃ t, exec (.selectLast dt f) s = .next t ∧ s.turnedAway (.selectLast dt f) .badArgument t)

/-- DESELECT, command code 0x44, outside CONFIG: the zone named leaves the set of the open selection; a zone that is not in the set
leaves it as it was; the selection stays open with its first zone, the set empty or not; the answer is DONE (R45). -/
def Obligations.DeselectRemovesZone : Prop :=
  ∀ (s : State) (dt : Nat) (f : Frame) (z : ZoneIx) (d : ZoneDesc) (sel : Selection), s.takes → s.mode ≠ .config →
    s.selection = some sel → s.map.zoneNamed f.obj.toNat = some (z, d) →
    commandOf dt 0x44#8 f = .deselect dt f ∧
    ∃ t zones, exec (.deselect dt f) s = .next t ∧ t.answered false .done ∧
      (∀ y, y ∈ zones ↔ y ∈ sel.zones ∧ y ≠ z) ∧ (z ∉ sel.zones → zones = sel.zones) ∧
      t = { s with
        now := s.now + dt, selection := some { first := sel.first, zones := zones }, link := t.link, dataOut := t.dataOut, answers := t.answers }

/-- APPLY_SELECTION adds LINK to every selected zone, or removes it from every one, and closes the selection; with argument 0 a
selected zone that did not hold LINK has its brake's output de-asserted. Other sources, faults and trains stay (R46). -/
def Obligations.ApplyHoldsOrReleases : Prop :=
  ∀ (s : State) (dt : Nat) (f : Frame) (sel : Selection), s.takes → s.mode ≠ .config → s.selection = some sel →
    (f.arg.toNat = 0 ∨ f.arg.toNat = 1) →
    ∃ t, exec (.applySelection dt f) s = .next t ∧ s.onlyRide dt t ∧ t.selection = none ∧ t.answered false .done ∧
      (sel.zones.foldl (fun r z => r.withLink (f.arg.toNat == 0) z) s.ride).Keeps t.ride ∧
      (f.arg.toNat = 0 → ∀ z, z ∈ sel.zones → (s.ride.zone? z).isSome = true → s.ride.held z .link = false →
        t.elementOutput z = false)

/-- CLEAR_FAULT, by class: a zone's cause becomes absent unless a boundary beside it is in FAULT (R49); a boundary in FAULT with
both sensors uncovered goes to CLEAR (R90); a brake in FAULT with its closed proof alone active goes to CLOSED (Table 7-8); a
switch in FAULT proven at one position locks there, where its zone is CLEAR or committed there (Table 6-4). A zone beside a
boundary in FAULT, a boundary with a sensor covered, a brake whose proofs read otherwise, a switch not proven at one position and one
whose zone is not CLEAR and not committed at the position proven are answered CONFLICT. An object that is not in FAULT is answered
DONE: a zone keeps its hold sources, its entry speed and no cause, and of the other classes nothing changes. The position of a brake and of a switch after it is stated with the ride stop latched, under which
nothing opens or moves it again at once. -/
def Obligations.ClearFaults : Prop :=
  (∀ (s : State) (dt : Nat) (f : Frame) (z : ZoneIx) (d : ZoneDesc) (x : ZoneRec), s.takes → s.mode ≠ .config →
    f.arg.toNat = 1 → s.map.zoneNamed f.obj.toNat = some (z, d) → s.ride.zone? z = some x →
    (s.faultBeside z = false →
      ∃ t, exec (.clearFaultZone dt f) s = .next t ∧ s.onlyRide dt t ∧ t.selection = none ∧
        t.answered s.selection.isSome .done ∧ (s.told.putZone z { x with fault := none }).Keeps t.ride ∧
        (x.fault = none → s.told.Keeps t.ride)) ∧
    (∀ b y bd cause, s.map.boundary b = some bd → (bd.up = z ∨ bd.down = z) → tget s.bounds b = some y →
      y.passage = .fault cause →
      ∃ t, exec (.clearFaultZone dt f) s = .next t ∧ s.turnedAway (.clearFaultZone dt f) .conflict t)) ∧
  (∀ (s : State) (dt : Nat) (obj : Byte) (b : BoundaryIx) (d : BoundaryDesc) (x : BoundaryRec) (cause : BoundaryFault),
    s.takes → s.mode ≠ .config → s.map.boundaryNamed obj.toNat = some (b, d) → tget s.bounds b = some x →
    x.passage = .fault cause →
    if tget s.sensors.covered d.uLine = true ∨ tget s.sensors.covered d.dLine = true then
      ∃ t, exec (.clearFaultBoundary dt obj) s = .next t ∧ s.turnedAway (.clearFaultBoundary dt obj) .conflict t
    else ∃ t, exec (.clearFaultBoundary dt obj) s = .next t ∧ t.answered s.selection.isSome .done ∧
      t = { s with
        now := s.now + dt, bounds := tput s.bounds b (some { x with passage := .clear }), selection := none, ride := s.told,
        link := t.link, dataOut := t.dataOut, answers := t.answers }) ∧
  (∀ (s : State) (dt : Nat) (obj : Byte), s.takes → s.mode ≠ .config →
    (∀ b d x, s.map.boundaryNamed obj.toNat = some (b, d) → tget s.bounds b = some x → (∀ cause, x.passage ≠ .fault cause) →
      ∃ t, exec (.clearFaultBoundary dt obj) s = .next t ∧ s.turnedAway (.clearFaultBoundary dt obj) .done t) ∧
    (∀ z d, s.map.zoneNamed obj.toNat = some (z, d) → d.element ≠ .none →
      (∀ cause cmd, s.ride.element? z ≠ some (.brake (.fault cause) cmd)) →
      ∃ t, exec (.clearFaultElement dt obj) s = .next t ∧ s.turnedAway (.clearFaultElement dt obj) .done t) ∧
    ∀ w d x, s.map.switchNamed obj.toNat = some (w, d) → s.ride.switch? w = some x → (∀ cause, x.pos ≠ .fault cause) →
      ∃ t, exec (.clearFaultSwitch dt obj) s = .next t ∧ s.turnedAway (.clearFaultSwitch dt obj) .done t) ∧
  (∀ (s : State) (dt : Nat) (obj : Byte) (z : ZoneIx) (d : ZoneDesc) (o c : ProofLine) (ms : Nat) (cause : ElementFault)
    (cmd : ElementCommand), s.takes → s.mode ≠ .config → s.map.zoneNamed obj.toNat = some (z, d) → d.element = .brake o c ms →
    s.ride.element? z = some (.brake (.fault cause) cmd) →
    if tget s.proofs c = true ∧ tget s.proofs o = false then
      ∃ t, exec (.clearFaultElement dt obj) s = .next t ∧ s.onlyRide dt t ∧ t.selection = none ∧
        t.answered s.selection.isSome .done ∧ s.told.Keeps t.ride ∧
        (s.ride.latched = true → t.ride.element? z = some (.brake .closed .close))
    else ∃ t, exec (.clearFaultElement dt obj) s = .next t ∧ s.turnedAway (.clearFaultElement dt obj) .conflict t) ∧
  ∀ (s : State) (dt : Nat) (obj : Byte) (w : SwitchIx) (d : SwitchDesc) (x : SwitchRec) (cause : SwitchFault) (side : Side),
    s.takes → s.mode ≠ .config → s.map.switchNamed obj.toNat = some (w, d) → s.ride.switch? w = some x → x.pos = .fault cause →
    (tget s.proofs d.proofA = tget s.proofs d.proofB →
      ∃ t, exec (.clearFaultSwitch dt obj) s = .next t ∧ s.turnedAway (.clearFaultSwitch dt obj) .conflict t) ∧
    (tget s.proofs d.proofA = (side == .a) → tget s.proofs d.proofB = (side == .b) → s.ride.claim? d.zone ≠ some .clear →
      x.committed ≠ some side →
      ∃ t, exec (.clearFaultSwitch dt obj) s = .next t ∧ s.turnedAway (.clearFaultSwitch dt obj) .conflict t) ∧
    (tget s.proofs d.proofA = (side == .a) → tget s.proofs d.proofB = (side == .b) →
      (s.ride.claim? d.zone = some .clear ∨ x.committed = some side) →
      ∃ t, exec (.clearFaultSwitch dt obj) s = .next t ∧ s.onlyRide dt t ∧ t.selection = none ∧
        t.answered s.selection.isSome .done ∧ s.told.Keeps t.ride ∧
        (s.ride.latched = true → x.pending = none →
          (∀ reqA reqB arb served, x.role = .merge reqA reqB arb served → reqA = none ∧ reqB = none) →
          t.ride.lockOf w = some side))

/-! ### Stations and switches -/

/-- DISPATCH at a READY station in AUTO makes it PENDING from the link with its wait started, or, where the chain is had at
once, RELEASING; CANCEL_DISPATCH cancels a demand with its notice, which leaves the station READY in a map that names it in
STATION zones alone, is refused in RELEASING and otherwise is answered DONE and changes nothing (R18, R149, R150, R151). -/
def Obligations.DispatchAndCancel : Prop :=
  ∀ (s : State) (dt : Nat) (f : Frame) (st : StationIx) (d : StationDesc) (x : StationRec), s.takes →
    s.map.stationNamed f.obj.toNat = some (st, d) → s.ride.station? st = some x →
    (s.mode = .auto → d.authority ≠ .buttons → s.ride.latched = false → x.state = .ready →
      ∃ t, exec (.dispatch dt f) s = .next t ∧ s.onlyRide dt t ∧ t.selection = none ∧ t.answered s.selection.isSome .done ∧
        s.told.Keeps t.ride ∧
        (t.ride.latched = false → ∃ y, t.ride.station? st = some y ∧
          (y.state = .pending .link (s.now + dt + d.dispatchWait * 1000) ∨ y.state.isReleasing = true))) ∧
    (s.mode ≠ .config → x.state.isPending = true →
      ∃ t, exec (.cancelDispatch dt f) s = .next t ∧ s.onlyRide dt t ∧ t.selection = none ∧
        t.answered s.selection.isSome .done ∧ s.told.Keeps t.ride ∧ t.ride.notice? .dispatchCancelled = true ∧
        ∃ y, t.ride.station? st = some y ∧ y.state.isPending = false ∧ y.pairing = x.pairing ∧
          ((∀ z zd, s.map.zone z = some zd → zd.station = some st → zd.kind = .station) → y.state = .ready)) ∧
    (s.mode ≠ .config → x.state.isReleasing = true →
      ∃ t, exec (.cancelDispatch dt f) s = .next t ∧ s.turnedAway (.cancelDispatch dt f) .conflict t) ∧
    (s.mode ≠ .config → x.state.isPending = false → x.state.isReleasing = false →
      ∃ t, exec (.cancelDispatch dt f) s = .next t ∧ s.turnedAway (.cancelDispatch dt f) .done t)

/-- SET_ROUTE_MODE rewrites the route mode of the diverge switch named and nothing else of the map (R122). MOVE_SWITCH on a switch
whose zone is CLEAR and whose arbiter, if it has one, is at rest starts the move from the other position, with its output
asserted and its timer at the move timeout; it leaves a switch already there, joins a move toward it, and waits behind a move
away (R112, R123). -/
def Obligations.RouteModesAndMoves : Prop :=
  (∀ (s : State) (dt : Nat) (f : Frame) (w : SwitchIx) (d : SwitchDesc) (old new : RouteMode), s.takes →
    s.map.switchNamed f.obj.toNat = some (w, d) → d.kind = .diverge old → f.arg.toNat = new.code →
    ∃ t, exec (.setRouteMode dt f) s = .next t ∧ t.answered s.selection.isSome .done ∧
      t = { s with
        now := s.now + dt, map := { s.map with switches := tput s.map.switches w (some { d with kind := .diverge new }) },
        selection := none, ride := s.told, link := t.link, dataOut := t.dataOut, answers := t.answers }) ∧
  ∀ (s : State) (dt : Nat) (f : Frame) (w : SwitchIx) (d : SwitchDesc) (x : SwitchRec) (side : Side), s.takes →
    s.mode = .maintenance → s.map.switchNamed f.obj.toNat = some (w, d) → f.arg.toNat = side.code →
    s.ride.switch? w = some x → s.ride.claim? d.zone = some .clear →
    (∀ reqA reqB arb served, x.role = .merge reqA reqB arb served → reqA = none ∧ reqB = none ∧ arb = .idle) →
    (∀ cause, x.pos ≠ .fault cause) →
    ∃ t y, exec (.moveSwitch dt f) s = .next t ∧ s.onlyRide dt t ∧ t.selection = none ∧
      t.answered s.selection.isSome .done ∧ s.told.Keeps t.ride ∧ t.ride.switch? w = some y ∧
      match x.pos with
      | .locked at_ =>
        y.pending = none ∧
        if at_ = side then y.pos = .locked side
        else y.pos = .moving side (s.now + dt + d.timeout * 1000) ∧
          t.switchOutput (match side with | .a => d.outA | .b => d.outB) = true
      | .moving toward due =>
        y.pos = .moving toward due ∧ y.pending = if toward = side then none else some (side, .link)
      | .fault _ => True

/-! ### The interlock's own reservations, the merge arbiter and diverge routing -/

/-- When a train is eligible in AUTO (R29), what its prospective chain is (R30), and when a zone of its chain is available (R31). The
chain begins with the successor of the head zone, on the route at which a diverge switch there stands locked, and there is none while
that switch is not locked; each further zone is the successor of the one before, while that is non-stopping; it holds one to four
zones, and in a map that passes validation it ends with its only stopping zone and holds no zone twice. A train that is eligible, whose chain is
presented and has every zone available, has it reserved in full: every zone of it RESERVED for the train, no other claim changed, the
presentation withdrawn, and the brake of its zone commanded open; and otherwise nothing is reserved (R33, R35). In AUTO, RELEASE_HOLD
of the one source that holds a train HELD in a stopping zone, OVERDUE among them, does so at once, where the train is alone on the
table and every zone of its chain is clear, unheld and without a switch: the brake's output is asserted, or the drive's element under
OPEN_RUN and its channel's target at the run code. This is said where the ride is not stopped: a brake's proofs may fault it. -/
def Obligations.AutoReservesChains : Prop :=
  (∀ (c : Ctx) (r : Ride) (x : Train), eligible c r x = true ↔
    c.mode = .auto ∧ r.latched = false ∧
    (x.phase = .entering ∨ x.phase = .running ∨ x.phase = .stopping ∨ x.phase = .held) ∧
    c.map.isSpur x.head = false ∧ c.map.isStopping x.head = true ∧
    (∃ zr, r.zone? x.head = some zr ∧ zr.holds = 0#4 ∧ zr.fault = none) ∧
    (∀ cause cmd, r.element? x.head ≠ some (.brake (.fault cause) cmd)) ∧ x.chain = [] ∧
    ∀ d, c.map.zone x.head = some d → d.kind = .station →
      ∃ st sr source due, d.station = some st ∧ r.station? st = some sr ∧ sr.state = .pending source due) ∧
  (∀ (c : Ctx) (r : Ride) (x : Train) (first : Option ZoneIx),
    (c.map.divergeAt x.head = none → first = c.map.successor x.head .a) →
    (∀ w, c.map.divergeAt x.head = some w →
      (∀ sx side, r.switch? w = some sx → sx.pos = .locked side → first = c.map.successor x.head side) ∧
      ((∀ sx side, r.switch? w = some sx → sx.pos ≠ .locked side) → first = none)) →
    (first = none → prospectiveChain c r x = none) ∧
    ∀ z, first = some z →
      ∃ chain last, prospectiveChain c r x = some chain ∧ chain.head? = some z ∧ chain.getLast? = some last ∧ chain.length ≤ 4 ∧
        (∀ n y, chain[n]? = some y → n + 1 < chain.length →
          c.map.isNonStopping y = true ∧ chain[n + 1]? = c.map.successor y .a) ∧
        (c.map.isNonStopping last = false ∨ chain.length = 4 ∨ c.map.successor last .a = none) ∧
        (c.map.validate.outcome = .pass → c.map.isStopping last = true ∧ chain.Nodup)) ∧
  (∀ (c : Ctx) (r : Ride) (k : SlotIx) (before z : ZoneIx), zoneAvailable c r k false before z = true ↔
    (∃ zr, r.zone? z = some zr ∧ zr.claim = .clear ∧ zr.fault = none ∧ (c.map.isStopping z = false → zr.holds = 0#4)) ∧
    (∀ w, c.map.divergeAt z = some w →
      ∃ sx side last, r.switch? w = some sx ∧ sx.pos = .locked side ∧ sx.role = .diverge (some (k, side)) last) ∧
    ∀ w, c.map.mergeAt z = some w →
      ∃ sx reqA reqB side j served, r.switch? w = some sx ∧ sx.role = .merge reqA reqB (.granted side j) served ∧
        c.map.sideFrom z before = some side) ∧
  (∀ (c : Ctx) (r : Ride) (k : SlotIx) (x : Train) (chain : List ZoneIx), r.train? k = some x → r.presented? k = some chain →
    (eligible c r x = true →
      (∀ (n : Nat) (before z : ZoneIx), (x.head :: chain)[n]? = some before → chain[n]? = some z → zoneAvailable c r k false before z = true) →
      (∃ y, (reserveIfAvailable c k r).train? k = some y ∧ y.chain = chain) ∧ (reserveIfAvailable c k r).presented? k = none ∧
      (∀ z, z ∈ chain → (reserveIfAvailable c k r).claim? z = some (.reserved k)) ∧
      (∀ z, z ∉ chain → (reserveIfAvailable c k r).claim? z = r.claim? z) ∧
      ∀ st cmd, r.element? x.head = some (.brake st cmd) → (reserveIfAvailable c k r).latched = false →
        ∃ st' cmd', (reserveIfAvailable c k r).element? x.head = some (.brake st' cmd') ∧ st'.output = true) ∧
    (eligible c r x = false ∨
      (∃ (n : Nat) (before z : ZoneIx), (x.head :: chain)[n]? = some before ∧ chain[n]? = some z ∧ zoneAvailable c r k false before z = false) →
      reserveIfAvailable c k r = r)) ∧
  ∀ (s : State) (dt : Nat) (f : Frame) (z : ZoneIx) (d : ZoneDesc) (zr : ZoneRec) (k : SlotIx) (x : Train) (chain : List ZoneIx)
    (src : HoldSource), s.takes → s.mode = .auto → s.ride.latched = false →
    s.map.zoneNamed f.obj.toNat = some (z, d) → d.kind ≠ .station → d.kind ≠ .spur → d.element ≠ .none →
    (∀ cause cmd, s.ride.element? z ≠ some (.brake (.fault cause) cmd)) →
    f.arg.toNat = src.bit → src ≠ .input → s.ride.zone? z = some zr → zr.holds = 1#4 <<< src.bit → zr.fault = none →
    s.ride.train? k = some x → x.head = z → x.phase = .held → x.chain = [] → (∀ j, j ≠ k → s.ride.train? j = none) →
    s.ride.presented? k = none → prospectiveChain s.ctx s.ride x = some chain →
    (∀ y, y ∈ chain → s.ride.claim? y = some .clear ∧ s.ride.zoneFault y = none ∧ (∀ src', s.ride.held y src' = false) ∧
      s.map.divergeAt y = none ∧ s.map.mergeAt y = none) →
    ∃ t, exec (.releaseHold dt f) s = .next t ∧ t.answered s.selection.isSome .done ∧
      (t.ride.latched = false →
        (∃ y, t.ride.train? k = some y ∧ y.chain = chain) ∧ (∀ y, y ∈ chain → t.ride.claim? y = some (.reserved k)) ∧
        (∀ st cmd, s.ride.element? z = some (.brake st cmd) → t.elementOutput z = true) ∧
        ∀ st cmd ch dd cx, s.ride.element? z = some (.drive st cmd) → d.element = .drive ch → s.map.drive ch = some dd →
          s.ride.channel? ch = some cx → (∃ st', t.ride.element? z = some (.drive st' .openRun)) ∧
            ∃ y, t.ride.channel? ch = some y ∧ y.target = dd.run)

/-- The merge arbiter (R114 to R119) and diverge routing (R120, R121), on the operations by which the switch controller keeps them. A
chain presented joins the request set of the merge it ends at, or has a route chosen for it at the diverge; its withdrawal takes the
request, a grant to the train and the route setting away. An IDLE arbiter with a clear zone and no fault picks the one side that
asks, or of two the one not served last, and discards another source's pending request; it grants a side at which the switch stands
and otherwise aligns it. ALIGNING becomes GRANTED as the switch locks at its side, and IDLE as its request is gone or the switch
faults. The reservation of the zone takes a grant into use and sets the last-served side; the zone's return to CLEAR ends the use.
The route chosen is the directive's, or by the route mode; the reservation makes it the last route. -/
def Obligations.ArbiterAndRouting : Prop :=
  (∀ (c : Ctx) (k : SlotIx) (x : Train) (chain : List ZoneIx) (r : Ride) (z : ZoneIx) (w : SwitchIx) (sx : SwitchRec),
    chain.getLast? = some z → r.switch? w = some sx →
    (∀ reqA reqB arb served, c.map.divergeAt z = none → c.map.mergeAt z = some w → sx.role = .merge reqA reqB arb served →
      (c.map.sideFrom z x.head = some .a →
        present c k x chain r = r.putSwitch w { sx with role := .merge (some k) reqB arb served }) ∧
      (c.map.sideFrom z x.head = some .b →
        present c k x chain r = r.putSwitch w { sx with role := .merge reqA (some k) arb served }) ∧
      (c.map.sideFrom z x.head = none → present c k x chain r = r)) ∧
    (∀ d setting last, c.map.divergeAt z = some w → c.map.switch w = some d → sx.role = .diverge setting last →
      (c.map.predecessor z .a ≠ some x.head → present c k x chain r = r) ∧
      (c.map.predecessor z .a = some x.head →
        ∃ sy, (present c k x chain r).switch? w = some sy ∧
          sy.role = .diverge (some (k, chooseRoute c r w d x last)) last ∧
          (sx.pos = .locked (chooseRoute c r w d x last) → sy.pos = sx.pos ∧ sy.pending = none) ∧
          (∀ at_, sx.pos = .locked at_ → at_ ≠ chooseRoute c r w d x last →
            (r.claim? d.zone = some .clear →
              sy.pos = .moving (chooseRoute c r w d x last) (c.now + d.timeout * 1000) ∧ sy.pending = none) ∧
            (r.claim? d.zone ≠ some .clear →
              sy.pos = sx.pos ∧ sy.pending = some (chooseRoute c r w d x last, .routing)))))) ∧
  (∀ (k : SlotIx) (r : Ride) (w : SwitchIx) (sx : SwitchRec), r.switch? w = some sx →
    ∃ sy, (withdrawSwitches k r).switch? w = some sy ∧ sy.pos = sx.pos ∧ sy.committed = sx.committed ∧
      (∀ reqA reqB arb served, sx.role = .merge reqA reqB arb served →
        ∃ reqA' reqB' arb', sy.role = .merge reqA' reqB' arb' served ∧ (reqA = some k → reqA' = none) ∧
          (reqA ≠ some k → reqA' = reqA) ∧ (reqB = some k → reqB' = none) ∧ (reqB ≠ some k → reqB' = reqB) ∧
          (∀ side, arb = .granted side k → arb' = .idle) ∧ ((∀ side, arb ≠ .granted side k) → arb' = arb)) ∧
      ∀ setting last, sx.role = .diverge setting last →
        ∃ setting', sy.role = .diverge setting' last ∧
          (∀ side, setting = some (k, side) → setting' = none ∧ ∀ y, sx.pending = some (y, .routing) → sy.pending = none) ∧
          ((∀ side, setting ≠ some (k, side)) → setting' = setting ∧ sy.pending = sx.pending)) ∧
  (∀ (c : Ctx) (w : SwitchIx) (r : Ride) (sx : SwitchRec) (d : SwitchDesc) (reqA reqB : Option SlotIx) (arb : Arbiter) (served : Side),
    r.switch? w = some sx → c.map.switch w = some d → sx.role = .merge reqA reqB arb served →
    (∀ side k, arb = .idle → r.claim? d.zone = some .clear → (∀ cause, sx.pos ≠ .fault cause) →
      (side = .a ∧ reqA = some k ∧ (reqB = none ∨ served = .b) ∨ side = .b ∧ reqB = some k ∧ (reqA = none ∨ served = .a)) →
      ∃ sy, (arbitrate c w r).switch? w = some sy ∧
        (∀ y source, sy.pending = some (y, source) → source = .arbiter) ∧
        (sx.pos = .locked side → sy.pos = sx.pos ∧ sy.role = .merge reqA reqB (.granted side k) served) ∧
        (∀ at_, sx.pos = .locked at_ → at_ ≠ side → sy.pos = .moving side (c.now + d.timeout * 1000) ∧ sy.pending = none ∧
          sy.role = .merge reqA reqB (.aligning side) served) ∧
        ∀ toward due, sx.pos = .moving toward due → sy.pos = sx.pos ∧ sy.role = .merge reqA reqB (.aligning side) served ∧
          sy.pending = if toward = side then none else some (side, .arbiter)) ∧
    (arb ≠ .idle ∨ r.claim? d.zone ≠ some .clear ∨ (∃ cause, sx.pos = .fault cause) ∨ reqA = none ∧ reqB = none →
      arbitrate c w r = r) ∧
    (∀ side, (∃ sy arb', (lockSwitch c w side r).switch? w = some sy ∧ sy.role = .merge reqA reqB arb' served ∧
      (∀ k, arb = .aligning side → (match side with | .a => reqA | .b => reqB) = some k → arb' = .granted side k) ∧
      (arb = .aligning side → (match side with | .a => reqA | .b => reqB) = none → arb' = .idle) ∧
      (arb ≠ .aligning side → arb' = arb))) ∧
    (∀ cause, ∃ sy, (faultSwitch w cause r).switch? w = some sy ∧ sy.role = .merge reqA reqB .idle served) ∧
    (∀ side k z, arb = .granted side k → (c.map.zone z).bind (·.switch) = some w →
      ∃ sy reqA' reqB', (reservedAt c k z r).switch? w = some sy ∧ sy.role = .merge reqA' reqB' (.inUse side) side ∧
        reqA' = (if reqA = some k then none else reqA) ∧ reqB' = if reqB = some k then none else reqB) ∧
    (∀ side k, arb = .idle →
      ∃ sy, (grantStep w side k r).switch? w = some sy ∧ sy.pos = sx.pos ∧ sy.role = .merge reqA reqB (.granted side k) served) ∧
    ∃ sy arb', (switchZoneCleared c w r).switch? w = some sy ∧ sy.role = .merge reqA reqB arb' served ∧ sy.committed = none ∧
      (∀ side, arb = .inUse side → arb' = .idle) ∧ ((∀ side, arb ≠ .inUse side) → arb' = arb)) ∧
  (∀ (c : Ctx) (k : SlotIx) (z : ZoneIx) (r : Ride) (w : SwitchIx) (sx : SwitchRec) (setting : Option (SlotIx × Side))
    (last side : Side), (c.map.zone z).bind (·.switch) = some w → r.switch? w = some sx → sx.role = .diverge setting last →
    sx.pos = .locked side → (∀ p, setting = some p → p.1 = k) →
    ∃ sy, (reservedAt c k z r).switch? w = some sy ∧ sy.role = .diverge none side ∧
      ∀ x, r.train? k = some x → ∃ y, (reservedAt c k z r).train? k = some y ∧
        (∀ at_, x.directive = some (w, at_) → y.directive = none) ∧
        ((∀ at_, x.directive ≠ some (w, at_)) → y.directive = x.directive)) ∧
  ∀ (c : Ctx) (r : Ride) (w : SwitchIx) (d : SwitchDesc) (x : Train) (last : Side) (free : Side → Prop),
    (∀ side, free side ↔
      ∃ y, c.map.successor d.zone side = some y ∧ r.claim? y = some .clear ∧ (r.zone? y).any (fun zr => zr.fault.isNone) = true) →
    (∀ side, x.directive = some (w, side) → chooseRoute c r w d x last = side) ∧
    ((∀ side, x.directive ≠ some (w, side)) →
      (d.kind = .diverge .fixedA → chooseRoute c r w d x last = .a) ∧ (d.kind = .diverge .fixedB → chooseRoute c r w d x last = .b) ∧
      (d.kind = .diverge .alternate → chooseRoute c r w d x last = last.other) ∧
      (d.kind = .diverge .firstClear →
        (free .a → ¬free .b → chooseRoute c r w d x last = .a) ∧ (free .b → ¬free .a → chooseRoute c r w d x last = .b) ∧
        ((free .a ↔ free .b) → chooseRoute c r w d x last = last.other)))

/-! ### The track sensors and the passage machine -/

/-- The track sensor filter: a raw change away from the filtered level starts a pending change stamped with its time; one back to
it discards the pending change; a change that has held for F, with F at 0 at once, becomes an edge that takes the line's boundary
one transition of its passage machine; and with no map in use only the raw level is kept. The
passage machine of a boundary, state by state and edge by edge, `first` the sensor of the direction held; in FAULT no edge reports
anything (R77, R78, R83, R84, R89, Table 4-2). The time of an edge is the step's, which may
come later than F (assumption log 1). -/
def Obligations.SensorFilter : Prop :=
  (∀ (s : State) (dt : Nat) (line : SensorLine),
    (∀ high : Bool, tget s.sensors.high line ≠ high → s.sensors.phase = .running → s.filterTime ≠ 0 →
      s.sensors.change? line = none → tget s.sensors.covered line = high →
      exec (.trackSensorRawChange dt line high) s = .next { s with
        now := s.now + dt,
        sensors := { s.sensors with
          high := tput s.sensors.high line high, changes := s.sensors.changes ++ [(line, s.now + dt)] } }) ∧
    (∀ high : Bool, tget s.sensors.high line ≠ high → s.sensors.phase = .running → s.filterTime = 0 → s.sensors.changes = [] →
      tget s.sensors.covered line = high →
      exec (.trackSensorRawChange dt line high) s = exec (.trackSensorEdge 0 line) { s with
        now := s.now + dt,
        sensors := { s.sensors with high := tput s.sensors.high line high, changes := [(line, s.now + dt)] } }) ∧
    (∀ (high : Bool) (stamp : Nat), tget s.sensors.high line ≠ high → s.sensors.phase = .running →
      s.sensors.change? line = some stamp → s.now + dt < stamp + s.filterTime → tget s.sensors.covered line = !high →
      exec (.trackSensorRawChange dt line high) s = .next { s with
        now := s.now + dt,
        sensors := { s.sensors with
          high := tput s.sensors.high line high, changes := s.sensors.changes.filter fun p => p.1 ≠ line } }) ∧
    (∀ high : Bool, tget s.sensors.high line ≠ high → s.sensors.phase ≠ .running →
      exec (.trackSensorRawChange dt line high) s = .next { s with
        now := s.now + dt, sensors := { s.sensors with high := tput s.sensors.high line high } }) ∧
    (∀ (stamp : Nat) (b : BoundaryIx) (d : BoundaryDesc) (sensor : GateSensor) (x : BoundaryRec), s.EdgeDue dt line stamp →
      s.map.gateOf line = some (b, d, sensor) → tget s.bounds b = some x →
      ∃ t, exec (.trackSensorEdge dt line) s = .next t ∧
        t = { s with
          now := s.now + dt,
          sensors := { s.sensors with
            covered := tput s.sensors.covered line !tget s.sensors.covered line,
            changes := s.sensors.changes.filter fun p => p.1 ≠ line },
          bounds := tput s.bounds b (some (x.edge d.rollback sensor (!tget s.sensors.covered line) stamp).1),
          ride := t.ride } ∧
        ((x.edge d.rollback sensor (!tget s.sensors.covered line) stamp).2 = none → t.ride = s.ride)) ∧
    (∀ stamp : Nat, s.now + dt < stamp + s.filterTime → s.sensors.change? line = some stamp →
      exec (.trackSensorEdge dt line) s = .next (s.advance dt))) ∧
  ∀ (rollback : Bool) (stamp start : Nat) (dir : Direction) (cause : BoundaryFault) (sensor : GateSensor) (rising : Bool),
    Passage.edge .clear rollback .u true stamp = (.entering .forward stamp, some (.approach .forward)) ∧
    Passage.edge .clear true .d true stamp = (.entering .reverse stamp, some (.approach .reverse)) ∧
    Passage.edge .clear false .d true stamp = (.fault .reverseUnexpected, some .faulted) ∧
    (sensor = dir.first →
      Passage.edge (.entering dir start) rollback sensor false stamp = (.clear, some (.retreat dir)) ∧
      Passage.edge (.spanning dir) rollback sensor false stamp = (.leaving dir, none) ∧
      Passage.edge (.leaving dir) rollback sensor true stamp = (.spanning dir, some (.backing dir))) ∧
    (sensor ≠ dir.first →
      Passage.edge (.entering dir start) rollback sensor true stamp =
        (.spanning dir, some (.noseIn dir (gateInterval start stamp))) ∧
      Passage.edge (.spanning dir) rollback sensor false stamp = (.entering dir stamp, some (.noseBack dir)) ∧
      Passage.edge (.leaving dir) rollback sensor false stamp = (.clear, some (.tailClear dir))) ∧
    Passage.edge (.fault cause) rollback sensor rising stamp = (.fault cause, none)

/-- Forward travel, event by event (R24, R25, R27, R28, R36, R56 to R59, R62, R66, R70, R97 to R101, R105). APPROACH sends a moving train to
LEAVING, counting an early arrival; a train that overruns its stop goes there too, with the notice, and faults the zone ahead
with OVERRUN unless it is reserved for the train; one that should not move, or whose APPROACH, RETREAT or NOSE_IN is off the route its
switch stands at, is LOST and no longer stepping. NOSE_IN
records the speed in the zone ahead; where the zones admit the crossing the zone ahead is ENTRY and the zone left EXIT, with the
journey deadline, the guard of a boundary before the zone left is released, and the zone ahead is faulted with OVERRUN where the train did not
hold it, and otherwise with SPEED where it is out of the speed window; where they contradict it the train is LOST. TAIL_CLEAR makes the zone entered OCCUPIED, and the zone left GUARDED
behind a rollback sensor and otherwise CLEAR, its brake's output off; an ENTERING train is RUNNING, or STOPPING in a stopping zone
whose element is not open, and a train in ROLLBACK settles on the stop allowance. A berth sensor brings a train to rest in a stopping zone. What another rule can change again within the step (the zone left
CLEAR, the phase after TAIL_CLEAR, the state at rest) is stated outside AUTO or with the ride stop latched. -/
def Obligations.ForwardTravel : Prop :=
  ∀ (s : State) (dt : Nat) (line : SensorLine) (b : BoundaryIx) (d : BoundaryDesc) (stamp : Nat) (k : SlotIx) (x : Train),
    (s.Reports dt line b d stamp (.approach .forward) → s.ride.headIn d.up = some (k, x) →
      ∃ t, exec (.trackSensorEdge dt line) s = .next t ∧
        (divergeCheck s.ctx s.ride d = true → x.phase = .running ∨ x.phase = .entering →
          (s.ride.putTrain k { x with early := if arrivesEarly x stamp then min 255 (x.early + 1) else x.early }).Keeps t.ride ∧
          (∃ y, t.ride.train? k = some y ∧ y.phase = .leaving ∧ y.deadline = none) ∧
          (arrivesEarly x stamp = true → t.ride.notice? .early = true)) ∧
        (divergeCheck s.ctx s.ride d = true → x.phase = .stopping ∨ x.phase = .rollback →
          (∃ y, t.ride.train? k = some y ∧ y.phase = .leaving ∧ y.deadline = none ∧ y.dir = .forward) ∧
          t.ride.notice? .overrun = true ∧ (s.ride.claim? d.down = some (.reserved k) → s.ride.Keeps t.ride) ∧
          (s.ride.claim? d.down ≠ some (.reserved k) → s.ride.faultedBy t.ride d.down .overrun ∧ s.ride.Apart t.ride k none)) ∧
        (divergeCheck s.ctx s.ride d = true → x.phase = .overdue →
          (s.ride.putTrain k { x with awaited := none }).Keeps t.ride ∧
          ∃ y, t.ride.train? k = some y ∧ y.phase = .leaving) ∧
        (divergeCheck s.ctx s.ride d = false ∨ x.phase = .held ∨ x.phase = .parked ∨ x.phase = .leaving →
          (s.ride.putTrain k { x with awaited := none }).Keeps t.ride ∧ t.ride.lostIn k)) ∧
    (∀ e : PassageEvent, s.Reports dt line b d stamp e → (e = .retreat .forward ∨ ∃ interval, e = .noseIn .forward interval) →
      s.ride.headIn d.up = some (k, x) → divergeCheck s.ctx s.ride d = false →
      ∃ t, exec (.trackSensorEdge dt line) s = .next t ∧ (s.ride.putTrain k { x with awaited := none }).Keeps t.ride ∧
        t.ride.lostIn k) ∧
    (∀ (interval v : Nat) (claim : Claim) (zd : ZoneDesc), s.Reports dt line b d stamp (.noseIn .forward interval) →
      s.ride.headIn d.up = some (k, x) → divergeCheck s.ctx s.ride d = true → s.ride.claim? d.down = some claim →
      s.map.zone d.down = some zd → v = crossingSpeed d.gate interval →
      ∃ t, exec (.trackSensorEdge dt line) s = .next t ∧ t.ride.entrySpeed d.down = some v ∧
        (∀ z, z ≠ d.down → t.ride.entrySpeed z = s.ride.entrySpeed z ∧ t.ride.zoneFault z = s.ride.zoneFault z) ∧
        (s.ride.claim? d.up = some (.occupied k) → claim.occupant = none →
          t.ride.claim? d.up = some (.exit k) ∧ t.ride.claim? d.down = some (.entry k) ∧
          (∃ y, t.ride.train? k = some y ∧ y.label = x.label ∧ y.phase = .entering ∧ y.head = d.down ∧ y.tail = some d.up ∧
            y.dir = .forward ∧ y.awaited = none ∧ y.lastSpeed = some v ∧ y.early = x.early ∧ y.overdue = x.overdue ∧
            (∀ run, run = zd.runLength (s.map.mergeAt d.down).isSome (s.map.divergeAt d.down).isSome
                (s.map.entrySide d.down b) (zoneLock s.ctx s.ride d.down) →
              y.deadline = some
                { kind := .journey, start := stamp, duration := (zd.journey run v).1, early := (zd.journey run v).2 }) ∧
            (∀ z gb gd, x.guard = some (z, gb) → s.map.boundary gb = some gd → gd.down = d.up → y.guard = none ∧
              (z ≠ d.down → s.ride.claim? z = some (.guarded k) → s.calm → t.ride.claim? z = some .clear)) ∧
            ((∀ z gb gd, x.guard = some (z, gb) → s.map.boundary gb = some gd → gd.down ≠ d.up ∧ z ≠ d.down) →
              (∀ z gb, x.guard = some (z, gb) → (s.map.boundary gb).isSome = true) → y.guard = x.guard)) ∧
          (claim.holder = some k → s.ride.Apart t.ride k none) ∧
          (claim.holder = some k → zd.window v = .inWindow → t.ride.zoneFault d.down = s.ride.zoneFault d.down) ∧
          (claim.holder ≠ some k → s.ride.faultedBy t.ride d.down .overrun) ∧
          (claim.holder = some k → zd.window v ≠ .inWindow → s.ride.faultedBy t.ride d.down .speed)) ∧
        (s.ride.claim? d.up ≠ some (.occupied k) ∨ claim.occupant ≠ none → t.ride.lostIn k ∧ s.ride.Apart t.ride k none)) ∧
    (s.Reports dt line b d stamp (.tailClear .forward) → s.ride.straddling d = some (k, x) →
      s.ride.claim? d.up = some (.exit k) → s.ride.claim? d.down = some (.entry k) →
      ∃ t y, exec (.trackSensorEdge dt line) s = .next t ∧ s.ride.Apart t.ride k none ∧
        (∀ z, t.ride.entrySpeed z = s.ride.entrySpeed z ∧ t.ride.zoneFault z = s.ride.zoneFault z) ∧
        t.ride.claim? d.down = some (.occupied k) ∧ t.ride.train? k = some y ∧ y.head = d.down ∧ y.tail = none ∧
        (if d.rollback then t.ride.claim? d.up = some (.guarded k) ∧ y.guard = some (d.up, b)
          else y.guard = x.guard ∧ (s.calm → t.ride.claim? d.up = some .clear)) ∧
        (x.phase = .entering → s.calm → t.ride.latched = s.ride.latched →
          if s.map.isNonStopping d.down || s.ride.elementOpen d.down then y.phase = .running ∧ y.deadline = x.deadline
          else y.phase = .stopping ∧
            y.deadline = some { kind := .stop, start := stamp, duration := s.ctx.stopAllowance d.down, early := none }) ∧
        (x.phase = .rollback → s.calm → y.dir = .forward ∧ y.awaited = none ∧
          y.phase = (if s.map.isStopping d.down then .stopping else .rollback) ∧
          y.deadline = some { kind := .stop, start := stamp, duration := s.ctx.stopAllowance d.down, early := none }) ∧
        (s.calm → t.elementOutput d.up = false)) ∧
    (∀ z : ZoneIx, s.EdgeDue dt line stamp → s.map.gateOf line = none → s.map.berthOf line = some z →
      tget s.sensors.covered line = false → (s.ride.matching fun y => y.head == z && y.tail.isNone) = some (k, x) →
      s.map.isStopping z = true →
      (x.phase = .stopping ∨ x.phase = .rollback ∨ x.phase = .overdue ∧ x.awaited = some .berth) →
      ∃ t y, exec (.trackSensorEdge dt line) s = .next t ∧ (s.ride.putTrain k { x with awaited := none }).Keeps t.ride ∧
        t.ride.train? k = some y ∧
        (s.calm → y.phase = (if s.map.isSpur x.head then .parked else .held) ∧ y.deadline = none ∧ y.chain = [] ∧
          y.stepping = false ∧ y.dir = .forward))

/-- Rollback, event by event (R24 to R27, R36, R67 to R70). A train found going back by RETREAT, NOSE_BACK or BACKING has its
zone held with ROLLBACK and the notice raised, its element's output is off, and the ride is stopped where the boundary has no
rollback sensor; the zones it straddles exchange their claims, and a zone backed out of is RESERVED for it again at the front of
its chain. At R_APPROACH a train at rest is LOST; at R_APPROACH, R_RETREAT and R_NOSE_IN one off its merge's side is; and any other goes to
ROLLBACK with the notice at R_APPROACH.
R_NOSE_IN records the speed, holds the zone entered and faults it with OVERRUN where the train did not hold it; where the zones contradict it
the train is LOST, and that no hold is then added is the model's choice (assumption log 24). The zone that a train leaves forward again after a reverse crossing becomes its guard. A train wholly in one
zone again after RETREAT, R_RETREAT or R_TAIL_CLEAR is STOPPING there, or in ROLLBACK where the zone does not stop it, on the
stop allowance. What another rule can change again within the step is stated outside AUTO or with the ride stop latched. -/
def Obligations.RollbackTravel : Prop :=
  ∀ (s : State) (dt : Nat) (line : SensorLine) (b : BoundaryIx) (d : BoundaryDesc) (stamp : Nat) (k : SlotIx) (x : Train),
    (∀ e : PassageEvent, s.Reports dt line b d stamp e →
      (e = .retreat .forward ∧ s.ride.headIn d.up = some (k, x) ∧ divergeCheck s.ctx s.ride d = true ∨
        (e = .noseBack .forward ∨ e = .backing .forward) ∧ s.ride.straddling d = some (k, x)) →
      ∃ t y, exec (.trackSensorEdge dt line) s = .next t ∧ s.ride.Apart t.ride k (some d.up) ∧
        t.ride.train? k = some y ∧ y.head = d.up ∧ y.dir = .reverse ∧ y.awaited = none ∧ t.ride.notice? .rollback = true ∧
        ((s.ride.zone? d.up).isSome = true → t.ride.held d.up .rollback = true) ∧
        (∀ src, src ≠ .rollback → t.ride.held d.up src = s.ride.held d.up src) ∧
        (d.rollback = false → t.ride.cause? .rollbackUnguarded = true) ∧
        (s.ride.occupant? d.up = some k → t.elementOutput d.up = false) ∧
        (e = .retreat .forward → y.tail = none ∧
          (s.calm → y.phase = (if s.map.isStopping d.up then .stopping else .rollback) ∧
            y.deadline = some { kind := .stop, start := stamp, duration := s.ctx.stopAllowance d.up, early := none })) ∧
        (e = .noseBack .forward → y.tail = none ∧ y.phase = .rollback ∧ y.deadline = none ∧
          (s.ride.claim? d.up = some (.exit k) → s.ride.claim? d.down = some (.entry k) → d.down ∉ x.chain →
            t.ride.claim? d.up = some (.occupied k) ∧ t.ride.claim? d.down = some (.reserved k) ∧
            y.chain = (d.down :: x.chain).take 4)) ∧
        (e = .backing .forward → y.tail = some d.down ∧ y.phase = .rollback ∧ y.deadline = none ∧
          (s.ride.occupant? d.up = some k → s.ride.occupant? d.down = some k → d.up ≠ d.down →
            t.ride.claim? d.up = some (.entry k) ∧ t.ride.claim? d.down = some (.exit k)))) ∧
    (s.Reports dt line b d stamp (.approach .reverse) → s.ride.headIn d.down = some (k, x) →
      ∃ t, exec (.trackSensorEdge dt line) s = .next t ∧ (s.ride.putTrain k { x with awaited := none }).Keeps t.ride ∧
        if x.phase = .held ∨ x.phase = .parked ∨ mergeCheck s.ctx s.ride b d = false then t.ride.lostIn k
        else t.ride.notice? .rollback = true ∧
          ∃ y, t.ride.train? k = some y ∧ y.phase = .rollback ∧ y.dir = .reverse ∧ y.deadline = none) ∧
    (∀ e : PassageEvent, s.Reports dt line b d stamp e → (e = .retreat .reverse ∨ ∃ interval, e = .noseIn .reverse interval) →
      s.ride.headIn d.down = some (k, x) → mergeCheck s.ctx s.ride b d = false →
      ∃ t, exec (.trackSensorEdge dt line) s = .next t ∧ (s.ride.putTrain k { x with awaited := none }).Keeps t.ride ∧
        t.ride.lostIn k) ∧
    (s.Reports dt line b d stamp (.retreat .reverse) → s.ride.headIn d.down = some (k, x) →
      mergeCheck s.ctx s.ride b d = true → x.phase = .rollback ∨ x.phase = .overdue →
      ∃ t y, exec (.trackSensorEdge dt line) s = .next t ∧
        (s.ride.putTrain k { x with head := d.down, tail := none, awaited := none }).Keeps t.ride ∧ t.ride.train? k = some y ∧
        (s.calm → y.dir = .forward ∧ y.phase = (if s.map.isStopping d.down then .stopping else .rollback) ∧
          y.deadline = some { kind := .stop, start := stamp, duration := s.ctx.stopAllowance d.down, early := none })) ∧
    (∀ (interval v : Nat) (claim : Claim), s.Reports dt line b d stamp (.noseIn .reverse interval) →
      s.ride.headIn d.down = some (k, x) → mergeCheck s.ctx s.ride b d = true → s.ride.claim? d.up = some claim →
      v = crossingSpeed d.gate interval →
      ∃ t, exec (.trackSensorEdge dt line) s = .next t ∧ t.ride.entrySpeed d.up = some v ∧
        (s.ride.claim? d.down = some (.occupied k) → claim.occupant = none →
          t.ride.claim? d.down = some (.exit k) ∧ t.ride.claim? d.up = some (.entry k) ∧ t.ride.held d.up .rollback = true ∧
          (∃ y, t.ride.train? k = some y ∧ y.label = x.label ∧ y.phase = .rollback ∧ y.head = d.up ∧ y.tail = some d.down ∧
            y.dir = .reverse ∧ y.deadline = none ∧ y.awaited = none ∧ y.lastSpeed = some v) ∧
          (claim.holder = some k → s.ride.Apart t.ride k (some d.up) ∧ t.ride.zoneFault d.up = s.ride.zoneFault d.up) ∧
          (claim.holder ≠ some k → s.ride.faultedBy t.ride d.up .overrun)) ∧
        (s.ride.claim? d.down ≠ some (.occupied k) ∨ claim.occupant ≠ none → t.ride.lostIn k ∧ s.ride.Apart t.ride k none)) ∧
    (∀ e : PassageEvent, s.Reports dt line b d stamp e → s.ride.straddling d = some (k, x) →
      (e = .noseBack .reverse ∨ e = .backing .reverse ∨ e = .tailClear .reverse) → s.ride.claim? d.up = some (.entry k) →
      s.ride.claim? d.down = some (.exit k) →
      ∃ t y, exec (.trackSensorEdge dt line) s = .next t ∧ s.ride.Apart t.ride k none ∧
        (∀ z, t.ride.entrySpeed z = s.ride.entrySpeed z ∧ t.ride.zoneFault z = s.ride.zoneFault z) ∧ t.ride.train? k = some y ∧
        (e = .noseBack .reverse → y.phase = .rollback ∧ y.head = d.down ∧ y.tail = none ∧ y.dir = .forward ∧
          y.guard = some (d.up, b) ∧ t.ride.claim? d.down = some (.occupied k) ∧ t.ride.claim? d.up = some (.guarded k)) ∧
        (e = .backing .reverse → y.phase = .rollback ∧ y.head = d.down ∧ y.tail = some d.up ∧ y.dir = .forward ∧
          t.ride.claim? d.down = some (.entry k) ∧ t.ride.claim? d.up = some (.exit k)) ∧
        (e = .tailClear .reverse → y.head = d.up ∧ y.tail = none ∧ t.ride.claim? d.up = some (.occupied k) ∧
          (d.down ∉ x.chain → (s.calm ∨ s.map.isStopping d.up = false) → x.phase = .rollback ∨ x.phase = .overdue →
            t.ride.claim? d.down = some (.reserved k) ∧ y.chain = (d.down :: x.chain).take 4 ∧ y.dir = .reverse ∧
            y.awaited = none ∧ y.phase = (if s.map.isStopping d.up then .stopping else .rollback) ∧
            y.deadline = some { kind := .stop, start := stamp, duration := s.ctx.stopAllowance d.up, early := none })))

/-- An event that matches no train faults the zone that Table 3-4 and R55 name for it and moves no train; a boundary that enters
FAULT faults both its zones with the cause BOUNDARY where they hold none, and stops the ride (R54, R55, R88). -/
def Obligations.UnmatchedEvents : Prop :=
  ∀ (s : State) (dt : Nat) (line : SensorLine) (b : BoundaryIx) (d : BoundaryDesc) (stamp : Nat) (e : PassageEvent),
    s.Reports dt line b d stamp e →
    ∃ t, exec (.trackSensorEdge dt line) s = .next t ∧
      (∀ z : ZoneIx,
        (s.ride.headIn d.up = none ∧ (e = .approach .forward ∨ e = .retreat .forward) ∧ z = d.up ∨
          s.ride.headIn d.up = none ∧ (∃ n, e = .noseIn .forward n) ∧ z = d.down ∨
          s.ride.straddling d = none ∧ (e = .noseBack .forward ∨ e = .tailClear .forward ∨ e = .backing .reverse) ∧ z = d.down ∨
          s.ride.straddling d = none ∧ (e = .backing .forward ∨ e = .noseBack .reverse ∨ e = .tailClear .reverse) ∧ z = d.up ∨
          s.ride.headIn d.down = none ∧ (e = .approach .reverse ∨ e = .retreat .reverse) ∧ z = d.down ∨
          s.ride.headIn d.down = none ∧ (∃ n, e = .noseIn .reverse n) ∧ z = d.up) →
        t.ride.faultedAt z ∧
        (∀ zr, s.ride.zone? z = some zr → t.ride.zoneFault z = some (zr.fault.getD .unexpected)) ∧
        (∀ j, t.ride.standing j = s.ride.standing j) ∧ (∀ y src, t.ride.held y src = s.ride.held y src) ∧
        ∀ y, y ≠ z → t.ride.zoneFault y = s.ride.zoneFault y) ∧
      (e = .faulted →
        t.ride.cause? .boundaryFault = true ∧ t.ride.notice? .fault = true ∧
        (∀ z zr, (z = d.up ∨ z = d.down) → s.ride.zone? z = some zr →
          t.ride.zoneFault z = some (zr.fault.getD .boundary)) ∧
        (∀ j, t.ride.standing j = s.ride.standing j) ∧ (∀ y src, t.ride.held y src = s.ride.held y src) ∧
        ∀ y, y ≠ d.up → y ≠ d.down → t.ride.zoneFault y = s.ride.zoneFault y)

/-- F after a map is taken up the filtered levels are the raw levels' and every boundary is derived: CLEAR with both sensors
uncovered, FAULT with either covered, which gives its two zones the cause BOUNDARY where they hold none and stops the ride. No train
moves; every hold source, every entry speed, and the fault of every zone that is not beside such a boundary stay (R48, R81, R88,
R91). -/
def Obligations.FilterStartDerivesBoundaries : Prop :=
  ∀ (s : State) (dt due : Nat), s.sensors.phase = .waiting due → due ≤ s.now + dt →
    ∃ t, exec (.trackFilterStart dt) s = .next t ∧
      t = { s with
        now := s.now + dt, sensors := { s.sensors with covered := t.sensors.covered, changes := [], phase := .running },
        bounds := t.bounds, ride := t.ride } ∧
      (∀ line, tget t.sensors.covered line = !tget s.sensors.high line) ∧
      (∀ b, s.map.boundary b = none → tget t.bounds b = none) ∧
      (∀ j, t.ride.standing j = s.ride.standing j) ∧ (∀ z src, t.ride.held z src = s.ride.held z src) ∧
      (∀ z, t.ride.entrySpeed z = s.ride.entrySpeed z) ∧
      (∀ z, (∀ b d, s.map.boundary b = some d → d.up = z ∨ d.down = z →
          tget s.sensors.high d.uLine = true ∧ tget s.sensors.high d.dLine = true) → t.ride.zoneFault z = s.ride.zoneFault z) ∧
      (∀ cause, s.ride.cause? cause = true → t.ride.cause? cause = true) ∧
      (∀ n, s.ride.notice? n = true → t.ride.notice? n = true) ∧
      ∀ b d, s.map.boundary b = some d →
        if tget s.sensors.high d.uLine = true ∧ tget s.sensors.high d.dLine = true then
          tget t.bounds b = some { passage := .clear, stalled := false, lastInterval := none }
        else
          tget t.bounds b = some { passage := .fault .coveredAtStart, stalled := false, lastInterval := none } ∧
          t.ride.cause? .boundaryFault = true ∧ t.ride.notice? .fault = true ∧
          (∀ z, (z = d.up ∨ z = d.down) → (s.ride.zone? z).isSome = true →
            t.ride.zoneFault z = some ((s.ride.zoneFault z).getD .boundary))

/-- A boundary that has stayed in ENTERING for 16,777,215 µs reports its stall once: the train at it goes OVERDUE, awaiting its
nose in, with its zone held; where there is none the zone of the covered sensor is faulted (R54, R55, R65, R87). -/
def Obligations.GateStallReports : Prop :=
  ∀ (s : State) (dt : Nat) (b : BoundaryIx) (x : BoundaryRec) (d : BoundaryDesc) (dir : Direction) (start : Nat),
    tget s.bounds b = some x → s.map.boundary b = some d → x.passage = .entering dir start →
    (x.stalled = false → start + 16777215 ≤ s.now + dt →
      ∃ t, exec (.gateStall dt b) s = .next t ∧
        t = { s with
          now := s.now + dt, bounds := tput s.bounds b (some { x with stalled := true }), ride := t.ride } ∧
        (∀ k y, s.ride.headIn (match dir with | .forward => d.up | .reverse => d.down) = some (k, y) →
          ∃ y', t.ride.train? k = some y' ∧ y'.phase = .overdue ∧ y'.awaited = some .noseIn ∧ y'.deadline = none ∧
            y'.overdue = min 255 (y.overdue + 1) ∧ y'.head = y.head ∧ y'.tail = y.tail ∧
            t.ride.notice? .overdue = true ∧ ((s.ride.zone? y.head).isSome = true → t.ride.held y.head .overdue = true)) ∧
        (∀ z, z = (match dir with | .forward => d.up | .reverse => d.down) → s.ride.headIn z = none →
          t.ride.faultedAt z)) ∧
    (x.stalled = true ∨ s.now + dt < start + 16777215 → exec (.gateStall dt b) s = .next (s.advance dt))

/-! ### Deadlines, proofs, moves and drive steps -/

/-- A deadline that runs out: under an ENTERING or RUNNING train a JOURNEY deadline makes it OVERDUE, awaiting its approach; a
STOP deadline makes a STOPPING train OVERDUE where its zone has a berth sensor, and a train in ROLLBACK OVERDUE awaiting its
nose; a STOPPING train in a zone without a berth sensor is at rest, its chain returned, which is stated outside AUTO or with the
ride stop latched. An OVERDUE train's zone is held, and the ride is stopped where the zone's severity is STOP (R53, R62 to R65).
No deadline runs out before its time. -/
def Obligations.DeadlinesRunOut : Prop :=
  ∀ (s : State) (dt : Nat) (k : SlotIx) (x : Train) (dl : Deadline), s.ride.train? k = some x → x.deadline = some dl →
    (dl.start + dl.duration * 1000 ≤ s.now + dt →
      (∀ aw : Awaited,
        (dl.kind = .journey ∧ (x.phase = .entering ∨ x.phase = .running) ∧ aw = .approach) ∨
        (dl.kind = .stop ∧ x.phase = .stopping ∧ ((s.map.zone x.head).any fun zd => zd.berth.isSome) = true ∧ aw = .berth) ∨
        (dl.kind = .stop ∧ x.phase = .rollback ∧ aw = .noseIn) →
        ∃ t y, exec (if dl.kind = .journey then .journeyDeadlineExpiry dt k else .stopDeadlineExpiry dt k) s = .next t ∧
          s.onlyEvent dt t ∧ t.ride.train? k = some y ∧ y.phase = .overdue ∧ y.awaited = some aw ∧ y.deadline = none ∧
          y.overdue = min 255 (x.overdue + 1) ∧ y.head = x.head ∧ y.tail = x.tail ∧ t.ride.notice? .overdue = true ∧
          ((s.ride.zone? x.head).isSome = true → t.ride.held x.head .overdue = true) ∧
          (((s.map.zone x.head).any fun zd => zd.severity == .stop) = true → t.ride.cause? .overdue = true)) ∧
      (dl.kind = .stop → x.phase = .stopping → ((s.map.zone x.head).any fun zd => zd.berth.isSome) = false →
        ∃ t y, exec (.stopDeadlineExpiry dt k) s = .next t ∧ s.onlyEvent dt t ∧
          (s.ride.putTrain k { x with awaited := none }).Keeps t.ride ∧ t.ride.train? k = some y ∧
          (s.calm →
            y.phase = (if s.map.isSpur x.head then .parked else .held) ∧ y.deadline = none ∧ y.chain = [] ∧
            y.stepping = false ∧ y.dir = .forward))) ∧
    (s.now + dt < dl.start + dl.duration * 1000 →
      exec (.journeyDeadlineExpiry dt k) s = .next (s.advance dt) ∧ exec (.stopDeadlineExpiry dt k) s = .next (s.advance dt))

/-- A change on a brake's proof line is taken by Table 7-4 on the levels after it, outside AUTO or with the ride stop latched
(nothing then opens the brake again at once); a brake it faults stops the ride. Proven OPEN, it makes the train HELD or STOPPING in
its zone RUNNING on the release allowance; proven CLOSED, it returns the chain of a train HELD there. A proof timer that runs out
faults the brake, and none runs out before its time (R34, R61, R102, R129 to R132). -/
def Obligations.BrakeProofsAndTimers : Prop :=
  (∀ (s : State) (dt : Nat) (line : ProofLine) (high : Bool) (z : ZoneIx) (d : ZoneDesc) (o c : ProofLine) (ms : Nat)
    (st : BrakeState) (cmd : ElementCommand), tget s.proofs line ≠ high → s.map.brakeOf line = some z →
    s.map.zone z = some d → d.element = .brake o c ms → s.ride.element? z = some (.brake st cmd) →
    s.calm →
    ∃ t, exec (.brakeProofChange dt line high) s = .next t ∧
      t = { s with now := s.now + dt, proofs := tput s.proofs line high, ride := t.ride } ∧ s.ride.Keeps t.ride ∧
      (∀ a b : Bool, a = tget t.proofs o → b = tget t.proofs c →
        ∃ cmd', t.ride.element? z = some (.brake
          (match st, a, b with
            | .opening _, true, false => .opened
            | .opening _, true, true => .fault .proofConflict
            | .closing _, false, true => .closed
            | .closing _, true, true => .fault .proofConflict
            | .opened, true, true => .fault .proofConflict
            | .opened, false, false => .fault .proofLost
            | .closed, true, true => .fault .proofConflict
            | .closed, false, false => .fault .proofLost
            | st, _, _ => st) cmd')) ∧
      (∀ cause cmd', (∀ old, st ≠ .fault old) → t.ride.element? z = some (.brake (.fault cause) cmd') →
        t.ride.cause? .elementFault = true ∧ t.ride.notice? .fault = true) ∧
      ∀ (k : SlotIx) (x : Train) (due : Nat), s.ride.occupant? z = some k → s.ride.train? k = some x → x.head = z →
        (st = .opening due → tget t.proofs o = true → tget t.proofs c = false → x.phase = .held ∨ x.phase = .stopping →
          ∃ y, t.ride.train? k = some y ∧ y.phase = .running ∧ y.dir = .forward ∧ y.chain = x.chain ∧
            y.deadline = some { kind := .journey, start := s.now + dt, duration := d.release, early := none }) ∧
        (st = .closing due → tget t.proofs o = false → tget t.proofs c = true → x.phase = .held →
          (∃ y, t.ride.train? k = some y ∧ y.phase = .held ∧ y.chain = []) ∧
          ∀ y, y ∈ x.chain → s.ride.claim? y = some (.reserved k) → t.ride.claim? y = some .clear)) ∧
  ∀ (s : State) (dt : Nat) (z : ZoneIx) (due : Nat) (cmd : ElementCommand) (st : BrakeState) (cause : ElementFault),
    s.ride.element? z = some (.brake st cmd) →
    (st = .opening due ∧ cause = .openTimeout ∨ st = .closing due ∧ cause = .closeTimeout) →
    (due ≤ s.now + dt →
      ∃ t, exec (.proofTimerExpiry dt z) s = .next t ∧ s.onlyEvent dt t ∧
        (∃ cmd', t.ride.element? z = some (.brake (.fault cause) cmd')) ∧ t.elementOutput z = false ∧
        t.ride.cause? .elementFault = true ∧ t.ride.notice? .fault = true ∧ s.ride.Keeps t.ride) ∧
    (s.now + dt < due → exec (.proofTimerExpiry dt z) s = .next (s.advance dt))

/-- A change on a switch's proof line, on the levels after it: a switch moving toward a position locks there once that proof is active
alone; one locked that loses its proof, and any with both proofs active, goes to FAULT; and no other change, and none in FAULT, changes
it, nor anything else. At the lock a pending request for that position is dropped, and one for the other is carried out where the
zone is CLEAR and kept otherwise. Entering FAULT the switch keeps its committed position, its route setting, and its pending request
but an ALIGNING arbiter's own; it stops the ride, and a brake that this closes at once can return the chain that held its zone, which
ends the commitment (R113, R132). A move whose timer runs out faults the switch, and no timer runs out before its time
(R110, R111, R112, R116). This is said of the switch controller's operation in every state, and of the step where nothing moves the
switch again at once: outside AUTO or with the ride stop latched, with no request at its arbiter. -/
def Obligations.SwitchProofsAndTimers : Prop :=
  (∀ (c : Ctx) (w : SwitchIx) (r : Ride) (x : SwitchRec) (d : SwitchDesc) (a b : Bool), r.switch? w = some x →
    c.map.switch w = some d →
    ((∃ cause, x.pos = .fault cause) ∨ (∃ at_, x.pos = .locked at_ ∧ a ≠ b) ∨
        (∃ side due, x.pos = .moving side due ∧ (match side with | .a => a | .b => b) = false) →
      switchProofChange c w a b r = r) ∧
    (∀ side due, x.pos = .moving side due → a = (side == .a) → b = (side == .b) →
      ∃ y, (switchProofChange c w a b r).switch? w = some y ∧ y.committed = x.committed ∧
        (∀ setting last, x.role = .diverge setting last → y.role = x.role) ∧
        (x.pending = none ∨ (∃ source, x.pending = some (side, source)) → y.pos = .locked side ∧ y.pending = none) ∧
        ∀ source, x.pending = some (side.other, source) →
          if r.claim? d.zone = some .clear then y.pos = .moving side.other (c.now + d.timeout * 1000) ∧ y.pending = none
          else y.pos = .locked side ∧ y.pending = x.pending) ∧
    ∀ cause, (∀ old, x.pos ≠ .fault old) ∧ a = true ∧ b = true ∧ cause = .proofConflict ∨
        (∃ at_, x.pos = .locked at_) ∧ a = false ∧ b = false ∧ cause = .proofLost →
      ∃ y, (switchProofChange c w a b r).switch? w = some y ∧ x.stoppedAs y cause ∧ y.committed = x.committed ∧
        (switchProofChange c w a b r).cause? .switchFault = true ∧ (switchProofChange c w a b r).notice? .fault = true) ∧
  (∀ (s : State) (dt : Nat) (line : ProofLine) (high : Bool) (w : SwitchIx) (d : SwitchDesc) (x : SwitchRec) (a b : Bool),
    tget s.proofs line ≠ high → s.map.brakeOf line = none → s.map.switchOf line = some (w, d) → s.ride.switch? w = some x →
    a = tget (tput s.proofs line high) d.proofA → b = tget (tput s.proofs line high) d.proofB →
    ∃ t y, exec (.switchProofChange dt line high) s = .next t ∧
      t = { s with now := s.now + dt, proofs := tput s.proofs line high, ride := t.ride } ∧ s.ride.Keeps t.ride ∧ t.ride.switch? w = some y ∧
      ((∀ cause, x.pos ≠ .fault cause) → a = true → b = true →
        y.pos = .fault .proofConflict ∧ s.committedStays t w x y ∧ t.ride.cause? .switchFault = true ∧ t.ride.notice? .fault = true ∧
        ((∀ k, s.ride.presented? k = none) → x.stoppedAs y .proofConflict)) ∧
      (∀ at_, x.pos = .locked at_ → a = false → b = false →
        y.pos = .fault .proofLost ∧ s.committedStays t w x y ∧ t.ride.cause? .switchFault = true ∧ t.ride.notice? .fault = true ∧
        ((∀ k, s.ride.presented? k = none) → x.stoppedAs y .proofLost)) ∧
      (s.calm → (∀ reqA reqB arb served, x.role = .merge reqA reqB arb served → reqA = none ∧ reqB = none) →
        (∀ side due, x.pos = .moving side due → a = (side == .a) → b = (side == .b) →
          (x.pending = none ∨ (∃ source, x.pending = some (side, source)) → y.pos = .locked side ∧ y.pending = none) ∧
          (∀ source, x.pending = some (side.other, source) → s.ride.claim? d.zone = some .clear →
            y.pos = .moving side.other (s.now + dt + d.timeout * 1000) ∧ y.pending = none) ∧
          ∀ source, x.pending = some (side.other, source) → s.ride.claim? d.zone ≠ some .clear →
            y.pos = .locked side ∧ ((∀ k, s.ride.presented? k = none) → y.pending = x.pending)) ∧
        ((∃ cause, x.pos = .fault cause) ∨ (∃ at_, x.pos = .locked at_ ∧ a ≠ b) ∨
            (∃ side due, x.pos = .moving side due ∧ (match side with | .a => a | .b => b) = false) →
          y.pos = x.pos ∧ y.committed = x.committed ∧ ((∀ k, s.ride.presented? k = none) → y = x)))) ∧
  ∀ (s : State) (dt : Nat) (w : SwitchIx) (x : SwitchRec) (side : Side) (due : Nat), s.ride.switch? w = some x →
    x.pos = .moving side due →
    (due ≤ s.now + dt →
      ∃ t y, exec (.moveTimerExpiry dt w) s = .next t ∧ s.onlyEvent dt t ∧ t.ride.switch? w = some y ∧
        y.pos = .fault .moveTimeout ∧ s.committedStays t w x y ∧ t.ride.cause? .switchFault = true ∧
        t.ride.notice? .fault = true ∧ s.ride.Keeps t.ride ∧ ((∀ k, s.ride.presented? k = none) → x.stoppedAs y .moveTimeout)) ∧
    (s.now + dt < due → exec (.moveTimerExpiry dt w) s = .next (s.advance dt))

/-- A due step moves a channel's code toward its target by the step in force, the stop step under a latched RAMP fall: it arrives
where the step reaches the target, and otherwise steps again an interval later. Arriving at the code that its element's command
names, it proves the element OPEN, which makes the train HELD or STOPPING in the zone RUNNING on the release allowance, or CLOSED,
which returns the chain of a train HELD there. Outside AUTO or with the ride stop latched, where nothing gives a new target at once;
no step is taken before its time (R34, R61, R102, R132, R133, R135). That after a step taken late the next falls due an interval after
the last due time is the model's choice (assumption log 1). -/
def Obligations.DriveSteps : Prop :=
  ∀ (s : State) (dt : Nat) (ch : ChannelIx) (x : Channel) (d : DriveDesc) (due size : Nat), s.ride.channel? ch = some x →
    s.map.drive ch = some d → x.stepDue = some due → s.calm →
    size = (if x.target < x.code ∧ s.ride.latched = true ∧ d.profile = .ramp then d.stopStep else d.step) →
    (due ≤ s.now + dt →
      ∃ t y, exec (.driveStep dt ch) s = .next t ∧ s.onlyEvent dt t ∧ s.ride.Keeps t.ride ∧ t.ride.channel? ch = some y ∧
        y.target = x.target ∧ y.zone = x.zone ∧
        (x.code ≤ x.target → y.code = min x.target (x.code + size)) ∧
        (x.target ≤ x.code → y.code = max x.target (x.code - size)) ∧
        y.stepDue = (if y.code = x.target then none else some (due + d.interval * 1000)) ∧
        ∀ (z : ZoneIx) (st : DriveState) (cmd : ElementCommand), x.zone = some z → s.ride.element? z = some (.drive st cmd) →
          (y.code ≠ x.target ∨ cmd.codeOn d ≠ x.target → t.ride.element? z = some (.drive st cmd)) ∧
          (y.code = x.target → cmd.codeOn d = x.target →
            t.ride.element? z = some (.drive (if cmd = .close then .closed else .opened) cmd) ∧
            ∀ (k : SlotIx) (w : Train), s.ride.occupant? z = some k → s.ride.train? k = some w → w.head = z →
              (cmd ≠ .close → w.phase = .held ∨ w.phase = .stopping →
                ∃ v, t.ride.train? k = some v ∧ v.phase = .running ∧ v.dir = .forward ∧ v.chain = w.chain ∧
                  v.deadline = some { kind := .journey, start := s.now + dt, duration := s.ctx.releaseAllowance z, early := none }) ∧
              (cmd = .close → w.phase = .held →
                (∃ v, t.ride.train? k = some v ∧ v.phase = .held ∧ v.chain = []) ∧
                ∀ v, v ∈ w.chain → s.ride.claim? v = some (.reserved k) → t.ride.claim? v = some .clear))) ∧
    (s.now + dt < due → exec (.driveStep dt ch) s = .next (s.advance dt))

/-! ### Function inputs and stations -/

/-- The function inputs: with the filter ON a raw change away from the filtered level waits 20 ms and one back discards it, with
it OFF the change is taken at once; a change taken sets the level, and an ESTOP input that becomes active reports ESTOP, a
ZONE_HOLD input that becomes active holds its zone, and one that is the last to become inactive releases it. 20 ms after a map
is taken up the levels are set, and an active ESTOP input reports ESTOP, an active ZONE_HOLD input holds its zone (R38, R141,
R142, R143). -/
def Obligations.FunctionInputs : Prop :=
  (∀ (s : State) (dt : Nat) (i : InputIx) (d : InputDesc) (high : Bool), tget s.inputs.high i ≠ high →
    s.inputs.phase = .running → s.map.input i = some d → d.filtered = true →
    (∀ start, tget s.inputs.changes i = some start → s.now + dt < start + 20000) →
    exec (.functionInputRawChange dt i high) s = .next { s with
      now := s.now + dt,
      inputs := { s.inputs with
        high := tput s.inputs.high i high,
        changes := tput s.inputs.changes i (if tget s.inputs.filtered i = high then none else some (s.now + dt)) } }) ∧
  (∀ (s : State) (dt : Nat) (i : InputIx) (d : InputDesc) (high : Bool), tget s.inputs.high i ≠ high →
    s.inputs.phase = .running → s.map.input i = some d → d.filtered = false → tget s.inputs.changes i = none →
    ∃ t, exec (.functionInputRawChange dt i high) s = .next t ∧
      t = { s with
        now := s.now + dt,
        inputs := { s.inputs with
          high := tput s.inputs.high i high, filtered := tput s.inputs.filtered i high,
          changes := tput s.inputs.changes i none },
        ride := t.ride } ∧
      (d.function = .estop → high = d.activeHigh → t.ride.cause? .estop = true ∧ t.ride.latched = true) ∧
      ∀ z, d.function = .zoneHold z → (s.ride.zone? z).isSome = true →
        (high = d.activeHigh → t.ride.held z .input = true) ∧
        (high ≠ d.activeHigh → t.ctx.anyActive (.zoneHold z) = false → t.ride.held z .input = false)) ∧
  (∀ (s : State) (dt : Nat) (i : InputIx) (d : InputDesc) (start : Nat), s.inputs.phase = .running →
    s.map.input i = some d → tget s.inputs.changes i = some start →
    (start + 20000 ≤ s.now + dt →
      ∃ t, exec (.functionInputChange dt i) s = .next t ∧
        t = { s with
          now := s.now + dt,
          inputs := { s.inputs with
            filtered := tput s.inputs.filtered i !tget s.inputs.filtered i, changes := tput s.inputs.changes i none },
          ride := t.ride } ∧
        (d.function = .estop → tget s.inputs.filtered i ≠ d.activeHigh → t.ride.cause? .estop = true ∧ t.ride.latched = true) ∧
        (∀ z, d.function = .zoneHold z → (s.ride.zone? z).isSome = true →
          (tget s.inputs.filtered i ≠ d.activeHigh → t.ride.held z .input = true) ∧
          (tget s.inputs.filtered i = d.activeHigh → t.ctx.anyActive (.zoneHold z) = false →
            t.ride.held z .input = false))) ∧
    (s.now + dt < start + 20000 → exec (.functionInputChange dt i) s = .next (s.advance dt))) ∧
  ∀ (s : State) (dt due : Nat), s.inputs.phase = .waiting due → due ≤ s.now + dt →
    ∃ t, exec (.functionInputStart dt) s = .next t ∧
      t = { s with
        now := s.now + dt,
        inputs := { s.inputs with
          filtered := t.inputs.filtered, changes := Vector.replicate 16 none, phase := .running },
        ride := t.ride } ∧
      (∀ i, tget t.inputs.filtered i = ((s.map.input i).isSome && tget s.inputs.high i)) ∧
      ∀ i d, s.map.input i = some d → tget s.inputs.high i = d.activeHigh →
        (d.function = .estop → t.ride.cause? .estop = true) ∧
        ∀ z, d.function = .zoneHold z → (s.ride.zone? z).isSome = true → t.ride.held z .input = true

/-- A station's changes of state (Table 8-3) and of its pairing (Table 8-4), and what its inputs do, their change taken 20 ms after it
with the filter ON and at once with it OFF. A RESTRAINT or GATE change that
makes both proofs active takes LOADING to READY; one that makes a proof inactive takes READY and PENDING to LOADING, with the notice
for a demand cancelled, and stops the ride in RELEASING before the departure; said outside AUTO or with the ride stop latched, where
no release follows in the step. A DISPATCH_A or DISPATCH_B change takes the pairing as Table 8-4 gives, unless the authority is LINK;
a pair formed in time makes a READY station PENDING from the buttons with its wait started, in AUTO with no ride stop latched, or
RELEASING where its chain is had at once. 20 ms after a take-up the pairing is SPENT with an input active and otherwise ARMED. A pair
window that runs out leaves the pairing EXPIRED with its first input and changes nothing else; a dispatch wait that runs out cancels
the demand with its notice, which leaves the station READY in a map that names it in STATION zones alone. Neither runs out before its
time (R18, R141, R142, R144, R146 to R148, R150, R152). -/
def Obligations.StationInputs : Prop :=
  (∀ (proofs : Bool) (st : StationState) (e : StationEvent),
    st.next proofs e = (match e, st with
      | .gained, .empty => .arriving
      | .held, .arriving | .held, .loading | .held, .ready | .held, .releasing _ | .provenClosed, .releasing _ =>
        if proofs then .ready else .loading
      | .proofsMade, .loading => .ready
      | .proofLost, .ready | .proofLost, .pending _ _ => .loading
      | .leftHeld, .loading | .leftHeld, .ready | .leftHeld, .pending _ _ => .arriving
      | .openCommand, .arriving | .openCommand, .loading | .openCommand, .ready | .openCommand, .pending _ _ => .releasing false
      | .departing, .releasing _ => .releasing true
      | .demand source due, .ready => .pending source due
      | .cancel, .pending _ _ => .ready
      | .lost, _ => .empty
      | _, st => st)) ∧
  (∀ (side : Side) (due due' : Nat),
    (Pairing.armed.press side due = { pairing := .timing side due } ∧
      (Pairing.timing side due').press side.other due = { pairing := .spent, pair := true } ∧
      (Pairing.expired side).press side.other due = { pairing := .spent, late := true } ∧
      Pairing.spent.press side due = { pairing := .spent }) ∧
    ∀ other : Bool, (Pairing.timing side due').letGo side other = { pairing := .armed } ∧
      (Pairing.expired side).letGo side other = { pairing := .armed } ∧
      (Pairing.timing side due').letGo side.other other = { pairing := .timing side due' } ∧
      (Pairing.expired side).letGo side.other other = { pairing := .expired side } ∧
      Pairing.spent.letGo side other = { pairing := if other then .spent else .armed }) ∧
  (∀ (s : State) (dt : Nat) (i : InputIx) (d : InputDesc) (cmd : Instr) (high : Bool) (lines : Vector Bool 16) (st : StationIx)
    (sd : StationDesc) (x : StationRec) (on : Bool), s.inputs.phase = .running → s.map.input i = some d →
    (cmd = .functionInputChange dt i ∧ high = (!tget s.inputs.filtered i) ∧ lines = s.inputs.high ∧
        (∃ start, tget s.inputs.changes i = some start ∧ start + 20000 ≤ s.now + dt) ∨
      cmd = .functionInputRawChange dt i high ∧ tget s.inputs.high i ≠ high ∧ lines = tput s.inputs.high i high ∧
        d.filtered = false ∧ tget s.inputs.changes i = none) →
    s.map.station st = some sd → s.ride.station? st = some x → on = (high == d.activeHigh) →
    ∃ t y, exec cmd s = .next t ∧ t.ride.station? st = some y ∧
      t = { s with
        now := s.now + dt,
        inputs := { s.inputs with
          high := lines, filtered := tput s.inputs.filtered i high, changes := tput s.inputs.changes i none },
        ride := t.ride } ∧
      (d.function = .restraint st ∨ d.function = .gate st → s.ride.Keeps t.ride ∧ y.pairing = x.pairing ∧
        (on = false → x.state = .releasing false → t.ride.cause? .stationProof = true ∧ t.ride.latched = true) ∧
        (on = false → x.state.isPending = true → t.ride.notice? .dispatchCancelled = true) ∧
        (s.calm → (on = true ∨ x.state ≠ .releasing false) →
          y.state =
            if on then if t.ctx.active sd.restraint && t.ctx.active sd.gate && x.state == .loading then .ready else x.state
            else if x.state == .ready || x.state.isPending then .loading else x.state)) ∧
      ∀ side : Side, d.function = (match side with | .a => .dispatchA st | .b => .dispatchB st) → s.ride.Keeps t.ride ∧
        (sd.authority = .link → y.pairing = x.pairing) ∧
        ∀ res : PairResult, sd.authority ≠ .link →
          res = (if on then x.pairing.press side (s.now + dt + sd.pairWindow * 1000)
            else x.pairing.letGo side (t.ctx.active (match side with | .a => sd.dispatchB | .b => sd.dispatchA))) →
          y.pairing = res.pairing ∧ (res.late = true → t.ride.notice? .latePair = true) ∧
          (res.pair = true → s.mode = .auto → s.ride.latched = false → x.state = .ready → t.ride.latched = false →
            y.state = .pending .buttons (s.now + dt + sd.dispatchWait * 1000) ∨ y.state = .releasing false) ∧
          (s.calm → y.state = x.state)) ∧
  (∀ (s : State) (dt due : Nat) (st : StationIx) (sd : StationDesc) (x : StationRec), s.inputs.phase = .waiting due →
    due ≤ s.now + dt → s.map.station st = some sd → s.ride.station? st = some x →
    ∃ t y, exec (.functionInputStart dt) s = .next t ∧ t.ride.station? st = some y ∧
      y.pairing = if sd.authority ≠ .link ∧ (t.ctx.active sd.dispatchA = true ∨ t.ctx.active sd.dispatchB = true) then .spent
        else .armed) ∧
  (∀ (s : State) (dt : Nat) (st : StationIx) (x : StationRec) (first : Side) (due : Nat), s.ride.station? st = some x →
    x.pairing = .timing first due →
    (due ≤ s.now + dt → exec (.pairWindowExpiry dt st) s = .next { s with
      now := s.now + dt, ride := s.ride.putStation st { x with pairing := .expired first } }) ∧
    (s.now + dt < due → exec (.pairWindowExpiry dt st) s = .next (s.advance dt))) ∧
  ∀ (s : State) (dt : Nat) (st : StationIx) (x : StationRec) (source : DemandSource) (due : Nat),
    s.ride.station? st = some x → x.state = .pending source due →
    (due ≤ s.now + dt →
      ∃ t y, exec (.dispatchWaitExpiry dt st) s = .next t ∧ s.onlyEvent dt t ∧ s.ride.Keeps t.ride ∧
        t.ride.station? st = some y ∧ y.state.isPending = false ∧ y.pairing = x.pairing ∧
        ((∀ z zd, s.map.zone z = some zd → zd.station = some st → zd.kind = .station) → y.state = .ready) ∧
        t.ride.notice? .dispatchCancelled = true) ∧
    (s.now + dt < due → exec (.dispatchWaitExpiry dt st) s = .next (s.advance dt))

/-! ### The transit timer -/

/-- The journey deadline at a forward crossing, for a run length up to 500,000 mm and a speed of at least 11 mm/s: into a
PREDICTED zone the predicted transit is the least whole number of ms at or above P times 1,000 over v, at most 45,454,546; the
late bound is the least at or above that times (256 + S) over 256, plus M; the deadline is the late bound clamped between Tmin
and Tmax. Every journey deadline is within 100 to 600,000 ms (R99). -/
def Obligations.JourneyDeadline : Prop :=
  ∀ (d : ZoneDesc) (run v : Nat), d.inRange = true → run ≤ 500000 → 11 ≤ v →
    (d.transit = .predicted →
      predictedTransit run v ≤ 45454546 ∧ predictedTransit run v * v ≥ run * 1000 ∧
      (∀ n, n * v ≥ run * 1000 → predictedTransit run v ≤ n) ∧
      ∃ late, (late - d.margin) * 256 ≥ predictedTransit run v * (256 + d.slack) ∧ d.margin ≤ late ∧
        (∀ n, n * 256 ≥ predictedTransit run v * (256 + d.slack) → late ≤ n + d.margin) ∧
        (d.journey run v).1 = min (max late d.tmin) d.tmax ∧ d.tmin ≤ (d.journey run v).1 ∧ (d.journey run v).1 ≤ d.tmax) ∧
    100 ≤ (d.journey run v).1 ∧ (d.journey run v).1 ≤ 600000

/-- The gate interval is the difference of the stamps, at least 1 and at most 16,777,215 µs; the speed is the gate length over it in
mm/s, rounded down, at most 65,535 and at least 11 for a gate length in range; a speed on a bound of the window is in it, and a bound
at its extreme is not checked; the early bound is the proportion of the predicted transit that R100 gives, rounded down, at most
600,000 ms. Each stands at its limit only where the exact value is at or beyond it. The journey deadline has that early bound into a
PREDICTED zone; into a TIMED zone it is the release allowance, with no early bound, whatever the speed (R86, R96, R97, R100, R101). -/
def Obligations.SpeedsAndBounds : Prop :=
  (∀ start stamp, 1 ≤ gateInterval start stamp ∧ gateInterval start stamp ≤ 16777215 ∧
    (stamp - start = 0 → gateInterval start stamp = 1) ∧
    (1 ≤ stamp - start → stamp - start ≤ 16777215 → gateInterval start stamp = stamp - start) ∧
    (16777215 < stamp - start → gateInterval start stamp = 16777215)) ∧
  (∀ gate interval, 200 ≤ gate → gate ≤ 4000 → 1 ≤ interval → interval ≤ 16777215 →
    11 ≤ crossingSpeed gate interval ∧ crossingSpeed gate interval ≤ 65535 ∧
    crossingSpeed gate interval * interval ≤ gate * 1000000 ∧
    (crossingSpeed gate interval < 65535 → gate * 1000000 < (crossingSpeed gate interval + 1) * interval)) ∧
  (∀ (d : ZoneDesc) (v : Nat), d.inRange = true →
    (d.window v = .overspeed ↔ d.maxSpeed < 65535 ∧ d.maxSpeed < v) ∧ (d.window v = .underspeed ↔ v < d.minSpeed)) ∧
  (∀ (d : ZoneDesc) (run v : Nat), (d.transit = .timed → d.journey run v = (d.release, none)) ∧
    (d.transit = .predicted → (d.journey run v).2 = some (earlyBound (predictedTransit run v) d.slack))) ∧
  ∀ transit slack, slack ≤ 255 → earlyBound transit slack ≤ 600000 ∧
    earlyBound transit slack * 256 ≤ transit * (256 - slack) ∧
    (earlyBound transit slack < 600000 → transit * (256 - slack) < (earlyBound transit slack + 1) * 256)
end

