-- ==== Sys2Proof/Laws/Tables.lean ====
section
/-! SUPPORT. Fixed tables: what an entry reads as after a write, and folds over every index. -/

namespace Sys2Proof.Machine

theorem tget_tput_same {α : Type} {n : Nat} (v : Vector α n) (i : Fin n) (x : α) : tget (tput v i x) i = x := by
  simp [tget, tput]

theorem tget_tput_other {α : Type} {n : Nat} (v : Vector α n) (i j : Fin n) (x : α) (h : j ≠ i) :
    tget (tput v i x) j = tget v j := by
  have h' : i.val ≠ j.val := fun e => h (Fin.ext e.symm)
  simp [tget, tput, h']

/-- An entry after a write. -/
theorem tget_tput {α : Type} {n : Nat} (v : Vector α n) (i j : Fin n) (x : α) :
    tget (tput v i x) j = if j = i then x else tget v j := by
  by_cases h : j = i
  · subst h; simp [tget_tput_same]
  · simp [tget_tput_other v i j x h, h]

theorem tget_replicate {α : Type} {n : Nat} (x : α) (i : Fin n) : tget (Vector.replicate n x) i = x := by
  simp [tget]

theorem tget_tgen {α : Type} {n : Nat} (f : Fin n → α) (i : Fin n) : tget (tgen f) i = f i := by
  simp [tget, tgen]

/-- Tables that agree at every index are equal. -/
theorem table_ext {α : Type} {n : Nat} {v w : Vector α n} (h : ∀ i, tget v i = tget w i) : v = w := by
  apply Vector.ext
  intro i hi
  exact h ⟨i, hi⟩

/-- What each pass of a fold keeps, the fold keeps. -/
theorem overAll_induct {σ : Type} {n : Nat} (P : σ → Prop) (f : Fin n → σ → σ) (step : ∀ i r, P r → P (f i r)) (r : σ)
    (h : P r) : P (overAll f r) := by
  unfold overAll
  generalize List.finRange n = l
  induction l generalizing r with
  | nil => exact h
  | cons i l ih => exact ih _ (step i r h)

/-- The same for a fold over a list. -/
theorem foldl_induct {σ α : Type} (P : σ → Prop) (f : σ → α → σ) (step : ∀ r a, P r → P (f r a)) (l : List α) (r : σ)
    (h : P r) : P (l.foldl f r) := by
  induction l generalizing r with
  | nil => exact h
  | cons a l ih => exact ih _ (step r a h)

/-- An index a number names is that number. -/
theorem ixOf_val {n v : Nat} {i : Fin n} (h : ixOf n v = some i) : i.val = v := by
  unfold ixOf at h
  split at h
  · cases h; rfl
  · cases h

theorem ixOf_self {n : Nat} (i : Fin n) : ixOf n i.val = some i := by simp [ixOf]

end Sys2Proof.Machine
end

