-- ==== Sys2Proof/Laws/Changes.lean ====
section
/-! SUPPORT. What the operations over the ride can do, said once: each takes the ride through a sequence of small changes.
An operation that is not `wide` changes no hold source, fault cause or entry speed of a zone and moves no train; one that may
not open turns on no brake's command output. Every claim about the operations is proved on the small changes alone. -/

namespace Sys2Proof.Machine

/-- An element's command output: asserted for an open brake or an opening one (R126). -/
def Element.output : Element → Bool
  | .brake (.opening _) _ => true
  | .brake .opened _ => true
  | _ => false

/-- A train that nothing but the sensors, ADMIT and the deadlines has moved: its place and its counts are the same and, unless
it stands or runs in its zone (HELD, STOPPING, RUNNING), so are its phase, deadline, direction and step mark. -/
def SamePlace (x y : Train) : Prop :=
  y.head = x.head ∧ y.tail = x.tail ∧ y.guard = x.guard ∧ y.lastSpeed = x.lastSpeed ∧ y.awaited = x.awaited ∧
  y.early = x.early ∧ y.overdue = x.overdue ∧
  (x.phase = .held ∨ x.phase = .stopping ∨ x.phase = .running ∨
    (y.phase = x.phase ∧ y.deadline = x.deadline ∧ y.dir = x.dir ∧ y.stepping = x.stepping))

theorem SamePlace.refl (x : Train) : SamePlace x x :=
  ⟨rfl, rfl, rfl, rfl, rfl, rfl, rfl, .inr (.inr (.inr ⟨rfl, rfl, rfl, rfl⟩))⟩

theorem SamePlace.trans {x y z : Train} (h : SamePlace x y) (k : SamePlace y z) : SamePlace x z := by
  obtain ⟨h1, h2, h3, h4, h5, h6, h7, h8⟩ := h
  obtain ⟨k1, k2, k3, k4, k5, k6, k7, k8⟩ := k
  refine ⟨k1.trans h1, k2.trans h2, k3.trans h3, k4.trans h4, k5.trans h5, k6.trans h6, k7.trans h7, ?_⟩
  rcases h8 with h8 | h8 | h8 | ⟨a, b, d, e⟩
  · exact .inl h8
  · exact .inr (.inl h8)
  · exact .inr (.inr (.inl h8))
  · rw [a, b, d, e] at k8
    exact k8

/-- Every chain, kept or presented, holds at most four zones (R22, R26). -/
def Ride.short (r : Ride) : Prop :=
  (∀ t x, r.train? t = some x → x.chain.length ≤ Config.chainLimit) ∧
  (∀ t chain, r.presented? t = some chain → chain.length ≤ Config.chainLimit)

/-- A claim that no train stands on: CLEAR, or RESERVED ahead of one. -/
def Claim.loose : Claim → Bool
  | .clear | .reserved _ => true
  | _ => false

/-- One small change of the ride. A wide one may change a zone's hold sources, fault cause and entry speed and move a train;
only one that may open turns a brake's output on; only one that may claim changes the claim on a zone a train stands on. -/
inductive Change (wide mayOpen mayClaim : Bool) (r : Ride) : Ride → Prop
  | claim (z : ZoneIx) (x : ZoneRec) (new : Claim) (h : r.zone? z = some x)
      (free : mayClaim = true ∨ (x.claim.loose = true ∧ new.loose = true)) :
      Change wide mayOpen mayClaim r (r.putZone z { x with claim := new })
  | zone (z : ZoneIx) (x y : ZoneRec) (hw : wide = true) (h : r.zone? z = some x) (claim : y.claim = x.claim)
      (fault : ∀ cause, x.fault = some cause → y.fault = some cause) : Change wide mayOpen mayClaim r (r.putZone z y)
  | train (t : SlotIx) (x y : Train) (h : r.train? t = some x) (label : y.label = x.label)
      (place : wide = true ∨ SamePlace x y) (short : r.short → y.chain.length ≤ Config.chainLimit)
      (counts : x.early ≤ Config.countLimit → x.overdue ≤ Config.countLimit →
        y.early ≤ Config.countLimit ∧ y.overdue ≤ Config.countLimit) :
      Change wide mayOpen mayClaim r (r.putTrain t y)
  | presented (t : SlotIx) (p : Option (List ZoneIx)) (short : ∀ chain, p = some chain → chain.length ≤ Config.chainLimit)
      (held : p.isSome = true → (r.train? t).isSome = true) : Change wide mayOpen mayClaim r (r.putPresented t p)
  | element (z : ZoneIx) (e e' : Element) (h : r.element? z = some e)
      (out : e'.output = true → e.output = true ∨ mayOpen = true)
      (stuck : ∀ cause cmd, e = .brake (.fault cause) cmd → ∃ cmd', e' = .brake (.fault cause) cmd') :
      Change wide mayOpen mayClaim r (r.putElement z e')
  | channel (ch : ChannelIx) (x y : Channel) (h : r.channel? ch = some x) (zone : y.zone = x.zone) :
      Change wide mayOpen mayClaim r (r.putChannel ch y)
  | switch (w : SwitchIx) (x y : SwitchRec) (h : r.switch? w = some x)
      (stuck : ∀ cause, x.pos = .fault cause → y.pos = .fault cause) : Change wide mayOpen mayClaim r (r.putSwitch w y)
  | station (st : StationIx) (x y : StationRec) (h : r.station? st = some x) :
      Change wide mayOpen mayClaim r (r.putStation st y)
  | raise (n : Notice) : Change wide mayOpen mayClaim r (r.raise n)
  | report (cause : Cause) : Change wide mayOpen mayClaim r (r.report cause)

/-- A sequence of small changes. -/
def Changes (wide mayOpen mayClaim : Bool) : Ride → Ride → Prop := Relation.ReflTransGen (Change wide mayOpen mayClaim)

variable {w o q : Bool} {c : Ctx} {r : Ride}

theorem Changes.refl (r : Ride) : Changes w o q r r := Relation.ReflTransGen.refl

theorem Changes.one {a b : Ride} (h : Change w o q a b) : Changes w o q a b := Relation.ReflTransGen.single h

theorem Changes.trans {a b d : Ride} (h : Changes w o q a b) (k : Changes w o q b d) : Changes w o q a d :=
  Relation.ReflTransGen.trans h k

/-- A change allowed in a narrower sense is allowed in a wider one. -/
theorem Change.mono {w' o' q' : Bool} {a b : Ride} (hw : w = true → w' = true) (ho : o = true → o' = true)
    (hq : q = true → q' = true) (h : Change w o q a b) : Change w' o' q' a b := by
  cases h with
  | claim z x new h free => exact .claim z x new h (free.imp_left hq)
  | zone z x y h1 h claim fault => exact .zone z x y (hw h1) h claim fault
  | train t x y h label place short counts => exact .train t x y h label (place.imp_left hw) short counts
  | presented t p short held => exact .presented t p short held
  | element z e e' h out stuck => exact .element z e e' h (fun k => (out k).imp_right ho) stuck
  | channel ch x y h zone => exact .channel ch x y h zone
  | switch w x y h stuck => exact .switch w x y h stuck
  | station st x y h => exact .station st x y h
  | raise n => exact .raise n
  | report cause => exact .report cause

theorem Changes.mono {w' o' q' : Bool} {a b : Ride} (hw : w = true → w' = true) (ho : o = true → o' = true)
    (hq : q = true → q' = true) (h : Changes w o q a b) : Changes w' o' q' a b := by
  induction h with
  | refl => exact .refl _
  | tail _ k ih => exact ih.trans (.one (k.mono hw ho hq))

/-- An allowed sequence in the strictest sense is allowed in every sense. -/
theorem Changes.widen {a b : Ride} (h : Changes false false false a b) : Changes w o q a b := h.mono (by simp) (by simp) (by simp)

/-- What every small change keeps, every sequence keeps. -/
theorem Changes.induct {a b : Ride} (P : Ride → Prop) (step : ∀ r r', Change w o q r r' → P r → P r') (h : Changes w o q a b)
    (ha : P a) : P b := by
  induction h with
  | refl => exact ha
  | tail _ k ih => exact step _ _ k ih

theorem raise_changes (n : Notice) : Changes w o q r (r.raise n) := .one (.raise n)

theorem report_changes (cause : Cause) : Changes w o q r (r.report cause) := .one (.report cause)

/-- A fold over every index of operations that change in an allowed sense. -/
theorem overAll_changes {n : Nat} {f : Fin n → Ride → Ride} (h : ∀ i r, Changes w o q r (f i r)) (r : Ride) :
    Changes w o q r (overAll f r) :=
  overAll_induct (fun r' => Changes w o q r r') f (fun i r' k => k.trans (h i r')) r (.refl r)

theorem foldl_changes {α : Type} {f : Ride → α → Ride} (h : ∀ r a, Changes w o q r (f r a)) (l : List α) (r : Ride) :
    Changes w o q r (l.foldl f r) :=
  foldl_induct (fun r' => Changes w o q r r') f (fun r' a k => k.trans (h r' a)) l r (.refl r)

/-! ### Stations -/

theorem stationEvent_changes (st : StationIx) (e : StationEvent) : Changes w o q r (stationEvent c st e r) := by
  unfold stationEvent
  split
  · exact .refl r
  · next x hx =>
    have h1 := Changes.one (w := w) (o := o) (q := q) (.station st x { x with state := x.state.next (c.stationProofs st) e } hx)
    dsimp only
    split <;> split
    · exact (h1.trans (raise_changes _)).trans (report_changes _)
    · exact h1.trans (report_changes _)
    · exact h1.trans (raise_changes _)
    · exact h1

theorem zoneStationEvent_changes (z : ZoneIx) (e : StationEvent) : Changes w o q r (zoneStationEvent c z e r) := by
  unfold zoneStationEvent
  split
  · exact stationEvent_changes _ e
  · exact .refl r

theorem occupantStationEvent_changes (t : SlotIx) (z : ZoneIx) (e : StationEvent) :
    Changes w o q r (occupantStationEvent c t z e r) := by
  unfold occupantStationEvent
  split
  · exact zoneStationEvent_changes z e
  · exact .refl r

theorem formDemand_changes (st : StationIx) (d : StationDesc) : Changes w o q r (formDemand c st d r) := by
  unfold formDemand
  split
  · exact stationEvent_changes st _
  · exact .refl r

theorem pairingChange_changes (st : StationIx) (side : Side) (on : Bool) : Changes w o q r (pairingChange c st side on r) := by
  unfold pairingChange
  split
  · next x d hx hd =>
    dsimp only
    split
    · exact .refl r
    · have h1 : ∀ y, Changes w o q r (r.putStation st y) := fun y => .one (.station st x y hx)
      have h2 : ∀ (y : StationRec) (late : Bool),
          Changes w o q r (if late = true then (r.putStation st y).raise .latePair else r.putStation st y) := by
        intro y late
        split
        · exact (h1 y).trans (raise_changes _)
        · exact h1 y
      have h3 : ∀ (y : StationRec) (late pair : Bool), Changes w o q r
          (if pair = true then formDemand c st d (if late = true then (r.putStation st y).raise .latePair else r.putStation st y)
            else if late = true then (r.putStation st y).raise .latePair else r.putStation st y) := by
        intro y late pair
        split
        · exact (h2 y late).trans (formDemand_changes st d)
        · exact h2 y late
      exact h3 _ _ _
  · exact .refl r

theorem windowExpiry_changes (st : StationIx) : Changes w o q r (windowExpiry st r) := by
  unfold windowExpiry
  split
  · next h => exact .one (.station st _ _ h)
  · exact .refl r

/-! ### Switches -/

theorem requestedMove_stuck (i : SwitchIx) (clear : Bool) (toward : Side) (src : MoveSource) (x : SwitchRec) (cause : SwitchFault)
    (h : x.pos = .fault cause) : (requestedMove c i clear toward src x).pos = .fault cause := by
  unfold requestedMove
  simp [h]

theorem requestMove_changes (i : SwitchIx) (toward : Side) (src : MoveSource) : Changes w o q r (requestMove c i toward src r) := by
  unfold requestMove
  split
  · next x h => exact .one (.switch i x _ h (fun cause k => requestedMove_stuck i _ toward src x cause k))
  · exact .refl r

/-- The switch, where it has a record, is not in FAULT. -/
def Ride.sound (r : Ride) (i : SwitchIx) : Prop := ∀ x, r.switch? i = some x → ∀ cause, x.pos ≠ .fault cause

theorem lockSwitch_changes (i : SwitchIx) (at_ : Side) (ok : r.sound i) : Changes w o q r (lockSwitch c i at_ r) := by
  unfold lockSwitch
  split
  · next x h => exact .one (.switch i x _ h (fun cause k => absurd k (ok x h cause)))
  · exact .refl r

theorem faultSwitch_changes (i : SwitchIx) (cause : SwitchFault) (ok : r.sound i) : Changes w o q r (faultSwitch i cause r) := by
  unfold faultSwitch
  split
  · next x h =>
    exact ((Changes.one (.switch i x _ h (fun cause k => absurd k (ok x h cause)))).trans (raise_changes _)).trans
      (report_changes _)
  · exact .refl r

theorem switchProofChange_changes (i : SwitchIx) (a b : Bool) : Changes w o q r (switchProofChange c i a b r) := by
  unfold switchProofChange
  split
  · exact .refl r
  · next x hx =>
    have h2 : ∀ (p : Prop) [Decidable p] (toward : Side), r.sound i → Changes w o q r (if p then lockSwitch c i toward r else r) := by
      intro p _ toward ok
      split
      · exact lockSwitch_changes i _ ok
      · exact .refl r
    dsimp only
    split
    · exact .refl r
    · next hp =>
      have ok : r.sound i := fun y hy cause k => by rw [hx] at hy; cases hy; rw [hp] at k; cases k
      split
      · exact faultSwitch_changes i _ ok
      · exact h2 _ _ ok
    · next hp =>
      have ok : r.sound i := fun y hy cause k => by rw [hx] at hy; cases hy; rw [hp] at k; cases k
      split
      · exact faultSwitch_changes i _ ok
      · split
        · exact faultSwitch_changes i _ ok
        · exact .refl r

theorem switchZoneTaken_changes (i : SwitchIx) : Changes w o q r (switchZoneTaken i r) := by
  unfold switchZoneTaken
  split
  · exact .refl r
  · next x h =>
    split
    · exact .one (.switch i x _ h (fun _ k => k))
    · next hp => exact faultSwitch_changes i _ (fun y hy cause k => by rw [h] at hy; cases hy; rw [hp] at k; cases k)
    · exact .refl r

theorem switchZoneCleared_changes (i : SwitchIx) : Changes w o q r (switchZoneCleared c i r) := by
  unfold switchZoneCleared
  split
  · exact .refl r
  · next x h =>
    dsimp only
    split
    · next hp => exact .one (.switch i x _ h (fun cause k => by rw [hp] at k; cases k))
    · exact .one (.switch i x _ h (fun _ k => k))

theorem claimToSwitch_changes (z : ZoneIx) (old new : Claim) : Changes w o q r (claimToSwitch c z old new r) := by
  unfold claimToSwitch
  split
  · exact .refl r
  · split
    · exact switchZoneTaken_changes _
    · split
      · exact switchZoneCleared_changes _
      · exact .refl r

theorem claimToStation_changes (z : ZoneIx) (old new : Claim) : Changes w o q r (claimToStation c z old new r) := by
  unfold claimToStation
  split
  · exact zoneStationEvent_changes z _
  · exact zoneStationEvent_changes z _
  · exact .refl r

/-- No train stands on the zone's claim. -/
def Ride.looseAt (r : Ride) (z : ZoneIx) : Prop := ∀ x, r.zone? z = some x → x.claim.loose = true

theorem setClaim_changes (z : ZoneIx) (new : Claim) (free : q = true ∨ (r.looseAt z ∧ new.loose = true)) :
    Changes w o q r (setClaim c z new r) := by
  unfold setClaim
  split
  · exact .refl r
  · next x h =>
    exact ((Changes.one (.claim z x new h (free.imp_right fun f => ⟨f.1 x h, f.2⟩))).trans
      (claimToSwitch_changes z _ _)).trans (claimToStation_changes z _ _)

theorem setClaimOf_changes (t : SlotIx) (z : ZoneIx) (new : Claim) : Changes w o true r (setClaimOf c t z new r) := by
  unfold setClaimOf
  split
  · exact setClaim_changes z new (.inl rfl)
  · exact .refl r

/-- A zone on whose claim no train stands stays so through small changes that may not claim. -/
theorem Change.looseAt {a b : Ride} (h : Change w o false a b) (z : ZoneIx) (k : a.looseAt z) : b.looseAt z := by
  cases h with
  | claim u x new h free =>
    intro y hy
    change tget (tput a.zones u (some { x with claim := new })) z = some y at hy
    rw [tget_tput] at hy
    split at hy
    · cases hy
      exact (free.resolve_left (by simp)).2
    · exact k y hy
  | zone u x y hw h claim fault =>
    intro y' hy
    change tget (tput a.zones u (some y)) z = some y' at hy
    rw [tget_tput] at hy
    split at hy
    · next e =>
      cases hy
      subst e
      rw [claim]
      exact k x h
    · exact k y' hy
  | report cause => unfold Ride.report; split <;> exact k
  | _ => exact k

theorem Changes.looseAt {a b : Ride} (h : Changes w o false a b) (z : ZoneIx) (k : a.looseAt z) : b.looseAt z :=
  h.induct (fun r => r.looseAt z) (fun _ _ k e => k.looseAt z e) k

theorem withdrawSwitches_changes (t : SlotIx) : Changes w o q r (withdrawSwitches t r) :=
  overAll_changes (fun i r => by
    split
    · next x h => exact .one (.switch i x _ h (fun _ k => k))
    · exact .refl r) r

theorem routeFor_changes (i : SwitchIx) (t : SlotIx) (x : Train) : Changes w o q r (routeFor c i t x r) := by
  unfold routeFor
  split
  · next sx d hs hd =>
    split
    · refine (Changes.one (.switch i sx _ hs ?_)).trans (requestMove_changes i _ _)
      exact fun _ k => k
    · exact .refl r
  · exact .refl r

theorem addRequest_changes (i : SwitchIx) (side : Side) (t : SlotIx) : Changes w o q r (addRequest i side t r) := by
  unfold addRequest
  split
  · next x h =>
    split
    · exact .one (.switch i x _ h (fun _ k => k))
    · exact .one (.switch i x _ h (fun _ k => k))
    · exact .refl r
  · exact .refl r

theorem present_changes (t : SlotIx) (x : Train) (chain : List ZoneIx) : Changes w o q r (present c t x chain r) := by
  unfold present
  split
  · exact .refl r
  · split
    · split
      · exact routeFor_changes _ t x
      · exact .refl r
    · split
      · exact addRequest_changes _ _ t
      · exact .refl r
    · exact .refl r

theorem arbitrate_changes (i : SwitchIx) : Changes w o q r (arbitrate c i r) := by
  unfold arbitrate
  split
  · next h =>
    split
    · split
      · exact .refl r
      · dsimp only
        split
        · exact .one (.switch i _ _ h (fun _ k => k))
        · refine (Changes.one (.switch i _ _ h ?_)).trans (requestMove_changes i _ _)
          exact fun _ k => k
    · exact .refl r
  · exact .refl r

theorem grantStep_changes (i : SwitchIx) (side : Side) (t : SlotIx) : Changes w o q r (grantStep i side t r) := by
  unfold grantStep
  split
  · next h => exact .one (.switch i _ _ h (fun _ k => k))
  · exact .refl r

/-! ### Trains -/

/-- A train's record changed in place: its label, its place, its counts and its chain's bound are kept. -/
theorem putTrain_changes {t : SlotIx} {x y : Train} (h : r.train? t = some x) (label : y.label = x.label)
    (place : w = true ∨ SamePlace x y) (short : r.short → y.chain.length ≤ Config.chainLimit)
    (counts : x.early ≤ Config.countLimit → x.overdue ≤ Config.countLimit →
      y.early ≤ Config.countLimit ∧ y.overdue ≤ Config.countLimit) :
    Changes w o q r (r.putTrain t y) := .one (.train t x y h label place short counts)

theorem changeTrain_changes {t : SlotIx} {x y : Train} (h : r.train? t = some x) (label : y.label = x.label)
    (place : w = true ∨ SamePlace x y) (short : r.short → y.chain.length ≤ Config.chainLimit)
    (counts : x.early ≤ Config.countLimit → x.overdue ≤ Config.countLimit →
      y.early ≤ Config.countLimit ∧ y.overdue ≤ Config.countLimit) :
    Changes w o q r (changeTrain c t x y r) := by
  have h0 : Changes w o q r (r.putTrain t y) := putTrain_changes h label place short counts
  unfold changeTrain
  dsimp only
  have k : ∀ (p : Prop) [Decidable p] (a : Ride) z e, Changes w o q r a →
      Changes w o q r (if p then occupantStationEvent c t z e a else a) := by
    intro p _ a z e ha
    split
    · exact ha.trans (occupantStationEvent_changes t z e)
    · exact ha
  exact k _ _ _ _ (k _ _ _ _ (k _ _ _ _ h0))

theorem returnChain_changes (t : SlotIx) : Changes w o q r (returnChain c t r) := by
  unfold returnChain
  split
  · exact .refl r
  · next x h =>
    refine Changes.trans (putTrain_changes (y := { x with chain := [] }) h rfl (.inr ⟨rfl, rfl, rfl, rfl, rfl, rfl, rfl, .inr (.inr (.inr ⟨rfl, rfl, rfl, rfl⟩))⟩)
      (fun _ => by simp [Config.chainLimit]) (fun a b => ⟨a, b⟩)) (foldl_changes (fun r z => ?_) _ _)
    split
    · next hz =>
      refine setClaim_changes z _ (.inr ⟨fun y hy => ?_, rfl⟩)
      simp only [Ride.claim?, hy, Option.map_some, Option.some.injEq] at hz
      rw [hz]
      rfl
    · exact .refl r

theorem reservedAt_changes (t : SlotIx) (z : ZoneIx) : Changes w o q r (reservedAt c t z r) := by
  unfold reservedAt
  split
  · exact .refl r
  · split
    · exact .refl r
    · next i _ _ x h =>
      refine Changes.trans (b := r.putSwitch i { x with role := x.role.atReserve t x.pos.lockedAt }) (.one (.switch i x _ h (fun _ k => k))) ?_
      unfold Ride.onTrain
      split
      · next y hy =>
        exact putTrain_changes (x := y) hy rfl (.inr ⟨rfl, rfl, rfl, rfl, rfl, rfl, rfl, .inr (.inr (.inr ⟨rfl, rfl, rfl, rfl⟩))⟩) (fun s => s.1 t y hy) (fun a b => ⟨a, b⟩)
      · exact .refl _

/-! ### Elements -/

theorem provenOpen_changes (z : ZoneIx) : Changes w o q r (provenOpen c z r) := by
  unfold provenOpen
  split
  · exact .refl r
  · split
    · exact .refl r
    · next t _ _ x h =>
      split
      · next hp =>
        exact changeTrain_changes h rfl
          (.inr ⟨rfl, rfl, rfl, rfl, rfl, rfl, rfl, hp.1.elim .inl fun k => .inr (.inl k)⟩) (fun s => s.1 t x h) (fun a b => ⟨a, b⟩)
      · exact .refl r

theorem provenClosed_changes (z : ZoneIx) : Changes w o q r (provenClosed c z r) := by
  unfold provenClosed
  split
  · exact .refl r
  · split
    · exact .refl r
    · split
      · exact (returnChain_changes _).trans (zoneStationEvent_changes z _)
      · exact .refl r

theorem brakeBecomes_changes {z : ZoneIx} {e : Element} {st : BrakeState} {cmd : ElementCommand} (h : r.element? z = some e)
    (out : (Element.brake st cmd).output = true → e.output = true ∨ o = true)
    (stuck : ∀ cause cmd', e = .brake (.fault cause) cmd' → st = .fault cause) :
    Changes w o q r (brakeBecomes c z st cmd r) := by
  have h1 : Changes w o q r (r.putElement z (.brake st cmd)) :=
    .one (.element z e _ h out fun cause cmd' k => ⟨cmd, by rw [stuck cause cmd' k]⟩)
  unfold brakeBecomes
  dsimp only
  split
  · exact h1.trans (provenOpen_changes z)
  · exact h1.trans (provenClosed_changes z)
  · exact (h1.trans (raise_changes _)).trans (report_changes _)
  · exact h1

/-- Levels never turn an output on. -/
theorem atLevels_output (st : BrakeState) (a b : Bool) (cmd cmd' : ElementCommand)
    (h : (Element.brake (st.atLevels a b) cmd).output = true) : (Element.brake st cmd').output = true := by
  cases st <;> cases a <;> cases b <;> simp_all [BrakeState.atLevels, Element.output]

/-- A close command turns no output on, nor leaves one on. -/
theorem commanded_close_output (st : BrakeState) (due : Nat) (cmd : ElementCommand) :
    (Element.brake (st.commanded .close due) cmd).output = false := by
  cases st <;> rfl

theorem atLevels_fault (cause : ElementFault) (a b : Bool) : (BrakeState.fault cause).atLevels a b = .fault cause := by
  cases a <;> cases b <;> rfl

theorem commanded_fault (cause : ElementFault) (cmd : ElementCommand) (due : Nat) :
    (BrakeState.fault cause).commanded cmd due = .fault cause := by
  cases cmd <;> rfl

theorem brakeCommand_changes {z : ZoneIx} {cmd cmd0 : ElementCommand} {st : BrakeState}
    (h : r.element? z = some (.brake st cmd0)) (ok : cmd = .close ∨ o = true) : Changes w o q r (brakeCommand c z cmd st r) := by
  have off : ∀ st', st.commanded cmd (c.proofDue z) = st' → (Element.brake st' cmd).output = true →
      (Element.brake st cmd0).output = true ∨ o = true := by
    intro st' hs ho
    rcases ok with rfl | ok
    · subst hs; simp [commanded_close_output] at ho
    · exact .inr ok
  have fault : ∀ cause cmd', Element.brake st cmd0 = .brake (.fault cause) cmd' → st.commanded cmd (c.proofDue z) = .fault cause := by
    intro cause cmd' e
    cases e
    exact commanded_fault cause cmd _
  unfold brakeCommand
  split
  · next cause hs =>
    refine .one (.element z _ _ h (by simp [Element.output]) fun cause' cmd' k => ⟨cmd, ?_⟩)
    rw [fault cause' cmd' k] at hs
    cases hs
    rfl
  · next hs => exact brakeBecomes_changes h (off _ hs) (fun cause cmd' k => by rw [← fault cause cmd' k, hs])
  · next hs => exact brakeBecomes_changes h (by simp [Element.output]) (fun cause cmd' k => by rw [← fault cause cmd' k, hs])
  · exact brakeBecomes_changes h (fun k => off _ rfl (atLevels_output _ _ _ _ cmd k))
      (fun cause cmd' k => by rw [fault cause cmd' k, atLevels_fault])

theorem brakeProofChange_changes (z : ZoneIx) : Changes w o q r (brakeProofChange c z r) := by
  unfold brakeProofChange
  split
  · next st cmd h =>
    dsimp only
    split
    · exact .refl r
    · exact brakeBecomes_changes h (fun k => .inl (atLevels_output _ _ _ _ cmd k))
        (fun cause cmd' k => by cases k; exact atLevels_fault cause _ _)
  · exact .refl r

theorem proofExpiry_changes (z : ZoneIx) : Changes w o q r (proofExpiry c z r) := by
  unfold proofExpiry
  split
  · next h => exact brakeBecomes_changes h (by simp [Element.output]) (fun _ _ k => by cases k)
  · next h => exact brakeBecomes_changes h (by simp [Element.output]) (fun _ _ k => by cases k)
  · exact .refl r

theorem driveArrives_changes {z : ZoneIx} {st : DriveState} {cmd cmd0 : ElementCommand}
    (h : r.element? z = some (.drive st cmd0)) : Changes w o q r (driveArrives c z cmd r) := by
  unfold driveArrives
  split
  · exact (Changes.one (.element z _ _ h (by simp [Element.output]) (fun _ _ k => by cases k))).trans (provenClosed_changes z)
  · exact (Changes.one (.element z _ _ h (by simp [Element.output]) (fun _ _ k => by cases k))).trans (provenOpen_changes z)

theorem driveInFlight_changes {z : ZoneIx} {st : DriveState} {cmd cmd0 : ElementCommand}
    (h : r.element? z = some (.drive st cmd0)) : Changes w o q r (driveInFlight z cmd r) :=
  .one (.element z _ _ h (by simp [Element.output]) (fun _ _ k => by cases k))

theorem aimed_zone (ch : Channel) (target due : Nat) : (ch.aimed target due).1.zone = ch.zone := by
  unfold Channel.aimed
  split
  · rfl
  · split <;> rfl

theorem driveCommand_changes {z : ZoneIx} {st : DriveState} {cmd cmd0 : ElementCommand}
    (h : r.element? z = some (.drive st cmd0)) : Changes w o q r (driveCommand c z cmd r) := by
  unfold driveCommand
  split
  · exact .refl r
  · split
    · next i _ _ _ ch d hc hd =>
      generalize ha : (if stopsAtOnce r d cmd then (ch.restingAt 0, true)
        else ch.aimed (cmd.codeOn d) (dueAfter c.now d.interval)) = aim
      have hz : aim.1.zone = ch.zone := by
        subst ha
        split
        · rfl
        · exact aimed_zone _ _ _
      dsimp only
      have h1 : Changes w o q r (r.putChannel i aim.1) := .one (.channel i ch aim.1 hc hz)
      split
      · exact h1.trans (driveArrives_changes h)
      · exact h1.trans (driveInFlight_changes h)
    · exact .refl r

theorem channelArrival_changes (zone : Option ZoneIx) (d : DriveDesc) (code : Nat) :
    Changes w o q r (channelArrival c zone d code r) := by
  unfold channelArrival
  split
  · exact .refl r
  · split
    · next h =>
      split
      · exact driveArrives_changes h
      · exact .refl r
    · exact .refl r

theorem stepped_zone (ch : Channel) (size due : Nat) : (ch.stepped size due).1.zone = ch.zone := by
  unfold Channel.stepped
  dsimp only
  split <;> split <;> rfl

theorem channelStep_changes (i : ChannelIx) : Changes w o q r (channelStep c i r) := by
  unfold channelStep
  split
  · next ch d hc hd =>
    split
    · dsimp only
      split
      · exact (Changes.one (.channel i ch _ hc (stepped_zone _ _ _))).trans (channelArrival_changes _ _ _)
      · exact .one (.channel i ch _ hc (stepped_zone _ _ _))
    · exact .refl r
  · exact .refl r

theorem channelStop_changes (i : ChannelIx) : Changes w o q r (channelStop c i r) := by
  unfold channelStop
  split
  · next ch d hc hd =>
    generalize ha : (if d.profile = .immediate then (ch.restingAt 0, true) else ch.aimed 0 (dueAfter c.now d.interval)) = aim
    have hz : aim.1.zone = ch.zone := by
      subst ha
      split
      · rfl
      · exact aimed_zone _ _ _
    dsimp only
    have h1 : Changes w o q r (r.putChannel i aim.1) := .one (.channel i ch aim.1 hc hz)
    split
    · exact h1
    · split
      · next st cmd h =>
        split
        · exact h1.trans (driveArrives_changes h)
        · exact h1.trans (.one (.element _ _ (.drive .closing cmd) h (by simp [Element.output]) (fun _ _ k => by cases k)))
      · exact h1
  · exact .refl r

theorem commandElement_changes (z : ZoneIx) (cmd : ElementCommand) (ok : cmd = .close ∨ o = true) :
    Changes w o q r (commandElement c z cmd r) := by
  unfold commandElement
  split
  · next h => exact brakeCommand_changes h ok
  · next h => exact driveCommand_changes h
  · exact .refl r

theorem closeUnderTrain_changes (z : ZoneIx) : Changes w o q r (closeUnderTrain c z r) := by
  unfold closeUnderTrain
  split
  · exact .refl r
  · split
    · exact .refl r
    · next t _ _ x h =>
      split
      · next hp =>
        exact changeTrain_changes h rfl (.inr ⟨rfl, rfl, rfl, rfl, rfl, rfl, rfl, .inr (.inr (.inl hp.1))⟩) (fun s => s.1 t x h)
          (fun a b => ⟨a, b⟩)
      · exact .refl r

theorem closeElement_changes (z : ZoneIx) : Changes w o q r (closeElement c z r) := by
  unfold closeElement
  split
  · exact .refl r
  · exact (closeUnderTrain_changes z).trans (commandElement_changes z _ (.inl rfl))

theorem openElement_changes (z : ZoneIx) (creep : Bool) (ok : o = true) : Changes w o q r (openElement c z creep r) := by
  unfold openElement
  split
  · exact .refl r
  · exact (zoneStationEvent_changes z _).trans (commandElement_changes z _ (.inr ok))

/-! ### The interlock -/

theorem addHold_changes (z : ZoneIx) (src : HoldSource) (hw : w = true) : Changes w o q r (addHold c z src r) := by
  unfold addHold
  split
  · exact .refl r
  · next x h =>
    split
    · exact .refl r
    · refine (Changes.one (.zone z x _ hw h ?_ ?_)).trans (closeElement_changes z)
      · rfl
      · exact fun _ k => k

theorem removeHold_changes (z : ZoneIx) (src : HoldSource) (hw : w = true) : Changes w o q r (removeHold z src r) := by
  unfold removeHold
  split
  · exact .refl r
  · next x h => exact .one (.zone z x _ hw h rfl (fun _ k => k))

theorem setZoneFault_changes (z : ZoneIx) (cause : ZoneFault) (hw : w = true) : Changes w o q r (setZoneFault c z cause r) := by
  unfold setZoneFault
  dsimp only
  have h2 : Changes w o q r (if cause = .boundary then r.raise .fault else (r.raise .fault).report .zoneFault) := by
    split
    · exact raise_changes _
    · exact (raise_changes _).trans (report_changes _)
  split
  · exact h2
  · next x h =>
    split
    · exact h2
    · next hf =>
      refine (h2.trans (.one (.zone z x _ hw h ?_ ?_))).trans (closeElement_changes z)
      · rfl
      · exact fun cause k => by rw [k] at hf; exact absurd rfl hf

/-- A chain of zones holds at most four. -/
theorem chainFrom_length (m : CircuitMap) (k : Nat) (z : ZoneIx) : (chainFrom m k z).length ≤ k + 1 := by
  induction k generalizing z with
  | zero => simp [chainFrom]
  | succ k ih =>
    unfold chainFrom
    split
    · split
      · next s _ => simpa using ih s
      · simp
    · simp

theorem prospectiveChain_length {x : Train} {chain : List ZoneIx} (h : prospectiveChain c r x = some chain) :
    chain.length ≤ Config.chainLimit := by
  unfold prospectiveChain at h
  rw [Option.map_eq_some_iff] at h
  obtain ⟨z, _, rfl⟩ := h
  exact chainFrom_length c.map (Config.chainLimit - 1) z

/-- The slots that hold a train stay those that do. -/
theorem Change.train_isSome {a b : Ride} (h : Change w o q a b) (t : SlotIx) : (b.train? t).isSome = (a.train? t).isSome := by
  cases h with
  | train u x y h =>
    show (tget (tput a.trains u (some y)) t).isSome = _
    rw [tget_tput]
    split
    · next e => subst e; simp [h]
    · rfl
  | report cause => unfold Ride.report; split <;> rfl
  | _ => rfl

theorem Changes.train_isSome {a b : Ride} (h : Changes w o q a b) (t : SlotIx) : (b.train? t).isSome = (a.train? t).isSome :=
  h.induct (fun r => (r.train? t).isSome = (a.train? t).isSome) (fun _ _ k e => (k.train_isSome t).trans e) rfl

theorem reserveChain_changes (t : SlotIx) (chain : List ZoneIx) (creep : Bool) (ok : o = true)
    (short : r.short → chain.length ≤ Config.chainLimit) (free : q = true ∨ ∀ z ∈ chain, r.looseAt z) :
    Changes w o q r (reserveChain c t chain creep r) := by
  unfold reserveChain
  split
  · exact .refl r
  · next x hx =>
    have h0 : Changes w o q r (r.putTrain t { x with chain := chain }) :=
      putTrain_changes hx rfl (.inr ⟨rfl, rfl, rfl, rfl, rfl, rfl, rfl, .inr (.inr (.inr ⟨rfl, rfl, rfl, rfl⟩))⟩) short
        (fun a b => ⟨a, b⟩)
    have h1 : ∀ (l : List ZoneIx) (a : Ride), (q = true ∨ ∀ z ∈ l, a.looseAt z) →
        Changes w o q a (l.foldl (fun r z => setClaim c z (.reserved t) r) a) := by
      intro l
      induction l with
      | nil => exact fun a _ => .refl a
      | cons z l ih =>
        intro a fr
        have k : Changes w o q a (setClaim c z (.reserved t) a) :=
          setClaim_changes z _ (fr.imp_right fun f => ⟨f z (by simp), rfl⟩)
        refine k.trans (ih _ ?_)
        rcases Bool.eq_false_or_eq_true q with e | e
        · exact .inl e
        · subst e
          exact .inr fun u hu => k.looseAt u ((fr.resolve_left (by simp)) u (by simp [hu]))
    have h2 := foldl_changes (w := w) (o := o) (q := q) (fun r z => reservedAt_changes (c := c) (r := r) t z) chain
      (chain.foldl (fun r z => setClaim c z (.reserved t) r) (r.putTrain t { x with chain := chain }))
    exact ((h0.trans ((h1 chain _ (free.imp_right fun f z hz y hy => f z hz y hy)).trans h2)).trans
      (.one (.presented t none (by simp) (by simp)))).trans (openElement_changes _ creep ok)

theorem stopRide_changes : Changes w o q r (r.stopRide c) := by
  unfold Ride.stopRide
  exact ((overAll_changes (fun z r => closeElement_changes z) r).trans
    (overAll_changes (fun i r => channelStop_changes i) _)).trans (overAll_changes (fun st r => stationEvent_changes st _) _)

theorem tellLatched_changes {before : Ride} : Changes w o q r (tellLatched c before r) := by
  unfold tellLatched
  split
  · exact stopRide_changes
  · exact .refl r

theorem reconsiderTrain_changes (t : SlotIx) : Changes w o q r (reconsiderTrain c t r) := by
  unfold reconsiderTrain
  split
  · exact .refl r
  · next x hx =>
    have hn : ∀ chain, (if eligible c r x then prospectiveChain c r x else none) = some chain →
        chain.length ≤ Config.chainLimit := by
      intro chain hc
      split at hc
      · exact prospectiveChain_length hc
      · cases hc
    generalize (if eligible c r x then prospectiveChain c r x else none) = n at hn
    dsimp only
    split
    · exact .refl r
    · have h1 : Changes w o q r (if (r.presented? t).isSome then withdrawSwitches t r else r) := by
        split
        · exact withdrawSwitches_changes t
        · exact .refl r
      have h2 : Changes w o q r ((if (r.presented? t).isSome then withdrawSwitches t r else r).putPresented t n) := by
        refine h1.trans (.one (.presented t _ hn ?_))
        intro _
        rw [h1.train_isSome t, hx]
        rfl
      split
      · exact h2.trans (present_changes t x _)
      · exact h2

/-- Short chains stay short. -/
theorem Change.short {a b : Ride} (h : Change w o q a b) (s : a.short) : b.short := by
  cases h with
  | train u x y h label place short counts =>
    refine ⟨fun t z hz => ?_, s.2⟩
    change tget (tput a.trains u (some y)) t = some z at hz
    rw [tget_tput] at hz
    split at hz
    · cases hz; exact short s
    · exact s.1 t z hz
  | presented u p short held =>
    refine ⟨s.1, fun t chain hz => ?_⟩
    change tget (tput a.presented u p) t = some chain at hz
    rw [tget_tput] at hz
    split at hz
    · exact short chain hz
    · exact s.2 t chain hz
  | report cause =>
    unfold Ride.report
    split
    · exact s
    · exact s
  | _ => exact s

theorem Changes.short {a b : Ride} (h : Changes w o q a b) (s : a.short) : b.short :=
  h.induct Ride.short (fun _ _ k e => k.short e) s

end Sys2Proof.Machine
end

