-- ==== Sys2Proof/Laws/Conclude.lean ====
section
/-! SUPPORT. The end of a step (tellLatched, reconsider, conclude) as a sequence of small changes, and what such a sequence keeps.
Nothing in it is wide, and with the latch set it opens no element. -/

namespace Sys2Proof.Machine

variable {w o q : Bool} {c : Ctx} {r : Ride}

/-! ### What every sequence of small changes keeps -/

theorem withBit_get {n : Nat} (s : BitVec n) (i j : Nat) (h : s.getLsbD j = true) : (withBit s i).getLsbD j = true := by
  simp [withBit, h]

theorem report_causes (r : Ride) (cause : Cause) (i : Nat) (h : r.causes.getLsbD i = true) :
    (r.report cause).causes.getLsbD i = true := by
  unfold Ride.report
  split
  · exact h
  · exact withBit_get _ _ _ h

/-- A cause, once in the set, stays through every small change (R159). -/
theorem Change.causes_grow {a b : Ride} (h : Change w o q a b) (i : Nat) (k : a.causes.getLsbD i = true) :
    b.causes.getLsbD i = true := by
  cases h with
  | report cause => exact report_causes a cause i k
  | _ => exact k

theorem Changes.causes_grow {a b : Ride} (h : Changes w o q a b) (i : Nat) (k : a.causes.getLsbD i = true) :
    b.causes.getLsbD i = true :=
  h.induct (fun r => r.causes.getLsbD i = true) (fun _ _ k e => k.causes_grow i e) k

/-- A notice, once raised, stays through every small change (R177). -/
theorem Change.notices_grow {a b : Ride} (h : Change w o q a b) (i : Nat) (k : a.notices.getLsbD i = true) :
    b.notices.getLsbD i = true := by
  cases h with
  | raise n => exact withBit_get _ _ _ k
  | report cause =>
    unfold Ride.report
    split
    · exact k
    · exact withBit_get _ _ _ k
  | _ => exact k

theorem Changes.notices_grow {a b : Ride} (h : Changes w o q a b) (i : Nat) (k : a.notices.getLsbD i = true) :
    b.notices.getLsbD i = true :=
  h.induct (fun r => r.notices.getLsbD i = true) (fun _ _ k e => k.notices_grow i e) k

theorem latched_iff (r : Ride) : r.latched = true ↔ ∃ i, r.causes.getLsbD i = true := by
  unfold Ride.latched
  constructor
  · intro h
    by_contra k
    apply absurd h
    have : r.causes = 0#11 := by
      ext i hi
      have := not_exists.mp k i
      simpa [BitVec.getLsbD_eq_getElem hi] using this
    simp [this]
  · rintro ⟨i, hi⟩
    simp only [bne_iff_ne, ne_eq]
    intro e
    simp [e] at hi

/-- The latch, once set, stays through every small change (R159). -/
theorem Changes.latched {a b : Ride} (h : Changes w o q a b) (k : a.latched = true) : b.latched = true := by
  rw [latched_iff] at k ⊢
  obtain ⟨i, hi⟩ := k
  exact ⟨i, h.causes_grow i hi⟩

/-- A zone's hold sources, fault cause and entry speed stay through every small change that is not wide. -/
theorem Change.zone_kept {a b : Ride} (h : Change false o q a b) (z : ZoneIx) :
    (b.zone? z).map (fun x => (x.holds, x.fault, x.entrySpeed)) = (a.zone? z).map fun x => (x.holds, x.fault, x.entrySpeed) := by
  cases h with
  | claim u x new h free =>
    show (tget (tput a.zones u (some { x with claim := new })) z).map _ = _
    rw [tget_tput]
    split
    · next e => subst e; simp [h]
    · rfl
  | zone u x y hw h claim fault => cases hw
  | report cause => unfold Ride.report; split <;> rfl
  | _ => rfl

theorem Changes.zone_kept {a b : Ride} (h : Changes false o q a b) (z : ZoneIx) :
    (b.zone? z).map (fun x => (x.holds, x.fault, x.entrySpeed)) = (a.zone? z).map fun x => (x.holds, x.fault, x.entrySpeed) :=
  h.induct (fun r => (r.zone? z).map (fun x => (x.holds, x.fault, x.entrySpeed)) =
    (a.zone? z).map fun x => (x.holds, x.fault, x.entrySpeed)) (fun _ _ k e => (k.zone_kept z).trans e) rfl

/-- Which zones have a record stays through every small change. -/
theorem Change.zone_isSome {a b : Ride} (h : Change w o q a b) (z : ZoneIx) : (b.zone? z).isSome = (a.zone? z).isSome := by
  cases h with
  | claim u x new h free =>
    show (tget (tput a.zones u (some { x with claim := new })) z).isSome = _
    rw [tget_tput]
    split
    · next e => subst e; simp [h]
    · rfl
  | zone u x y hw h claim fault =>
    show (tget (tput a.zones u (some y)) z).isSome = _
    rw [tget_tput]
    split
    · next e => subst e; simp [h]
    · rfl
  | report cause => unfold Ride.report; split <;> rfl
  | _ => rfl

theorem Changes.zone_isSome {a b : Ride} (h : Changes w o q a b) (z : ZoneIx) : (b.zone? z).isSome = (a.zone? z).isSome :=
  h.induct (fun r => (r.zone? z).isSome = (a.zone? z).isSome) (fun _ _ k e => (k.zone_isSome z).trans e) rfl

/-- An element's command output that is off stays off through every small change that may not open (R160). -/
theorem Change.output_off {a b : Ride} (h : Change w false q a b) (z : ZoneIx)
    (k : ∀ e, a.element? z = some e → e.output = false) : ∀ e, b.element? z = some e → e.output = false := by
  cases h with
  | element u e e' h out stuck =>
    intro e1 h1
    change tget (tput a.elements u (some e')) z = some e1 at h1
    rw [tget_tput] at h1
    split at h1
    · next eq =>
      cases h1
      subst eq
      cases ho : e'.output with
      | false => rfl
      | true => rcases out ho with g | g
                · rw [k e h] at g; cases g
                · cases g
    · exact k e1 h1
  | report cause => unfold Ride.report; split <;> exact k
  | _ => exact k

theorem Changes.output_off {a b : Ride} (h : Changes w false q a b) (z : ZoneIx)
    (k : ∀ e, a.element? z = some e → e.output = false) : ∀ e, b.element? z = some e → e.output = false :=
  h.induct (fun r => ∀ e, r.element? z = some e → e.output = false) (fun _ _ k e => k.output_off z e) k

/-- A train's label and, in a sequence that is not wide, its place stay through every small change. -/
theorem Change.train_kept {a b : Ride} (h : Change false o q a b) (t : SlotIx) (x : Train) (hx : a.train? t = some x) :
    ∃ y, b.train? t = some y ∧ y.label = x.label ∧ SamePlace x y := by
  have same : SamePlace x x := .refl x
  cases h with
  | train u x' y h label place short counts =>
    show ∃ y', tget (tput a.trains u (some y)) t = some y' ∧ _
    rw [tget_tput]
    split
    · next e =>
      subst e
      rw [hx] at h
      cases h
      exact ⟨y, rfl, label, place.resolve_left (by simp)⟩
    · exact ⟨x, hx, rfl, same⟩
  | report cause => unfold Ride.report; split <;> exact ⟨x, hx, rfl, same⟩
  | _ => exact ⟨x, hx, rfl, same⟩

theorem Changes.train_kept {a b : Ride} (h : Changes false o q a b) (t : SlotIx) (x : Train) (hx : a.train? t = some x) :
    ∃ y, b.train? t = some y ∧ y.label = x.label ∧ SamePlace x y := by
  refine h.induct (fun r => ∃ y, r.train? t = some y ∧ y.label = x.label ∧ SamePlace x y) (fun a b k e => ?_)
    ⟨x, hx, rfl, .refl x⟩
  obtain ⟨y, hy, hl, place⟩ := e
  obtain ⟨y', hy', hl', place'⟩ := k.train_kept t y hy
  exact ⟨y', hy', hl'.trans hl, place.trans place'⟩

/-- The claim on a zone that a train stands on or keeps as its guard stays through small changes that may not claim. -/
theorem Change.claim_kept {a b : Ride} (h : Change w o false a b) (z : ZoneIx) (claim : Claim) (hc : claim.loose = false)
    (k : a.claim? z = some claim) : b.claim? z = some claim := by
  cases h with
  | claim u x new h free =>
    show (tget (tput a.zones u (some { x with claim := new })) z).map _ = _
    rw [tget_tput]
    split
    · next e =>
      subst e
      have := (free.resolve_left (by simp)).1
      simp only [Ride.claim?, h, Option.map_some, Option.some.injEq] at k
      rw [k, hc] at this
      cases this
    · exact k
  | zone u x y hw h claim' fault =>
    show (tget (tput a.zones u (some y)) z).map _ = _
    rw [tget_tput]
    split
    · next e =>
      subst e
      simpa [Ride.claim?, h, claim'] using k
    · exact k
  | report cause => unfold Ride.report; split <;> exact k
  | _ => exact k

theorem Changes.claim_kept {a b : Ride} (h : Changes w o false a b) (z : ZoneIx) (claim : Claim) (hc : claim.loose = false)
    (k : a.claim? z = some claim) : b.claim? z = some claim :=
  h.induct (fun r => r.claim? z = some claim) (fun _ _ k e => k.claim_kept z claim hc e) k

/-- A zone's fault cause, once present, stays through every small change (R48). -/
theorem Change.fault_kept {a b : Ride} (h : Change w o q a b) (z : ZoneIx) (cause : ZoneFault)
    (k : (a.zone? z).bind (·.fault) = some cause) : (b.zone? z).bind (·.fault) = some cause := by
  cases h with
  | claim u x new h free =>
    show (tget (tput a.zones u (some { x with claim := new })) z).bind _ = _
    rw [tget_tput]
    split
    · next e =>
      subst e
      simpa [h] using k
    · exact k
  | zone u x y hw h claim fault =>
    show (tget (tput a.zones u (some y)) z).bind _ = _
    rw [tget_tput]
    split
    · next e =>
      subst e
      exact fault cause (by simpa [h] using k)
    · exact k
  | report cause => unfold Ride.report; split <;> exact k
  | _ => exact k

theorem Changes.fault_kept {a b : Ride} (h : Changes w o q a b) (z : ZoneIx) (cause : ZoneFault)
    (k : (a.zone? z).bind (·.fault) = some cause) : (b.zone? z).bind (·.fault) = some cause :=
  h.induct (fun r => (r.zone? z).bind (·.fault) = some cause) (fun _ _ k e => k.fault_kept z cause e) k

/-- A brake in FAULT stays there, with its cause, through every small change (R131). -/
theorem Change.brake_stuck {a b : Ride} (h : Change w o q a b) (z : ZoneIx) (cause : ElementFault)
    (k : ∃ cmd, a.element? z = some (.brake (.fault cause) cmd)) : ∃ cmd, b.element? z = some (.brake (.fault cause) cmd) := by
  cases h with
  | element u e e' h out stuck =>
    show ∃ cmd, tget (tput a.elements u (some e')) z = _
    rw [tget_tput]
    split
    · next eq =>
      subst eq
      obtain ⟨cmd, hk⟩ := k
      rw [h] at hk
      obtain ⟨cmd', hc⟩ := stuck cause cmd (Option.some.inj hk)
      exact ⟨cmd', by rw [hc]⟩
    · exact k
  | report cause => unfold Ride.report; split <;> exact k
  | _ => exact k

theorem Changes.brake_stuck {a b : Ride} (h : Changes w o q a b) (z : ZoneIx) (cause : ElementFault)
    (k : ∃ cmd, a.element? z = some (.brake (.fault cause) cmd)) : ∃ cmd, b.element? z = some (.brake (.fault cause) cmd) :=
  h.induct (fun r => ∃ cmd, r.element? z = some (.brake (.fault cause) cmd)) (fun _ _ k e => k.brake_stuck z cause e) k

/-- A switch in FAULT stays there, with its cause, through every small change (R111). -/
theorem Change.switch_stuck {a b : Ride} (h : Change w o q a b) (i : SwitchIx) (cause : SwitchFault)
    (k : ∃ x, a.switch? i = some x ∧ x.pos = .fault cause) : ∃ x, b.switch? i = some x ∧ x.pos = .fault cause := by
  cases h with
  | switch u x y h stuck =>
    show ∃ x, tget (tput a.switches u (some y)) i = _ ∧ _
    rw [tget_tput]
    split
    · next eq =>
      subst eq
      obtain ⟨x', hx', hp⟩ := k
      rw [h] at hx'
      cases hx'
      exact ⟨y, rfl, stuck cause hp⟩
    · exact k
  | report cause => unfold Ride.report; split <;> exact k
  | _ => exact k

theorem Changes.switch_stuck {a b : Ride} (h : Changes w o q a b) (i : SwitchIx) (cause : SwitchFault)
    (k : ∃ x, a.switch? i = some x ∧ x.pos = .fault cause) : ∃ x, b.switch? i = some x ∧ x.pos = .fault cause :=
  h.induct (fun r => ∃ x, r.switch? i = some x ∧ x.pos = .fault cause) (fun _ _ k e => k.switch_stuck i cause e) k

/-! ### The end of a step -/

/-- A fold over every index of operations that change in an allowed sense, each asking of the ride only what the earlier ones
keep. -/
theorem overAll_changes_of {n : Nat} {f : Fin n → Ride → Ride} (P : Ride → Prop)
    (keep : ∀ a b, Changes w o q a b → P a → P b) (h : ∀ i r, P r → Changes w o q r (f i r)) (hr : P r) :
    Changes w o q r (overAll f r) :=
  (overAll_induct (fun r' => Changes w o q r r' ∧ P r') f
    (fun i r' k => ⟨k.1.trans (h i r' k.2), keep _ _ (h i r' k.2) k.2⟩) r ⟨.refl r, hr⟩).1

/-- What a ride must meet where nothing may open: the latch is set. -/
def MayOpen (o : Bool) (r : Ride) : Prop := r.latched = true ∨ o = true

theorem MayOpen.keep {a b : Ride} (h : Changes w o q a b) (k : MayOpen o a) : MayOpen o b := k.imp_left h.latched

/-- No train stands on a zone of an available chain (R31). -/
theorem chainAvailable_loose {t : SlotIx} {step : Bool} {before : ZoneIx} {chain : List ZoneIx}
    (h : chainAvailable c r t step before chain = true) : ∀ z ∈ chain, r.looseAt z := by
  induction chain generalizing before with
  | nil => simp
  | cons u l ih =>
    rw [chainAvailable, Bool.and_eq_true] at h
    intro z hz
    rcases List.mem_cons.mp hz with rfl | hz
    · intro x hx
      have := h.1
      simp only [zoneAvailable, hx, Option.any_some, Bool.and_eq_true, beq_iff_eq] at this
      rw [this.1.1.1.1]
      rfl
    · exact ih h.2 z hz

theorem reserveIfAvailable_changes (t : SlotIx) (ok : MayOpen o r) : Changes w o q r (reserveIfAvailable c t r) := by
  unfold reserveIfAvailable
  split
  · next x chain hx hp =>
    split
    · next hc =>
      have open_ : o = true := by
        refine ok.resolve_left fun hl => ?_
        simp [eligible, readyToReserve, hl] at hc
      refine reserveChain_changes t chain false open_ (fun s => s.2 t chain hp) (.inr ?_)
      simp only [Bool.and_eq_true] at hc
      exact chainAvailable_loose hc.2
    · exact .refl r
  · exact .refl r

theorem reconsider_changes (ok : MayOpen o r) : Changes w o q r (reconsider c r) := by
  unfold reconsider
  have h1 := overAll_changes (w := w) (o := o) (q := q) (fun (t : SlotIx) r => reconsiderTrain_changes (c := c) (r := r) t) r
  have h2 := h1.trans (overAll_changes (fun (i : SwitchIx) r => arbitrate_changes (c := c) (r := r) i) _)
  exact h2.trans (overAll_changes_of (MayOpen o) (fun _ _ h => MayOpen.keep h)
    (fun t _ k => reserveIfAvailable_changes t k) (ok.keep h2))

/-- What the end of a step does is a sequence of small changes; where the step's own effects leave the latch set, it opens
nothing. -/
theorem conclude_changes {before after : Ride} (ok : MayOpen o after) : Changes w o q after (conclude c before after) := by
  have h1 : Changes w o q after (tellLatched c before after) := tellLatched_changes
  have h2 := h1.trans (reconsider_changes (c := c) (ok.keep h1))
  unfold conclude
  dsimp only
  split
  · have h3 := h2.trans (stopRide_changes (c := c))
    exact h3.trans (reconsider_changes (ok.keep h3))
  · exact h2

end Sys2Proof.Machine
end

