-- ==== Sys2Proof/Laws/State.lean ====
section
/-! SUPPORT. One lemma for each field that each update of the state leaves as it stands, so that no proof unfolds a record
update. -/

namespace Sys2Proof.Machine

/-! ### Updates of the ride -/

@[simp] theorem Ride.putZone_presented (r : Ride) (z : ZoneIx) (x : ZoneRec) : (r.putZone z x).presented = r.presented := rfl
@[simp] theorem Ride.putZone_trains (r : Ride) (z : ZoneIx) (x : ZoneRec) : (r.putZone z x).trains = r.trains := rfl
@[simp] theorem Ride.putZone_elements (r : Ride) (z : ZoneIx) (x : ZoneRec) : (r.putZone z x).elements = r.elements := rfl
@[simp] theorem Ride.putZone_channels (r : Ride) (z : ZoneIx) (x : ZoneRec) : (r.putZone z x).channels = r.channels := rfl
@[simp] theorem Ride.putZone_switches (r : Ride) (z : ZoneIx) (x : ZoneRec) : (r.putZone z x).switches = r.switches := rfl
@[simp] theorem Ride.putZone_stations (r : Ride) (z : ZoneIx) (x : ZoneRec) : (r.putZone z x).stations = r.stations := rfl
@[simp] theorem Ride.putZone_causes (r : Ride) (z : ZoneIx) (x : ZoneRec) : (r.putZone z x).causes = r.causes := rfl
@[simp] theorem Ride.putZone_notices (r : Ride) (z : ZoneIx) (x : ZoneRec) : (r.putZone z x).notices = r.notices := rfl

@[simp] theorem Ride.putTrain_zones (r : Ride) (t : SlotIx) (x : Train) : (r.putTrain t x).zones = r.zones := rfl
@[simp] theorem Ride.putTrain_presented (r : Ride) (t : SlotIx) (x : Train) : (r.putTrain t x).presented = r.presented := rfl
@[simp] theorem Ride.putTrain_elements (r : Ride) (t : SlotIx) (x : Train) : (r.putTrain t x).elements = r.elements := rfl
@[simp] theorem Ride.putTrain_channels (r : Ride) (t : SlotIx) (x : Train) : (r.putTrain t x).channels = r.channels := rfl
@[simp] theorem Ride.putTrain_switches (r : Ride) (t : SlotIx) (x : Train) : (r.putTrain t x).switches = r.switches := rfl
@[simp] theorem Ride.putTrain_stations (r : Ride) (t : SlotIx) (x : Train) : (r.putTrain t x).stations = r.stations := rfl
@[simp] theorem Ride.putTrain_causes (r : Ride) (t : SlotIx) (x : Train) : (r.putTrain t x).causes = r.causes := rfl
@[simp] theorem Ride.putTrain_notices (r : Ride) (t : SlotIx) (x : Train) : (r.putTrain t x).notices = r.notices := rfl

@[simp] theorem Ride.freeSlot_zones (r : Ride) (t : SlotIx) : (r.freeSlot t).zones = r.zones := rfl
@[simp] theorem Ride.freeSlot_presented (r : Ride) (t : SlotIx) : (r.freeSlot t).presented = r.presented := rfl
@[simp] theorem Ride.freeSlot_elements (r : Ride) (t : SlotIx) : (r.freeSlot t).elements = r.elements := rfl
@[simp] theorem Ride.freeSlot_channels (r : Ride) (t : SlotIx) : (r.freeSlot t).channels = r.channels := rfl
@[simp] theorem Ride.freeSlot_switches (r : Ride) (t : SlotIx) : (r.freeSlot t).switches = r.switches := rfl
@[simp] theorem Ride.freeSlot_stations (r : Ride) (t : SlotIx) : (r.freeSlot t).stations = r.stations := rfl
@[simp] theorem Ride.freeSlot_causes (r : Ride) (t : SlotIx) : (r.freeSlot t).causes = r.causes := rfl
@[simp] theorem Ride.freeSlot_notices (r : Ride) (t : SlotIx) : (r.freeSlot t).notices = r.notices := rfl

@[simp] theorem Ride.putElement_zones (r : Ride) (z : ZoneIx) (x : Element) : (r.putElement z x).zones = r.zones := rfl
@[simp] theorem Ride.putElement_presented (r : Ride) (z : ZoneIx) (x : Element) : (r.putElement z x).presented = r.presented := rfl
@[simp] theorem Ride.putElement_trains (r : Ride) (z : ZoneIx) (x : Element) : (r.putElement z x).trains = r.trains := rfl
@[simp] theorem Ride.putElement_channels (r : Ride) (z : ZoneIx) (x : Element) : (r.putElement z x).channels = r.channels := rfl
@[simp] theorem Ride.putElement_switches (r : Ride) (z : ZoneIx) (x : Element) : (r.putElement z x).switches = r.switches := rfl
@[simp] theorem Ride.putElement_stations (r : Ride) (z : ZoneIx) (x : Element) : (r.putElement z x).stations = r.stations := rfl
@[simp] theorem Ride.putElement_causes (r : Ride) (z : ZoneIx) (x : Element) : (r.putElement z x).causes = r.causes := rfl
@[simp] theorem Ride.putElement_notices (r : Ride) (z : ZoneIx) (x : Element) : (r.putElement z x).notices = r.notices := rfl

@[simp] theorem Ride.putChannel_zones (r : Ride) (ch : ChannelIx) (x : Channel) : (r.putChannel ch x).zones = r.zones := rfl
@[simp] theorem Ride.putChannel_presented (r : Ride) (ch : ChannelIx) (x : Channel) : (r.putChannel ch x).presented = r.presented := rfl
@[simp] theorem Ride.putChannel_trains (r : Ride) (ch : ChannelIx) (x : Channel) : (r.putChannel ch x).trains = r.trains := rfl
@[simp] theorem Ride.putChannel_elements (r : Ride) (ch : ChannelIx) (x : Channel) : (r.putChannel ch x).elements = r.elements := rfl
@[simp] theorem Ride.putChannel_switches (r : Ride) (ch : ChannelIx) (x : Channel) : (r.putChannel ch x).switches = r.switches := rfl
@[simp] theorem Ride.putChannel_stations (r : Ride) (ch : ChannelIx) (x : Channel) : (r.putChannel ch x).stations = r.stations := rfl
@[simp] theorem Ride.putChannel_causes (r : Ride) (ch : ChannelIx) (x : Channel) : (r.putChannel ch x).causes = r.causes := rfl
@[simp] theorem Ride.putChannel_notices (r : Ride) (ch : ChannelIx) (x : Channel) : (r.putChannel ch x).notices = r.notices := rfl

@[simp] theorem Ride.putSwitch_zones (r : Ride) (w : SwitchIx) (x : SwitchRec) : (r.putSwitch w x).zones = r.zones := rfl
@[simp] theorem Ride.putSwitch_presented (r : Ride) (w : SwitchIx) (x : SwitchRec) : (r.putSwitch w x).presented = r.presented := rfl
@[simp] theorem Ride.putSwitch_trains (r : Ride) (w : SwitchIx) (x : SwitchRec) : (r.putSwitch w x).trains = r.trains := rfl
@[simp] theorem Ride.putSwitch_elements (r : Ride) (w : SwitchIx) (x : SwitchRec) : (r.putSwitch w x).elements = r.elements := rfl
@[simp] theorem Ride.putSwitch_channels (r : Ride) (w : SwitchIx) (x : SwitchRec) : (r.putSwitch w x).channels = r.channels := rfl
@[simp] theorem Ride.putSwitch_stations (r : Ride) (w : SwitchIx) (x : SwitchRec) : (r.putSwitch w x).stations = r.stations := rfl
@[simp] theorem Ride.putSwitch_causes (r : Ride) (w : SwitchIx) (x : SwitchRec) : (r.putSwitch w x).causes = r.causes := rfl
@[simp] theorem Ride.putSwitch_notices (r : Ride) (w : SwitchIx) (x : SwitchRec) : (r.putSwitch w x).notices = r.notices := rfl

@[simp] theorem Ride.putStation_zones (r : Ride) (st : StationIx) (x : StationRec) : (r.putStation st x).zones = r.zones := rfl
@[simp] theorem Ride.putStation_presented (r : Ride) (st : StationIx) (x : StationRec) : (r.putStation st x).presented = r.presented := rfl
@[simp] theorem Ride.putStation_trains (r : Ride) (st : StationIx) (x : StationRec) : (r.putStation st x).trains = r.trains := rfl
@[simp] theorem Ride.putStation_elements (r : Ride) (st : StationIx) (x : StationRec) : (r.putStation st x).elements = r.elements := rfl
@[simp] theorem Ride.putStation_channels (r : Ride) (st : StationIx) (x : StationRec) : (r.putStation st x).channels = r.channels := rfl
@[simp] theorem Ride.putStation_switches (r : Ride) (st : StationIx) (x : StationRec) : (r.putStation st x).switches = r.switches := rfl
@[simp] theorem Ride.putStation_causes (r : Ride) (st : StationIx) (x : StationRec) : (r.putStation st x).causes = r.causes := rfl
@[simp] theorem Ride.putStation_notices (r : Ride) (st : StationIx) (x : StationRec) : (r.putStation st x).notices = r.notices := rfl

@[simp] theorem Ride.putPresented_zones (r : Ride) (t : SlotIx) (x : Option (List ZoneIx)) : (r.putPresented t x).zones = r.zones := rfl
@[simp] theorem Ride.putPresented_trains (r : Ride) (t : SlotIx) (x : Option (List ZoneIx)) : (r.putPresented t x).trains = r.trains := rfl
@[simp] theorem Ride.putPresented_elements (r : Ride) (t : SlotIx) (x : Option (List ZoneIx)) : (r.putPresented t x).elements = r.elements := rfl
@[simp] theorem Ride.putPresented_channels (r : Ride) (t : SlotIx) (x : Option (List ZoneIx)) : (r.putPresented t x).channels = r.channels := rfl
@[simp] theorem Ride.putPresented_switches (r : Ride) (t : SlotIx) (x : Option (List ZoneIx)) : (r.putPresented t x).switches = r.switches := rfl
@[simp] theorem Ride.putPresented_stations (r : Ride) (t : SlotIx) (x : Option (List ZoneIx)) : (r.putPresented t x).stations = r.stations := rfl
@[simp] theorem Ride.putPresented_causes (r : Ride) (t : SlotIx) (x : Option (List ZoneIx)) : (r.putPresented t x).causes = r.causes := rfl
@[simp] theorem Ride.putPresented_notices (r : Ride) (t : SlotIx) (x : Option (List ZoneIx)) : (r.putPresented t x).notices = r.notices := rfl

@[simp] theorem Ride.raise_zones (r : Ride) (n : Notice) : (r.raise n).zones = r.zones := rfl
@[simp] theorem Ride.raise_presented (r : Ride) (n : Notice) : (r.raise n).presented = r.presented := rfl
@[simp] theorem Ride.raise_trains (r : Ride) (n : Notice) : (r.raise n).trains = r.trains := rfl
@[simp] theorem Ride.raise_elements (r : Ride) (n : Notice) : (r.raise n).elements = r.elements := rfl
@[simp] theorem Ride.raise_channels (r : Ride) (n : Notice) : (r.raise n).channels = r.channels := rfl
@[simp] theorem Ride.raise_switches (r : Ride) (n : Notice) : (r.raise n).switches = r.switches := rfl
@[simp] theorem Ride.raise_stations (r : Ride) (n : Notice) : (r.raise n).stations = r.stations := rfl
@[simp] theorem Ride.raise_causes (r : Ride) (n : Notice) : (r.raise n).causes = r.causes := rfl

/-! ### Updates of the state -/

@[simp] theorem State.advance_pending (s : State) (dt : Nat) : (s.advance dt).pending = s.pending := rfl
@[simp] theorem State.advance_powered (s : State) (dt : Nat) : (s.advance dt).powered = s.powered := rfl
@[simp] theorem State.advance_resetLine (s : State) (dt : Nat) : (s.advance dt).resetLine = s.resetLine := rfl
@[simp] theorem State.advance_map (s : State) (dt : Nat) : (s.advance dt).map = s.map := rfl
@[simp] theorem State.advance_image (s : State) (dt : Nat) : (s.advance dt).image = s.image := rfl
@[simp] theorem State.advance_storing (s : State) (dt : Nat) : (s.advance dt).storing = s.storing := rfl
@[simp] theorem State.advance_report (s : State) (dt : Nat) : (s.advance dt).report = s.report := rfl
@[simp] theorem State.advance_mode (s : State) (dt : Nat) : (s.advance dt).mode = s.mode := rfl
@[simp] theorem State.advance_sensors (s : State) (dt : Nat) : (s.advance dt).sensors = s.sensors := rfl
@[simp] theorem State.advance_bounds (s : State) (dt : Nat) : (s.advance dt).bounds = s.bounds := rfl
@[simp] theorem State.advance_proofs (s : State) (dt : Nat) : (s.advance dt).proofs = s.proofs := rfl
@[simp] theorem State.advance_inputs (s : State) (dt : Nat) : (s.advance dt).inputs = s.inputs := rfl
@[simp] theorem State.advance_selection (s : State) (dt : Nat) : (s.advance dt).selection = s.selection := rfl
@[simp] theorem State.advance_answers (s : State) (dt : Nat) : (s.advance dt).answers = s.answers := rfl
@[simp] theorem State.advance_ride (s : State) (dt : Nat) : (s.advance dt).ride = s.ride := rfl
@[simp] theorem State.advance_link (s : State) (dt : Nat) : (s.advance dt).link = s.link := rfl
@[simp] theorem State.advance_dataOut (s : State) (dt : Nat) : (s.advance dt).dataOut = s.dataOut := rfl

@[simp] theorem State.frameTaken_pending (s : State) : s.frameTaken.pending = s.pending := rfl
@[simp] theorem State.frameTaken_now (s : State) : s.frameTaken.now = s.now := rfl
@[simp] theorem State.frameTaken_powered (s : State) : s.frameTaken.powered = s.powered := rfl
@[simp] theorem State.frameTaken_resetLine (s : State) : s.frameTaken.resetLine = s.resetLine := rfl
@[simp] theorem State.frameTaken_map (s : State) : s.frameTaken.map = s.map := rfl
@[simp] theorem State.frameTaken_image (s : State) : s.frameTaken.image = s.image := rfl
@[simp] theorem State.frameTaken_storing (s : State) : s.frameTaken.storing = s.storing := rfl
@[simp] theorem State.frameTaken_report (s : State) : s.frameTaken.report = s.report := rfl
@[simp] theorem State.frameTaken_mode (s : State) : s.frameTaken.mode = s.mode := rfl
@[simp] theorem State.frameTaken_sensors (s : State) : s.frameTaken.sensors = s.sensors := rfl
@[simp] theorem State.frameTaken_bounds (s : State) : s.frameTaken.bounds = s.bounds := rfl
@[simp] theorem State.frameTaken_proofs (s : State) : s.frameTaken.proofs = s.proofs := rfl
@[simp] theorem State.frameTaken_inputs (s : State) : s.frameTaken.inputs = s.inputs := rfl
@[simp] theorem State.frameTaken_selection (s : State) : s.frameTaken.selection = s.selection := rfl
@[simp] theorem State.frameTaken_answers (s : State) : s.frameTaken.answers = s.answers := rfl
@[simp] theorem State.frameTaken_ride (s : State) : s.frameTaken.ride = s.ride := rfl

@[simp] theorem State.discardSelection_pending (s : State) : s.discardSelection.pending = s.pending := rfl
@[simp] theorem State.discardSelection_now (s : State) : s.discardSelection.now = s.now := rfl
@[simp] theorem State.discardSelection_powered (s : State) : s.discardSelection.powered = s.powered := rfl
@[simp] theorem State.discardSelection_resetLine (s : State) : s.discardSelection.resetLine = s.resetLine := rfl
@[simp] theorem State.discardSelection_map (s : State) : s.discardSelection.map = s.map := rfl
@[simp] theorem State.discardSelection_image (s : State) : s.discardSelection.image = s.image := rfl
@[simp] theorem State.discardSelection_storing (s : State) : s.discardSelection.storing = s.storing := rfl
@[simp] theorem State.discardSelection_report (s : State) : s.discardSelection.report = s.report := rfl
@[simp] theorem State.discardSelection_mode (s : State) : s.discardSelection.mode = s.mode := rfl
@[simp] theorem State.discardSelection_sensors (s : State) : s.discardSelection.sensors = s.sensors := rfl
@[simp] theorem State.discardSelection_bounds (s : State) : s.discardSelection.bounds = s.bounds := rfl
@[simp] theorem State.discardSelection_proofs (s : State) : s.discardSelection.proofs = s.proofs := rfl
@[simp] theorem State.discardSelection_inputs (s : State) : s.discardSelection.inputs = s.inputs := rfl
@[simp] theorem State.discardSelection_link (s : State) : s.discardSelection.link = s.link := rfl
@[simp] theorem State.discardSelection_dataOut (s : State) : s.discardSelection.dataOut = s.dataOut := rfl
@[simp] theorem State.discardSelection_answers (s : State) : s.discardSelection.answers = s.answers := rfl

@[simp] theorem State.respond_pending (s : State) (m : Bool) (res : Result) (next : Follow) : (s.respond m res next).pending = s.pending := rfl
@[simp] theorem State.respond_now (s : State) (m : Bool) (res : Result) (next : Follow) : (s.respond m res next).now = s.now := rfl
@[simp] theorem State.respond_powered (s : State) (m : Bool) (res : Result) (next : Follow) : (s.respond m res next).powered = s.powered := rfl
@[simp] theorem State.respond_resetLine (s : State) (m : Bool) (res : Result) (next : Follow) : (s.respond m res next).resetLine = s.resetLine := rfl
@[simp] theorem State.respond_map (s : State) (m : Bool) (res : Result) (next : Follow) : (s.respond m res next).map = s.map := rfl
@[simp] theorem State.respond_image (s : State) (m : Bool) (res : Result) (next : Follow) : (s.respond m res next).image = s.image := rfl
@[simp] theorem State.respond_storing (s : State) (m : Bool) (res : Result) (next : Follow) : (s.respond m res next).storing = s.storing := rfl
@[simp] theorem State.respond_report (s : State) (m : Bool) (res : Result) (next : Follow) : (s.respond m res next).report = s.report := rfl
@[simp] theorem State.respond_mode (s : State) (m : Bool) (res : Result) (next : Follow) : (s.respond m res next).mode = s.mode := rfl
@[simp] theorem State.respond_sensors (s : State) (m : Bool) (res : Result) (next : Follow) : (s.respond m res next).sensors = s.sensors := rfl
@[simp] theorem State.respond_bounds (s : State) (m : Bool) (res : Result) (next : Follow) : (s.respond m res next).bounds = s.bounds := rfl
@[simp] theorem State.respond_proofs (s : State) (m : Bool) (res : Result) (next : Follow) : (s.respond m res next).proofs = s.proofs := rfl
@[simp] theorem State.respond_inputs (s : State) (m : Bool) (res : Result) (next : Follow) : (s.respond m res next).inputs = s.inputs := rfl
@[simp] theorem State.respond_selection (s : State) (m : Bool) (res : Result) (next : Follow) : (s.respond m res next).selection = s.selection := rfl
@[simp] theorem State.respond_ride (s : State) (m : Bool) (res : Result) (next : Follow) : (s.respond m res next).ride = s.ride := rfl

@[simp] theorem State.onRide_pending (s : State) (f : Ctx → Ride → Ride) : (s.onRide f).pending = s.pending := rfl
@[simp] theorem State.onRide_now (s : State) (f : Ctx → Ride → Ride) : (s.onRide f).now = s.now := rfl
@[simp] theorem State.onRide_powered (s : State) (f : Ctx → Ride → Ride) : (s.onRide f).powered = s.powered := rfl
@[simp] theorem State.onRide_resetLine (s : State) (f : Ctx → Ride → Ride) : (s.onRide f).resetLine = s.resetLine := rfl
@[simp] theorem State.onRide_map (s : State) (f : Ctx → Ride → Ride) : (s.onRide f).map = s.map := rfl
@[simp] theorem State.onRide_image (s : State) (f : Ctx → Ride → Ride) : (s.onRide f).image = s.image := rfl
@[simp] theorem State.onRide_storing (s : State) (f : Ctx → Ride → Ride) : (s.onRide f).storing = s.storing := rfl
@[simp] theorem State.onRide_report (s : State) (f : Ctx → Ride → Ride) : (s.onRide f).report = s.report := rfl
@[simp] theorem State.onRide_mode (s : State) (f : Ctx → Ride → Ride) : (s.onRide f).mode = s.mode := rfl
@[simp] theorem State.onRide_sensors (s : State) (f : Ctx → Ride → Ride) : (s.onRide f).sensors = s.sensors := rfl
@[simp] theorem State.onRide_bounds (s : State) (f : Ctx → Ride → Ride) : (s.onRide f).bounds = s.bounds := rfl
@[simp] theorem State.onRide_proofs (s : State) (f : Ctx → Ride → Ride) : (s.onRide f).proofs = s.proofs := rfl
@[simp] theorem State.onRide_inputs (s : State) (f : Ctx → Ride → Ride) : (s.onRide f).inputs = s.inputs := rfl
@[simp] theorem State.onRide_selection (s : State) (f : Ctx → Ride → Ride) : (s.onRide f).selection = s.selection := rfl
@[simp] theorem State.onRide_answers (s : State) (f : Ctx → Ride → Ride) : (s.onRide f).answers = s.answers := rfl
@[simp] theorem State.onRide_link (s : State) (f : Ctx → Ride → Ride) : (s.onRide f).link = s.link := rfl
@[simp] theorem State.onRide_dataOut (s : State) (f : Ctx → Ride → Ride) : (s.onRide f).dataOut = s.dataOut := rfl

@[simp] theorem State.advance_now (s : State) (dt : Nat) : (s.advance dt).now = s.now + dt := rfl
@[simp] theorem State.frameTaken_link (s : State) : s.frameTaken.link = .awaitingFrame := rfl
@[simp] theorem State.frameTaken_dataOut (s : State) : s.frameTaken.dataOut = s.frameBytes := rfl
@[simp] theorem State.discardSelection_selection (s : State) : s.discardSelection.selection = none := rfl
@[simp] theorem State.discardSelection_ride (s : State) : s.discardSelection.ride = s.ride.raise .selectionDiscarded := rfl
@[simp] theorem State.onRide_ride (s : State) (f : Ctx → Ride → Ride) :
    (s.onRide f).ride = conclude s.ctx s.ride (f s.ctx s.ride) := rfl
@[simp] theorem State.respond_dataOut (s : State) (m : Bool) (res : Result) (next : Follow) : (s.respond m res next).dataOut = s.dataOut := rfl
@[simp] theorem State.respond_answers (s : State) (m : Bool) (res : Result) (next : Follow) : (s.respond m res next).answers = s.answers + 1 := rfl

end Sys2Proof.Machine
end

