-- ==== Sys2Proof/Laws/Link.lean ====
section
/-! SUPPORT. The common handling of command frames, said once (Table 10-2, R47, R167, R168): what a frame that is taken, turned
away or failed leaves, so that a claim about a command speaks of its own rule alone. -/

namespace Sys2Proof.Machine

/-- Outside a transaction a frame does nothing. -/
theorem takeFrame_outside {s : State} (h : s.link.takesFrame = none) (cls : FrameClass) (own : State → Result × State)
    (next : Follow) : s.takeFrame cls own next = s := by
  simp [State.takeFrame, h]

theorem beforeCommand_mode (s : State) (cls : FrameClass) : (s.beforeCommand cls).mode = s.mode := by
  unfold State.beforeCommand
  split <;> rfl

theorem beforeCommand_keeping {s : State} {cls : FrameClass} (h : cls.keeps = true) :
    s.beforeCommand cls = { s with link := .awaitingFrame, dataOut := s.frameBytes } := by
  simp [State.beforeCommand, h, State.frameTaken]

/-- A command that R47 does not except finds no selection open, and the notice raised where one was. -/
theorem beforeCommand_ordinary {s : State} {cls : FrameClass} (h : cls.keeps = false) :
    s.beforeCommand cls = { s with link := .awaitingFrame, dataOut := s.frameBytes, selection := none, ride := s.told } := by
  unfold State.beforeCommand State.told
  cases hs : s.selection with
  | none =>
    cases s
    simp_all [State.frameTaken]
  | some sel => simp [h, State.frameTaken, State.discardSelection]

/-- A frame taken and handed to its owner is answered with the owner's result, after the owner's effects. -/
theorem takeFrame_taken {s : State} (h : s.takes) (cls : FrameClass) (own : State → Result × State) (next : Follow) :
    s.takeFrame cls own next =
      (own (s.beforeCommand cls)).2.respond (!cls.keeps && s.selection.isSome) (own (s.beforeCommand cls)).1
        ((own (s.beforeCommand cls)).1.follow next) := by
  unfold State.takeFrame
  rw [h.1]
  simp [State.answer, beforeCommand_mode, h.2]

/-- A frame that cut off a stream is answered SEQUENCE, but by the command that stops one (R175). -/
theorem takeFrame_cut {s : State} (h : s.link.takesFrame = some true) {cls : FrameClass} (hc : cls.afterCut = false)
    (own : State → Result × State) (next : Follow) :
    s.takeFrame cls own next = (s.beforeCommand cls).respond (!cls.keeps && s.selection.isSome) .sequence .nothing := by
  unfold State.takeFrame
  rw [h]
  simp [State.answer, hc, Result.follow]

/-- A frame in LOADING is answered BUSY (R167). -/
theorem takeFrame_loading {s : State} (h : s.link.takesFrame = some false) (hm : s.mode = .loading) {cls : FrameClass}
    (hl : cls.inLoading = false) (own : State → Result × State) (next : Follow) :
    s.takeFrame cls own next = (s.beforeCommand cls).respond (!cls.keeps && s.selection.isSome) .busy .nothing := by
  unfold State.takeFrame
  rw [h]
  simp [State.answer, beforeCommand_mode, hm, hl, Result.follow]

/-- A command answered by its own rule in LOADING too. -/
theorem takeFrame_always {s : State} (h : s.link.takesFrame = some false) {cls : FrameClass} (hl : cls.inLoading = true)
    (own : State → Result × State) (next : Follow) :
    s.takeFrame cls own next =
      (own (s.beforeCommand cls)).2.respond (!cls.keeps && s.selection.isSome) (own (s.beforeCommand cls)).1
        ((own (s.beforeCommand cls)).1.follow next) := by
  unfold State.takeFrame
  rw [h]
  simp [State.answer, hl]

/-- A frame that fails its check (R166). -/
theorem failFrame_taken {s : State} (h : s.link.takesFrame.isSome = true) :
    s.failFrame =
      ({ s with link := .awaitingFrame, dataOut := s.frameBytes, ride := s.ride.raise .checkError } : State).respond false .checkFailed
        .nothing := by
  obtain ⟨cut, hc⟩ := Option.isSome_iff_exists.mp h
  simp [State.failFrame, hc, State.frameTaken]

/-- The condition byte reads neither the bytes on the link nor, but for a stream, the link's state (Table 10-8). -/
theorem conditionByte_dataOut (s : State) (bs : List Byte) : ({ s with dataOut := bs } : State).conditionByte = s.conditionByte :=
  rfl

/-- A response changes the link alone: the answer is prepared, with its condition byte that of the state after it. -/
theorem respond_eq (s : State) (discarded : Bool) (res : Result) (next : Follow) :
    s.respond discarded res next = { s with
      link := .responding (Config.waitBytes s.answers).val
        (responseFrame discarded res (s.respond discarded res next).conditionByte) next
      answers := s.answers + 1 } := by
  cases next <;> rfl

/-- A response answers the command. -/
theorem respond_answered (s : State) (discarded : Bool) (res : Result) (next : Follow) :
    (s.respond discarded res next).answered discarded res next :=
  ⟨_, Nat.le_of_lt_succ (Config.waitBytes s.answers).isLt, congrArg State.link (respond_eq s discarded res next)⟩

/-- A step's effect on the ride changes nothing else. -/
theorem onRide_eq (s : State) (f : Ctx → Ride → Ride) : s.onRide f = { s with ride := (s.onRide f).ride } := rfl

/-- An acceptance byte is prepared. -/
theorem accept_accepting (s : State) (answer : Byte) : (s.accept answer).accepting answer :=
  ⟨_, Nat.le_of_lt_succ (Config.waitBytes s.answers).isLt, rfl⟩

/-- What the last byte of a block leaves: the link, and for the notice block the notices of its snapshot removed. -/
theorem blockEnds_eq (s : State) (after : BlockEnd) :
    s.blockEnds after = { s with
      link := (s.blockEnds after).link
      ride := { s.ride with notices := (s.blockEnds after).ride.notices } } := by
  cases after <;> rfl

/-- One byte of SENDING changes the link, the byte on the data output and, with a notice block's last byte, the notices. -/
theorem sendByte_eq (s : State) (what : Sending) :
    s.sendByte what = { s with
      link := (s.sendByte what).link
      dataOut := (s.sendByte what).dataOut
      ride := { s.ride with notices := (s.sendByte what).ride.notices } } := by
  unfold State.sendByte
  split
  · rfl
  · rw [blockEnds_eq]

/-- A byte of fill makes a start-up reset where a RESTART waits for its response to be sent, and otherwise changes the link, the byte
on the data output and the notices alone. -/
theorem clock_eq (s : State) :
    (∃ rest, s.link = .responding 0 rest .restart ∧ s.clock = { startUpReset s with dataOut := rest }) ∨
    s.clock = { s with
      link := s.clock.link, dataOut := s.clock.dataOut, ride := { s.ride with notices := s.clock.ride.notices } } := by
  unfold State.clock
  split
  case h_6 rest next _ hl =>
    unfold State.responseEnds
    cases next with
    | restart => exact .inl ⟨_, hl, rfl⟩
    | _ => exact .inr rfl
  case h_7 => exact .inr (sendByte_eq _ _)
  all_goals exact .inr rfl

end Sys2Proof.Machine
end

