-- ==== Sys2Proof/Laws/TrainChanges.lean ====
section
/-! SUPPORT. What the train table, the passage unit's events and the function inputs do to the ride, as sequences of small
changes: they open no element by themselves. -/

namespace Sys2Proof.Machine

variable {o q : Bool} {c : Ctx} {r : Ride}

/-- What a matched train is: its slot holds it, it meets the condition and it is not LOST (R54). -/
theorem matching_spec {p : Train → Bool} {t : SlotIx} {x : Train} (h : r.matching p = some (t, x)) :
    r.train? t = some x ∧ p x = true ∧ x.phase ≠ .lost := by
  unfold Ride.matching at h
  have h1 := List.mem_of_find?_eq_some h
  have h2 := List.find?_some h
  unfold Ride.trainsList at h1
  rw [List.mem_filterMap] at h1
  obtain ⟨u, -, hu⟩ := h1
  rw [Option.map_eq_some_iff] at hu
  obtain ⟨y, hy, e⟩ := hu
  cases e
  simp only [Bool.and_eq_true, bne_iff_ne, ne_eq] at h2
  exact ⟨hy, h2.2, h2.1⟩

/-- A train's record changed with its chain and its counts kept. -/
theorem moveTrain_changes {t : SlotIx} {x y : Train} (h : r.train? t = some x) (label : y.label = x.label)
    (chain : y.chain = x.chain) (early : y.early = x.early) (overdue : y.overdue = x.overdue) :
    Changes true o q r (changeTrain c t x y r) :=
  changeTrain_changes h label (.inl rfl) (fun s => chain ▸ s.1 t x h) (fun a b => ⟨early ▸ a, overdue ▸ b⟩)

theorem countUp_le (n : Nat) : countUp n ≤ Config.countLimit := Nat.min_le_left _ _

theorem loseTrain_changes {t : SlotIx} {x : Train} (h : r.train? t = some x) : Changes true o q r (loseTrain c t x r) := by
  unfold loseTrain
  refine (Changes.trans ?_ (raise_changes _)).trans (report_changes _)
  exact moveTrain_changes h rfl rfl rfl rfl

theorem makeOverdue_changes {t : SlotIx} {x : Train} (aw : Awaited) (h : r.train? t = some x) :
    Changes true o q r (makeOverdue c t x aw r) := by
  unfold makeOverdue
  have h1 : Changes true o q r (changeTrain c t x
      { x with phase := .overdue, deadline := none, awaited := some aw, overdue := countUp x.overdue } r) :=
    changeTrain_changes h rfl (.inl rfl) (fun s => s.1 t x h) (fun a _ => ⟨a, countUp_le _⟩)
  have h2 := (h1.trans (raise_changes .overdue)).trans (addHold_changes (c := c) x.head .overdue rfl)
  dsimp only
  split
  · exact h2.trans (report_changes _)
  · exact h2

theorem bringToRest_changes {t : SlotIx} {x : Train} (h : r.train? t = some x) : Changes true o q r (bringToRest c t x r) := by
  unfold bringToRest
  refine Changes.trans ?_ (returnChain_changes t)
  exact moveTrain_changes h rfl rfl rfl rfl

theorem closeWhere_changes {w : Bool} (p : ZoneIx → Bool) : Changes w o q r (closeWhere c p r) :=
  overAll_changes (fun z r => by
    split
    · exact closeElement_changes z
    · exact .refl r) r

theorem settleTrain_changes (t : SlotIx) (z : ZoneIx) (dir : Direction) (stamp : Nat) :
    Changes true o q r (settleTrain c t z dir stamp r) := by
  unfold settleTrain
  split
  · exact .refl r
  · next h => exact moveTrain_changes h rfl rfl rfl rfl

theorem onTrain_changes {w : Bool} (t : SlotIx) (f : Train → Train) (label : ∀ x, (f x).label = x.label)
    (place : ∀ x, w = true ∨ SamePlace x (f x)) (short : ∀ x, x.chain.length ≤ Config.chainLimit → (f x).chain.length ≤ Config.chainLimit)
    (early : ∀ x, (f x).early = x.early) (overdue : ∀ x, (f x).overdue = x.overdue) : Changes w o q r (r.onTrain t f) := by
  unfold Ride.onTrain
  split
  · next x h =>
    exact putTrain_changes h (label x) (place x) (fun s => short x (s.1 t x h)) (fun a b => ⟨early x ▸ a, overdue x ▸ b⟩)
  · exact .refl r

theorem dropFromChain_changes (t : SlotIx) (z : ZoneIx) : Changes true o q r (dropFromChain t z r) :=
  onTrain_changes t _ (fun _ => rfl) (fun _ => .inl rfl) (fun _ h => (List.length_filter_le _ _).trans h) (fun _ => rfl) (fun _ => rfl)

theorem dropGuard_changes (t : SlotIx) (z : ZoneIx) : Changes true o q r (dropGuard t z r) :=
  onTrain_changes t _ (fun _ => rfl) (fun _ => .inl rfl) (fun _ h => h) (fun _ => rfl) (fun _ => rfl)

theorem reinsert_changes (t : SlotIx) (z : ZoneIx) : Changes true o true r (reinsert c t z r) := by
  unfold reinsert
  split
  · exact .refl r
  · have h1 : Changes true o true r (setClaim c z (.reserved t) r) := setClaim_changes z _ (.inl rfl)
    dsimp only
    split
    · exact h1
    · next x hx =>
      have h2 : Changes true o true r ((setClaim c z (.reserved t) r).putTrain t { x with chain := (z :: x.chain).take Config.chainLimit }) :=
        h1.trans (putTrain_changes hx rfl (.inl rfl) (fun _ => List.length_take_le _ _) (fun a b => ⟨a, b⟩))
      split
      · split
        · exact h2.trans (setClaim_changes _ _ (.inl rfl))
        · exact h2
      · exact h2

theorem releaseGuard_changes (t : SlotIx) : Changes true o true r (releaseGuard c t r) := by
  unfold releaseGuard
  split
  · exact .refl r
  · next x hx =>
    split
    · exact .refl r
    · have h1 : Changes true o true r (r.putTrain t { x with guard := none }) :=
        putTrain_changes hx rfl (.inl rfl) (fun s => s.1 t x hx) (fun a b => ⟨a, b⟩)
      dsimp only
      split
      · exact h1.trans (setClaim_changes _ _ (.inl rfl))
      · exact h1

theorem takeGuard_changes (t : SlotIx) (z : ZoneIx) (b : BoundaryIx) : Changes true o true r (takeGuard c t z b r) := by
  unfold takeGuard
  split
  · exact .refl r
  · exact ((releaseGuard_changes t).trans (setClaim_changes z _ (.inl rfl))).trans
      (onTrain_changes t _ (fun _ => rfl) (fun _ => .inl rfl) (fun _ h => h) (fun _ => rfl) (fun _ => rfl))

theorem takeFrom_changes (claim : Claim) (z : ZoneIx) : Changes true o q r (takeFrom c claim z r) := by
  unfold takeFrom
  split
  · split
    · exact (dropFromChain_changes _ z).trans (closeElement_changes _)
    · exact .refl r
  · exact dropGuard_changes _ z
  · exact .refl r

theorem recordEntry_changes (z : ZoneIx) (v : Nat) : Changes true o q r (recordEntry z v r) := by
  unfold recordEntry
  split
  · next x h => exact .one (.zone z x _ rfl h rfl (fun _ k => k))
  · exact .refl r

theorem recordEntry_train (z : ZoneIx) (v : Nat) (t : SlotIx) : (recordEntry z v r).train? t = r.train? t := by
  unfold recordEntry
  split <;> rfl

theorem settleCrossing_changes {t : SlotIx} {src dst : ZoneIx} {r' : Ride} (h : settleCrossing c t src dst r = some r') :
    Changes true o true r r' := by
  unfold settleCrossing at h
  split at h
  · cases h
  · split at h
    · cases h
    · split at h
      · cases h
      · split at h
        · cases h
          exact (((dropFromChain_changes t dst).trans (dropGuard_changes t dst)).trans (setClaim_changes dst _ (.inl rfl))).trans
            (setClaim_changes src _ (.inl rfl))
        · cases h
          exact (((takeFrom_changes _ dst).trans (setClaim_changes dst _ (.inl rfl))).trans (setClaim_changes src _ (.inl rfl))).trans
            (setZoneFault_changes dst _ rfl)

theorem unexpected_changes (z : ZoneIx) : Changes true o q r (unexpected c z r) := setZoneFault_changes z _ rfl

theorem onApproach_changes (bd : BoundaryDesc) (stamp : Nat) : Changes true o q r (onApproach c bd stamp r) := by
  unfold onApproach
  split
  · exact unexpected_changes _
  · next t x h =>
    have hx := (matching_spec h).1
    split
    · exact loseTrain_changes hx
    · have early : ∀ b : Bool, Changes true o q r (changeTrain c t x
          { x with phase := .leaving, deadline := none, early := if b then countUp x.early else x.early } r) := by
        intro b
        refine changeTrain_changes hx rfl (.inl rfl) (fun s => s.1 t x hx) (fun a k => ⟨?_, k⟩)
        cases b
        · exact a
        · exact countUp_le _
      have gone : Changes true o q r (changeTrain c t x { x with phase := .leaving, deadline := none, dir := .forward } r) :=
        moveTrain_changes hx rfl rfl rfl rfl
      have tell : ∀ b : Bool, Changes true o q r (if b = true then (changeTrain c t x
          { x with phase := .leaving, deadline := none, early := if b then countUp x.early else x.early } r).raise .early
          else changeTrain c t x { x with phase := .leaving, deadline := none, early := if b then countUp x.early else x.early } r) := by
        intro b
        cases b
        · exact early false
        · exact (early true).trans (raise_changes _)
      split
      · exact tell _
      · exact tell _
      · dsimp only
        split
        · exact gone.trans (raise_changes _)
        · exact (gone.trans (raise_changes _)).trans (setZoneFault_changes _ _ rfl)
      · dsimp only
        split
        · exact gone.trans (raise_changes _)
        · exact (gone.trans (raise_changes _)).trans (setZoneFault_changes _ _ rfl)
      · exact moveTrain_changes hx rfl rfl rfl rfl
      · exact loseTrain_changes hx
      · exact loseTrain_changes hx
      · exact loseTrain_changes hx
      · exact .refl r

theorem entered_changes (t : SlotIx) (b : BoundaryIx) (bd : BoundaryDesc) (v stamp : Nat) :
    Changes true o true r (entered c t b bd v stamp r) := by
  unfold entered
  split
  · next x d hx hd =>
    dsimp only
    generalize hr1 : changeTrain c t x _ r = r1
    have h1 : Changes true o true r r1 := by
      subst hr1
      exact moveTrain_changes hx rfl rfl rfl rfl
    have h2 : Changes true o true r (if d.window v = .inWindow then r1 else setZoneFault c bd.down .speed r1) := by
      split
      · exact h1
      · exact h1.trans (setZoneFault_changes _ _ rfl)
    split
    · split
      · exact h2.trans (releaseGuard_changes t)
      · exact h2
    · exact h2
  · exact .refl r

theorem onNoseIn_changes (b : BoundaryIx) (bd : BoundaryDesc) (interval stamp : Nat) :
    Changes true o true r (onNoseIn c b bd interval stamp r) := by
  unfold onNoseIn
  split
  · exact unexpected_changes _
  · next t x h =>
    have hx := (matching_spec h).1
    split
    · exact loseTrain_changes hx
    · dsimp only
      split
      · exact (recordEntry_changes _ _).trans (loseTrain_changes ((recordEntry_train _ _ _).trans hx))
      · next h2 => exact ((recordEntry_changes _ _).trans (settleCrossing_changes h2)).trans (entered_changes t b bd _ stamp)

theorem clearBehind_changes (t : SlotIx) (b : BoundaryIx) (bd : BoundaryDesc) : Changes true o true r (clearBehind c t b bd r) := by
  unfold clearBehind
  split
  · exact (takeGuard_changes t _ b).trans (setClaimOf_changes t _ _)
  · exact (setClaimOf_changes t _ _).trans (setClaimOf_changes t _ _)

theorem onTailClear_changes (b : BoundaryIx) (bd : BoundaryDesc) (stamp : Nat) : Changes true o true r (onTailClear c b bd stamp r) := by
  unfold onTailClear
  split
  · exact unexpected_changes _
  · next t x h =>
    have h1 : Changes true o true r (closeElement c bd.up (clearBehind c t b bd r)) :=
      (clearBehind_changes t b bd).trans (closeElement_changes _)
    dsimp only
    split
    · exact h1
    · next y hy =>
      split
      · split
        · exact h1.trans (moveTrain_changes hy rfl rfl rfl rfl)
        · exact h1.trans (moveTrain_changes hy rfl rfl rfl rfl)
      · exact h1.trans (settleTrain_changes t _ _ stamp)
      · exact h1.trans (moveTrain_changes hy rfl rfl rfl rfl)

theorem rollBack_changes (t : SlotIx) (bd : BoundaryDesc) (head : ZoneIx) (tail : Option ZoneIx) (was : ZoneIx → Bool) :
    Changes true o q r (rollBack c t bd head tail was r) := by
  unfold rollBack
  split
  · exact .refl r
  · next x hx =>
    dsimp only
    generalize hr1 : changeTrain c t x _ r = r1
    have h1 : Changes true o q r r1 := by
      subst hr1
      exact moveTrain_changes hx rfl rfl rfl rfl
    have h3 := ((h1.trans (addHold_changes (c := c) head .rollback rfl)).trans (closeWhere_changes (c := c)
      (fun z => was z || (addHold c head .rollback r1).occupant? z == some t))).trans (raise_changes .rollback)
    split
    · exact h3
    · exact h3.trans (report_changes _)

theorem onRetreat_changes (bd : BoundaryDesc) (stamp : Nat) : Changes true o q r (onRetreat c bd stamp r) := by
  unfold onRetreat
  split
  · exact unexpected_changes _
  · next t x h =>
    split
    · exact loseTrain_changes (matching_spec h).1
    · exact (rollBack_changes t bd _ _ _).trans (settleTrain_changes t _ _ stamp)

theorem onNoseBack_changes (bd : BoundaryDesc) : Changes true o true r (onNoseBack c bd r) := by
  unfold onNoseBack
  split
  · exact unexpected_changes _
  · next t x h => exact ((setClaimOf_changes t _ _).trans (reinsert_changes t _)).trans (rollBack_changes t bd _ _ _)

theorem onBacking_changes (bd : BoundaryDesc) : Changes true o true r (onBacking c bd r) := by
  unfold onBacking
  split
  · exact unexpected_changes _
  · next t x h => exact ((setClaimOf_changes t _ _).trans (setClaimOf_changes t _ _)).trans (rollBack_changes t bd _ _ _)

theorem onReverseApproach_changes (b : BoundaryIx) (bd : BoundaryDesc) : Changes true o q r (onReverseApproach c b bd r) := by
  unfold onReverseApproach
  split
  · exact unexpected_changes _
  · next t x h =>
    have hx := (matching_spec h).1
    split
    · exact loseTrain_changes hx
    · refine Changes.trans (Changes.trans ?_ (closeWhere_changes _)) (raise_changes _)
      exact moveTrain_changes hx rfl rfl rfl rfl

theorem crossReverse_changes (t : SlotIx) (head : ZoneIx) (tail : Option ZoneIx) (dir : Direction) (speed : Option Nat) :
    Changes true o q r (crossReverse c t head tail dir speed r) := by
  unfold crossReverse
  split
  · exact .refl r
  · next x hx =>
    dsimp only
    generalize hr1 : changeTrain c t x _ r = r1
    have h1 : Changes true o q r r1 := by
      subst hr1
      exact moveTrain_changes hx rfl rfl rfl rfl
    split
    · exact h1
    · exact h1.trans (closeWhere_changes _)

theorem onReverseNoseIn_changes (b : BoundaryIx) (bd : BoundaryDesc) (interval : Nat) :
    Changes true o true r (onReverseNoseIn c b bd interval r) := by
  unfold onReverseNoseIn
  split
  · exact unexpected_changes _
  · next t x h =>
    have hx := (matching_spec h).1
    split
    · exact loseTrain_changes hx
    · dsimp only
      split
      · exact (recordEntry_changes _ _).trans (loseTrain_changes ((recordEntry_train _ _ _).trans hx))
      · next h2 =>
        exact (((recordEntry_changes _ _).trans (settleCrossing_changes h2)).trans (crossReverse_changes t _ _ _ _)).trans
          (addHold_changes _ _ rfl)

theorem onReverseNoseBack_changes (b : BoundaryIx) (bd : BoundaryDesc) : Changes true o true r (onReverseNoseBack c b bd r) := by
  unfold onReverseNoseBack
  split
  · exact unexpected_changes _
  · next t x h =>
    exact ((takeGuard_changes t _ b).trans (setClaimOf_changes t _ _)).trans (crossReverse_changes t _ _ _ _)

theorem onReverseBacking_changes (bd : BoundaryDesc) : Changes true o true r (onReverseBacking c bd r) := by
  unfold onReverseBacking
  split
  · exact unexpected_changes _
  · next t x h =>
    exact ((setClaimOf_changes t _ _).trans (setClaimOf_changes t _ _)).trans (crossReverse_changes t _ _ _ _)

theorem onReverseRetreat_changes (b : BoundaryIx) (bd : BoundaryDesc) (stamp : Nat) :
    Changes true o q r (onReverseRetreat c b bd stamp r) := by
  unfold onReverseRetreat
  split
  · exact unexpected_changes _
  · next t x h =>
    split
    · exact loseTrain_changes (matching_spec h).1
    · split
      · exact settleTrain_changes t _ _ stamp
      · exact .refl r

theorem onReverseTailClear_changes (bd : BoundaryDesc) (stamp : Nat) : Changes true o true r (onReverseTailClear c bd stamp r) := by
  unfold onReverseTailClear
  split
  · exact unexpected_changes _
  · next t x h =>
    have h1 : Changes true o true r (closeElement c bd.down (reinsert c t bd.down (setClaimOf c t bd.up (.occupied t) r))) :=
      ((setClaimOf_changes t _ _).trans (reinsert_changes t _)).trans (closeElement_changes _)
    dsimp only
    split
    · exact h1
    · next y hy =>
      split
      · exact h1.trans (settleTrain_changes t _ _ stamp)
      · exact h1.trans (moveTrain_changes hy rfl rfl rfl rfl)

theorem onBerth_changes (z : ZoneIx) : Changes true o q r (onBerth c z r) := by
  unfold onBerth
  split
  · exact .refl r
  · next t x h =>
    split
    · exact bringToRest_changes (matching_spec h).1
    · exact .refl r

theorem onStall_changes (bd : BoundaryDesc) (dir : Direction) : Changes true o q r (onStall c bd dir r) := by
  unfold onStall
  dsimp only
  split
  · exact unexpected_changes _
  · next t x h => exact makeOverdue_changes _ (matching_spec h).1

theorem onJourneyExpiry_changes (t : SlotIx) : Changes true o q r (onJourneyExpiry c t r) := by
  unfold onJourneyExpiry
  split
  · exact .refl r
  · next x hx =>
    split
    · split
      · exact makeOverdue_changes _ hx
      · exact .refl r
    · exact .refl r

theorem onStopExpiry_changes (t : SlotIx) : Changes true o q r (onStopExpiry c t r) := by
  unfold onStopExpiry
  split
  · exact .refl r
  · next x hx =>
    split
    · split
      · split
        · split
          · exact makeOverdue_changes _ hx
          · exact bringToRest_changes hx
        · exact makeOverdue_changes _ hx
        · exact .refl r
      · exact .refl r
    · exact .refl r

/-! ### The passage unit and the function inputs -/

theorem boundaryFaulted_changes (bd : BoundaryDesc) : Changes true o q r (boundaryFaulted c bd r) :=
  ((setZoneFault_changes _ _ rfl).trans (setZoneFault_changes _ _ rfl)).trans (report_changes _)

/-- What a boundary event does to the ride: small changes that open nothing (R85). -/
theorem handEvent_changes (b : BoundaryIx) (bd : BoundaryDesc) (stamp : Nat) (e : PassageEvent) :
    Changes true o true r (handEvent c b bd stamp e r) := by
  unfold handEvent
  split
  · exact onApproach_changes bd stamp
  · exact onRetreat_changes bd stamp
  · exact onNoseIn_changes b bd _ stamp
  · exact onNoseBack_changes bd
  · exact onBacking_changes bd
  · exact onTailClear_changes b bd stamp
  · exact onReverseApproach_changes b bd
  · exact onReverseRetreat_changes b bd stamp
  · exact onReverseNoseIn_changes b bd _
  · exact onReverseNoseBack_changes b bd
  · exact onReverseBacking_changes bd
  · exact onReverseTailClear_changes bd stamp
  · exact boundaryFaulted_changes bd

theorem proofInputChange_changes {w : Bool} (st : StationIx) (on : Bool) : Changes w o q r (proofInputChange c st on r) := by
  unfold proofInputChange
  split
  · split
    · exact stationEvent_changes st _
    · exact .refl r
  · exact stationEvent_changes st _

/-- What a function input's change does to the ride (R38, R143, R144, R146, R147). -/
theorem functionChange_changes (f : InputFunction) (on : Bool) : Changes true o q r (functionChange c f on r) := by
  unfold functionChange
  split
  · exact .refl r
  · split
    · exact report_changes _
    · exact .refl r
  · split
    · exact addHold_changes _ _ rfl
    · split
      · exact .refl r
      · exact removeHold_changes _ _ rfl
  · exact pairingChange_changes _ _ on
  · exact pairingChange_changes _ _ on
  · exact proofInputChange_changes _ on
  · exact proofInputChange_changes _ on

theorem inputFound_changes (i : InputIx) : Changes true o q r (inputFound c i r) := by
  unfold inputFound
  split
  · split
    · exact addHold_changes _ _ rfl
    · exact .refl r
  · split
    · exact report_changes _
    · exact .refl r
  · exact .refl r

theorem stationFound_changes {w : Bool} (st : StationIx) : Changes w o q r (stationFound c st r) := by
  unfold stationFound
  split
  · next x d hx hd =>
    have h1 : Changes w o q r (r.putStation st { x with pairing := pairingFound c d }) := .one (.station st x _ hx)
    dsimp only
    split
    · exact h1.trans (stationEvent_changes st _)
    · exact h1
  · exact .refl r

/-- What a proof line's change does to the ride (R110, R111, R129). -/
theorem proofTaken_changes {w : Bool} (line : ProofLine) : Changes w o q r (proofTaken c line r) := by
  unfold proofTaken
  split
  · exact brakeProofChange_changes _
  · split
    · exact switchProofChange_changes _ _ _
    · exact .refl r

end Sys2Proof.Machine
end

