-- ==== Sys2Proof/Laws/Keeps.lean ====
section
/-! SUPPORT. What the reconsideration at the end of a step leaves as it was, in the terms of the statements (`Ride.Keeps`), and
that it opens nothing and reserves nothing where the interlock is calm. -/

namespace Sys2Proof.Machine

variable {o q : Bool} {c : Ctx}

theorem Ride.Keeps.refl (a : Ride) : a.Keeps a := ⟨fun _ _ => rfl, fun _ => rfl, fun _ => rfl, fun _ => rfl, fun _ h => h, fun _ h => h⟩

theorem Ride.Keeps.trans {a b d : Ride} (h : a.Keeps b) (k : b.Keeps d) : a.Keeps d :=
  ⟨fun z src => (k.holds z src).trans (h.holds z src), fun z => (k.faults z).trans (h.faults z),
    fun z => (k.speeds z).trans (h.speeds z), fun t => (k.trains t).trans (h.trains t),
    fun cause e => k.causes cause (h.causes cause e), fun n e => k.notices n (h.notices n e)⟩

/-- Small changes that are not wide keep every hold source, zone fault and entry speed and every train's standing. -/
theorem Changes.keeps {a b : Ride} (h : Changes false o q a b) : a.Keeps b := by
  have zone : ∀ {α : Type} (f : ZoneRec → α) (g : BitVec 4 × Option ZoneFault × Option Nat → α) (z : ZoneIx),
      (∀ x, f x = g (x.holds, x.fault, x.entrySpeed)) → (b.zone? z).map f = (a.zone? z).map f := by
    intro α f g z hf
    have k := congrArg (Option.map g) (h.zone_kept z)
    simp only [Option.map_map] at k
    have e : (g ∘ fun x : ZoneRec => (x.holds, x.fault, x.entrySpeed)) = f := funext fun x => (hf x).symm
    rw [e] at k
    exact k
  refine ⟨fun z src => ?_, fun z => ?_, fun z => ?_, fun t => ?_, fun cause => h.causes_grow cause.bit, fun n => h.notices_grow n.bit⟩
  · have k := zone (fun x => x.holds? src) (fun p => p.1.getLsbD src.bit) z fun _ => rfl
    unfold Ride.held
    cases ha : a.zone? z <;> cases hb : b.zone? z <;> simp_all
  · have k := zone (fun x => x.fault) (fun p => p.2.1) z fun _ => rfl
    unfold Ride.zoneFault
    cases ha : a.zone? z <;> cases hb : b.zone? z <;> simp_all
  · have k := zone (fun x => x.entrySpeed) (fun p => p.2.2) z fun _ => rfl
    unfold Ride.entrySpeed
    cases ha : a.zone? z <;> cases hb : b.zone? z <;> simp_all
  · unfold Ride.standing
    cases ha : a.train? t with
    | none =>
      have := h.train_isSome t
      rw [ha] at this
      cases hb : b.train? t with
      | none => rfl
      | some y => rw [hb] at this; cases this
    | some x =>
      obtain ⟨y, hy, hl, h1, h2, h3, h4, h5, h6, h7, -⟩ := h.train_kept t x ha
      simp [hy, hl, h1, h2, h3, h4, h5, h6, h7]

/-- The end of a step leaves the claims that a train stands on, too. -/
theorem conclude_narrow {before after : Ride} : Changes false true false after (conclude c before after) :=
  conclude_changes (.inr rfl)

/-- What a step's own effect on the ride leaves stands through the end of the step. -/
theorem onRide_keeps (s : State) (f : Ctx → Ride → Ride) : (f s.ctx s.ride).Keeps (s.onRide f).ride := conclude_narrow.keeps

/-- With the ride stop latched, or in a mode other than AUTO, no train is eligible (R29). -/
theorem not_eligible {r : Ride} (h : c.mode ≠ .auto ∨ r.latched = true) (x : Train) : eligible c r x = false := by
  rcases h with h | h
  · simp [eligible, h]
  · simp [eligible, readyToReserve, h]

end Sys2Proof.Machine
end

