-- ==== Sys2Proof/Laws/Edges.lean ====
section
/-! SUPPORT. The edge that a boundary's line brings, as an effect on the ride alone; and trains and records through small changes. -/

namespace Sys2Proof.Machine

variable {o q : Bool} {c : Ctx}

theorem putTrain_same (r : Ride) (k : SlotIx) (x : Train) : (r.putTrain k x).train? k = some x := tget_tput_same _ _ _

theorem putTrain_other (r : Ride) (k j : SlotIx) (x : Train) (h : j ≠ k) : (r.putTrain k x).train? j = r.train? j :=
  tget_tput_other _ _ _ _ h

/-- What follows the replacement of a train's record reaches its station alone. -/
theorem changeTrain_narrow (c : Ctx) (t : SlotIx) (x y : Train) (r : Ride) :
    Changes false false false (r.putTrain t y) (changeTrain c t x y r) := by
  unfold changeTrain
  dsimp only
  have k : ∀ (p : Prop) [Decidable p] (a : Ride) z e, Changes false false false (r.putTrain t y) a →
      Changes false false false (r.putTrain t y) (if p then occupantStationEvent c t z e a else a) := by
    intro p _ a z e ha
    split
    · exact ha.trans (occupantStationEvent_changes t z e)
    · exact ha
  exact k _ _ _ _ (k _ _ _ _ (k _ _ _ _ (.refl _)))

/-- A train in a phase that only the track, the deadlines and the commands end keeps it through small changes that are not wide. -/
theorem Changes.train_still {a b : Ride} (h : Changes false o q a b) {k : SlotIx} {x : Train} (hx : a.train? k = some x)
    (hp : x.phase ≠ .held ∧ x.phase ≠ .stopping ∧ x.phase ≠ .running) :
    ∃ y, b.train? k = some y ∧ SamePlace x y ∧ y.label = x.label ∧ y.phase = x.phase ∧ y.deadline = x.deadline ∧
      y.dir = x.dir ∧ y.stepping = x.stepping := by
  obtain ⟨y, hy, hl, place⟩ := h.train_kept k x hx
  rcases place.2.2.2.2.2.2.2 with e | e | e | e
  · exact absurd e hp.1
  · exact absurd e hp.2.1
  · exact absurd e hp.2.2
  · exact ⟨y, hy, place, hl, e⟩

/-- The edge that is due is the one its event takes (R78, R79). -/
theorem State.EdgeDue.dueEdge {s : State} {dt : Nat} {line : SensorLine} {stamp : Nat} (h : s.EdgeDue dt line stamp) :
    dueEdge line (s.advance dt) = some stamp := by
  unfold Machine.dueEdge
  have h1 : (s.advance dt).sensors.phase = .running := h.running
  have h2 : (s.advance dt).sensors.change? line = some stamp := h.waiting
  have h3 : stamp + (s.advance dt).filterTime ≤ (s.advance dt).now := h.held
  have h4 : (s.advance dt).sensors.changes.all (fun p => decide (stamp ≤ p.2)) = true := by
    rw [List.all_eq_true]
    intro p hp
    simpa using h.oldest p hp
  rw [h1, h2]
  simp only [h3, h4, and_self, if_true]

/-- A boundary's event is handed to the train table, and the step concluded (R85). -/
theorem State.Reports.exec_ride {s : State} {dt : Nat} {line : SensorLine} {b : BoundaryIx} {d : BoundaryDesc} {stamp : Nat}
    {e : PassageEvent} (h : s.Reports dt line b d stamp e) :
    ∃ t, exec (.trackSensorEdge dt line) s = .next t ∧
      t.ride = conclude (s.advance dt).ctx s.ride (handEvent (s.advance dt).ctx b d stamp e s.ride) := by
  obtain ⟨sensor, x, hg, hb, he⟩ := h.gate
  refine ⟨_, rfl, ?_⟩
  simp only [takeDueEdge, h.due.dueEdge, produceEdge, takeEdge]
  rw [show (s.advance dt).map.gateOf line = _ from hg]
  simp only [takeGateEdge]
  rw [show tget (s.advance dt).bounds b = some x from hb]
  dsimp only
  rw [show (s.advance dt).sensors.covered = s.sensors.covered from rfl, he]
  rfl

end Sys2Proof.Machine
end

