-- ==== Sys2Proof/Laws/PerInstr.lean ====
section
/-! SUPPORT. One lemma for each constructor on the shape of its frame (Table 10-5): a step that is a frame has eight bytes, the
first the sync byte, the second its command code; a step that is no frame has none. -/

namespace Sys2Proof.Laws

/-- The frame of the step, where it has one, is eight bytes that begin with the sync byte and, for a command, its code. -/
def FrameCoding.Statement (i : Instr) : Prop :=
  ∀ bs, encodeFrame i = some bs → bs.length = 8 ∧ bs.head? = some Config.syncByte ∧
    ∀ code f, i.command = some (code, f) → bs[1]? = some code

/-- The frame of a command has that shape, whatever its code and fields. -/
theorem frame_of_command {i : Instr} {code : Byte} {f : Frame} (hc : i.command = some (code, f))
    (he : encodeFrame i = i.command.map fun cf => frameHead cf.1 cf.2 ++ [Machine.crc8 (frameHead cf.1 cf.2)]) :
    FrameCoding.Statement i := by
  intro bs h
  rw [he, hc] at h
  cases h
  refine ⟨rfl, rfl, fun code' f' k => ?_⟩
  rw [hc] at k
  cases k
  rfl

/-- A step that is no frame meets it with nothing to say. -/
theorem frame_of_none {i : Instr} (h : encodeFrame i = none) : FrameCoding.Statement i := by
  intro bs k
  rw [h] at k
  cases k

theorem FrameCoding.getCondition (dt : Nat) (f : Frame) : FrameCoding.Statement (.getCondition dt f) := frame_of_command rfl rfl
theorem FrameCoding.setMode (dt : Nat) (f : Frame) : FrameCoding.Statement (.setMode dt f) := frame_of_command rfl rfl
theorem FrameCoding.restart (dt : Nat) (f : Frame) : FrameCoding.Statement (.restart dt f) := frame_of_command rfl rfl
theorem FrameCoding.restartTakesEffect (dt : Nat) : FrameCoding.Statement (.restartTakesEffect dt) := frame_of_none rfl
theorem FrameCoding.storeMap (dt : Nat) (f : Frame) : FrameCoding.Statement (.storeMap dt f) := frame_of_command rfl rfl
theorem FrameCoding.storeComplete (dt : Nat) : FrameCoding.Statement (.storeComplete dt) := frame_of_none rfl
theorem FrameCoding.reloadMap (dt : Nat) (f : Frame) : FrameCoding.Statement (.reloadMap dt f) := frame_of_command rfl rfl
theorem FrameCoding.writeMapRecord (dt : Nat) (f : Frame) : FrameCoding.Statement (.writeMapRecord dt f) := frame_of_command rfl rfl
theorem FrameCoding.hostDataBlock (dt : Nat) (kind len : Byte) (body : List Byte) (crc : BitVec 16) : FrameCoding.Statement (.hostDataBlock dt kind len body crc) :=
  frame_of_none rfl
theorem FrameCoding.writeAbandoned (dt : Nat) : FrameCoding.Statement (.writeAbandoned dt) := frame_of_none rfl
theorem FrameCoding.readMapRecord (dt : Nat) (f : Frame) : FrameCoding.Statement (.readMapRecord dt f) := frame_of_command rfl rfl
theorem FrameCoding.checkMap (dt : Nat) (f : Frame) : FrameCoding.Statement (.checkMap dt f) := frame_of_command rfl rfl
theorem FrameCoding.readLive (dt : Nat) (f : Frame) : FrameCoding.Statement (.readLive dt f) := frame_of_command rfl rfl
theorem FrameCoding.streamLive (dt : Nat) (f : Frame) : FrameCoding.Statement (.streamLive dt f) := frame_of_command rfl rfl
theorem FrameCoding.streamBlock (dt : Nat) : FrameCoding.Statement (.streamBlock dt) := frame_of_none rfl
theorem FrameCoding.endOfStream (dt : Nat) : FrameCoding.Statement (.endOfStream dt) := frame_of_none rfl
theorem FrameCoding.streamCutOff (dt : Nat) : FrameCoding.Statement (.streamCutOff dt) := frame_of_none rfl
theorem FrameCoding.stopStream (dt : Nat) (f : Frame) : FrameCoding.Statement (.stopStream dt f) := frame_of_command rfl rfl
theorem FrameCoding.noticeBlockSent (dt : Nat) : FrameCoding.Statement (.noticeBlockSent dt) := frame_of_none rfl
theorem FrameCoding.admitTrain (dt : Nat) (f : Frame) : FrameCoding.Statement (.admitTrain dt f) := frame_of_command rfl rfl
theorem FrameCoding.retire (dt : Nat) (f : Frame) : FrameCoding.Statement (.retire dt f) := frame_of_command rfl rfl
theorem FrameCoding.stepTrain (dt : Nat) (f : Frame) : FrameCoding.Statement (.stepTrain dt f) := frame_of_command rfl rfl
theorem FrameCoding.direct (dt : Nat) (f : Frame) : FrameCoding.Statement (.direct dt f) := frame_of_command rfl rfl
theorem FrameCoding.hold (dt : Nat) (f : Frame) : FrameCoding.Statement (.hold dt f) := frame_of_command rfl rfl
theorem FrameCoding.releaseHold (dt : Nat) (f : Frame) : FrameCoding.Statement (.releaseHold dt f) := frame_of_command rfl rfl
theorem FrameCoding.selectFirst (dt : Nat) (f : Frame) : FrameCoding.Statement (.selectFirst dt f) := frame_of_command rfl rfl
theorem FrameCoding.selectLast (dt : Nat) (f : Frame) : FrameCoding.Statement (.selectLast dt f) := frame_of_command rfl rfl
theorem FrameCoding.deselect (dt : Nat) (f : Frame) : FrameCoding.Statement (.deselect dt f) := frame_of_command rfl rfl
theorem FrameCoding.applySelection (dt : Nat) (f : Frame) : FrameCoding.Statement (.applySelection dt f) := frame_of_command rfl rfl
theorem FrameCoding.rideStop (dt : Nat) (f : Frame) : FrameCoding.Statement (.rideStop dt f) := frame_of_command rfl rfl
theorem FrameCoding.resume (dt : Nat) (f : Frame) : FrameCoding.Statement (.resume dt f) := frame_of_command rfl rfl
theorem FrameCoding.clearFaultZone (dt : Nat) (f : Frame) : FrameCoding.Statement (.clearFaultZone dt f) := frame_of_command rfl rfl
theorem FrameCoding.clearFaultBoundary (dt : Nat) (obj : Byte) : FrameCoding.Statement (.clearFaultBoundary dt obj) :=
  frame_of_command rfl rfl
theorem FrameCoding.clearFaultElement (dt : Nat) (obj : Byte) : FrameCoding.Statement (.clearFaultElement dt obj) :=
  frame_of_command rfl rfl
theorem FrameCoding.clearFaultSwitch (dt : Nat) (obj : Byte) : FrameCoding.Statement (.clearFaultSwitch dt obj) :=
  frame_of_command rfl rfl
theorem FrameCoding.dispatch (dt : Nat) (f : Frame) : FrameCoding.Statement (.dispatch dt f) := frame_of_command rfl rfl
theorem FrameCoding.cancelDispatch (dt : Nat) (f : Frame) : FrameCoding.Statement (.cancelDispatch dt f) := frame_of_command rfl rfl
theorem FrameCoding.setRouteMode (dt : Nat) (f : Frame) : FrameCoding.Statement (.setRouteMode dt f) := frame_of_command rfl rfl
theorem FrameCoding.moveSwitch (dt : Nat) (f : Frame) : FrameCoding.Statement (.moveSwitch dt f) := frame_of_command rfl rfl
theorem FrameCoding.unknownCommand (dt : Nat) (code : Byte) (f : Frame) : FrameCoding.Statement (.unknownCommand dt code f) :=
  frame_of_command rfl rfl
theorem FrameCoding.commandFrameCheckFailed (dt : Nat) (code : Byte) (f : Frame) (check : Byte) : FrameCoding.Statement (.commandFrameCheckFailed dt code f check) := by
  intro bs h
  cases h
  exact ⟨rfl, rfl, fun _ _ k => nomatch k⟩
theorem FrameCoding.selectAsserted (dt : Nat) : FrameCoding.Statement (.selectAsserted dt) := frame_of_none rfl
theorem FrameCoding.selectReleased (dt : Nat) : FrameCoding.Statement (.selectReleased dt) := frame_of_none rfl
theorem FrameCoding.powerOn (dt : Nat) : FrameCoding.Statement (.powerOn dt) := frame_of_none rfl
theorem FrameCoding.powerFail (dt : Nat) : FrameCoding.Statement (.powerFail dt) := frame_of_none rfl
theorem FrameCoding.resetAsserted (dt : Nat) : FrameCoding.Statement (.resetAsserted dt) := frame_of_none rfl
theorem FrameCoding.load (dt : Nat) : FrameCoding.Statement (.load dt) := frame_of_none rfl
theorem FrameCoding.trackSensorRawChange (dt : Nat) (line : SensorLine) (high : Bool) : FrameCoding.Statement (.trackSensorRawChange dt line high) :=
  frame_of_none rfl
theorem FrameCoding.trackSensorEdge (dt : Nat) (line : SensorLine) : FrameCoding.Statement (.trackSensorEdge dt line) :=
  frame_of_none rfl
theorem FrameCoding.trackFilterStart (dt : Nat) : FrameCoding.Statement (.trackFilterStart dt) := frame_of_none rfl
theorem FrameCoding.gateStall (dt : Nat) (b : BoundaryIx) : FrameCoding.Statement (.gateStall dt b) := frame_of_none rfl
theorem FrameCoding.journeyDeadlineExpiry (dt : Nat) (t : SlotIx) : FrameCoding.Statement (.journeyDeadlineExpiry dt t) :=
  frame_of_none rfl
theorem FrameCoding.stopDeadlineExpiry (dt : Nat) (t : SlotIx) : FrameCoding.Statement (.stopDeadlineExpiry dt t) :=
  frame_of_none rfl
theorem FrameCoding.brakeProofChange (dt : Nat) (line : ProofLine) (high : Bool) : FrameCoding.Statement (.brakeProofChange dt line high) :=
  frame_of_none rfl
theorem FrameCoding.proofTimerExpiry (dt : Nat) (z : ZoneIx) : FrameCoding.Statement (.proofTimerExpiry dt z) := frame_of_none rfl
theorem FrameCoding.switchProofChange (dt : Nat) (line : ProofLine) (high : Bool) : FrameCoding.Statement (.switchProofChange dt line high) :=
  frame_of_none rfl
theorem FrameCoding.moveTimerExpiry (dt : Nat) (w : SwitchIx) : FrameCoding.Statement (.moveTimerExpiry dt w) := frame_of_none rfl
theorem FrameCoding.driveStep (dt : Nat) (ch : ChannelIx) : FrameCoding.Statement (.driveStep dt ch) := frame_of_none rfl
theorem FrameCoding.functionInputRawChange (dt : Nat) (i : InputIx) (high : Bool) : FrameCoding.Statement (.functionInputRawChange dt i high) :=
  frame_of_none rfl
theorem FrameCoding.functionInputChange (dt : Nat) (i : InputIx) : FrameCoding.Statement (.functionInputChange dt i) :=
  frame_of_none rfl
theorem FrameCoding.functionInputStart (dt : Nat) : FrameCoding.Statement (.functionInputStart dt) := frame_of_none rfl
theorem FrameCoding.pairWindowExpiry (dt : Nat) (st : StationIx) : FrameCoding.Statement (.pairWindowExpiry dt st) :=
  frame_of_none rfl
theorem FrameCoding.dispatchWaitExpiry (dt : Nat) (st : StationIx) : FrameCoding.Statement (.dispatchWaitExpiry dt st) :=
  frame_of_none rfl

end Sys2Proof.Laws
end

