-- ==== Sys2Proof/Tests/Slice0.lean ====
section
/-! SUPPORT. Tests. Expected values come from the spec: its worked tables, its check values, its encodings. The witnesses show, for
every statement with hypotheses, a concrete state and operands that meet them together, clause by clause. -/

open Sys2Proof Sys2Proof.Machine

namespace Sys2Proof.Tests

set_option Elab.async false

/-! ### Well-formedness: a term that each check refuses -/

def frameOf (obj : Nat) (arg : Nat := 0) : Frame := { obj := BitVec.ofNat 8 obj, arg := BitVec.ofNat 32 arg }

theorem wf_refuses_unknown_with_known_code : (Instr.unknownCommand 0 0x50#8 (frameOf 0)).wf = false := by decide +kernel
theorem wf_refuses_failed_check_that_holds :
    (Instr.commandFrameCheckFailed 0 0x50#8 (frameOf 0) (crc8 (frameHead 0x50#8 (frameOf 0)))).wf = false := by decide +kernel
theorem wf_refuses_block_of_other_length : (Instr.hostDataBlock 0 3#8 2#8 [1#8] 0#16).wf = false := by decide +kernel
theorem wf_refuses_block_body_where_none_is_taken : (Instr.hostDataBlock 0 3#8 65#8 [1#8] 0#16).wf = false := by decide +kernel
theorem wf_refuses_zone_class_with_argument_2 : (Instr.clearFaultZone 0 (frameOf 1 2)).wf = false := by decide +kernel
theorem wf_takes_zone_class_with_argument_9 : (Instr.clearFaultZone 0 (frameOf 1 9)).wf = true := by decide +kernel

/-! ### Check codes and encodings -/

/-- The catalogue check values of the three codes over the digits 1 to 9 (Tables 10-5, 10-9; R180). -/
theorem crc8_of_digits : crc8 [0x31, 0x32, 0x33, 0x34, 0x35, 0x36, 0x37, 0x38, 0x39] = 0xF4#8 := by decide +kernel
theorem crc16_of_digits : crc16 [0x31, 0x32, 0x33, 0x34, 0x35, 0x36, 0x37, 0x38, 0x39] = 0x29B1#16 := by decide +kernel
theorem crc32_of_digits : crc32 [0x31, 0x32, 0x33, 0x34, 0x35, 0x36, 0x37, 0x38, 0x39] = 0x0376E6E7#32 := by decide +kernel

/-- HOLD (0x40) of zone 7, byte by byte (Table 10-5). -/
theorem decodes_hold : decodeFrame 5 [0x96, 0x40, 7, 0, 0, 0, 0, crc8 [0x96, 0x40, 7, 0, 0, 0, 0]] =
    some (.hold 5 (frameOf 7)) := by decide +kernel
/-- CLEAR_FAULT (0x52) of switch 2, its class in the argument's last byte (R49). -/
theorem decodes_clear_fault : decodeFrame 0 [0x96, 0x52, 2, 0, 0, 0, 4, crc8 [0x96, 0x52, 2, 0, 0, 0, 4]] =
    some (.clearFaultSwitch 0 2#8) := by decide +kernel
theorem decodes_no_other_sync : decodeFrame 0 [0x95, 0x40, 7, 0, 0, 0, 0, crc8 [0x95, 0x40, 7, 0, 0, 0, 0]] = none := by decide +kernel
theorem table_rows_give_no_bits : decodeTableWord 32 0x96 = none := rfl

/-! ### Worked figures of the spec -/

/-- Table 5-1. -/
theorem speeds_of_table_5_1 :
    [1, 22888, 22889, 100000, 110000, 120000, 166666, 10000000, 16777215].map (crossingSpeed 1500) =
      [65535, 65535, 65533, 15000, 13636, 12500, 9000, 150, 89] := by decide +kernel
/-- Table 5-3: the crossing into Z7 at 12,500 mm/s. -/
theorem transit_of_table_5_3 :
    predictedTransit 86000 12500 = 6880 ∧ clampTo 2000 20000 (lateBound 6880 64 500) = 9100 ∧ earlyBound 6880 64 = 5160 := by
  decide +kernel
/-- Table 5-4: the glitched crossing, at 65,535 mm/s. -/
theorem transit_of_table_5_4 : crossingSpeed 1500 1 = 65535 ∧ predictedTransit 86000 65535 = 1313 := by decide +kernel

/-! ### A small circuit: a loop of five zones with a station, a diverge, a merge and a rollback sensor -/

def zoneAt (k : ZoneKind) (e : ElementDesc) (next : ZoneIx) (entry : BoundaryIx) : ZoneDesc :=
  { kind := k, element := e, succA := some next, succB := none, entryA := entry, entryB := none, switch := none, runA := 20000,
    runB := none, berth := none, minSpeed := 0, maxSpeed := 65535, transit := .timed, slack := 0, margin := 0, tmin := 100,
    tmax := 600000, release := 15000, stop := 8000, severity := .hold, station := none }

def smallZones : List ZoneDesc :=
  [{ zoneAt .run (.brake 0 1 800) 1 0 with succB := some 2, switch := some 0, runB := some 24000 },
   { zoneAt .station (.drive 0) 3 1 with berth := some 24, station := some 0 },
   { zoneAt .run (.brake 2 3 800) 3 2 with severity := .stop },
   { zoneAt .run (.brake 4 5 800) 4 3 with entryB := some 4, switch := some 1, runB := some 18000 },
   { zoneAt .run (.brake 6 7 800) 0 5 with transit := .predicted, slack := 64, margin := 500, minSpeed := 2000, maxSpeed := 20000 }]

def gateAt (up down : ZoneIx) (n : Nat) (rollback : Bool) : BoundaryDesc :=
  { up, down, uLine := Fin.ofNat 128 (2 * n), dLine := Fin.ofNat 128 (2 * n + 1), gate := 1500, rollback }

def smallGates : List BoundaryDesc :=
  [gateAt 4 0 0 false, gateAt 0 1 1 false, gateAt 0 2 2 false, gateAt 1 3 3 false, gateAt 2 3 4 false, gateAt 3 4 5 true]

def smallSwitches : List SwitchDesc :=
  [{ kind := .diverge .alternate, zone := 0, outA := 0, outB := 1, proofA := 16, proofB := 17, timeout := 4000 },
   { kind := .merge, zone := 3, outA := 2, outB := 3, proofA := 18, proofB := 19, timeout := 4000 }]

def inputOf (function : InputFunction) (filtered : Bool) : InputDesc := { function, activeHigh := true, filtered }

def smallInputs : List InputDesc :=
  [inputOf (.restraint 0) true, inputOf (.gate 0) true, inputOf (.dispatchA 0) true, inputOf (.dispatchB 0) true,
   inputOf .estop true, inputOf (.zoneHold 2) true, inputOf .estop false]

def smallStation : StationDesc :=
  { zone := 1, restraint := 0, gate := 1, dispatchA := 2, dispatchB := 3, authority := .either, pairWindow := 500,
    dispatchWait := 30000 }

def smallDrive : DriveDesc := { run := 1600, creep := 250, step := 20, stopStep := 1600, interval := 10, profile := .ramp }

def small : CircuitMap where
  zones := tgen fun i => smallZones[i.val]?
  boundaries := tgen fun i => smallGates[i.val]?
  switches := tgen fun i => smallSwitches[i.val]?
  stations := tgen fun i => if i = 0 then some smallStation else none
  drives := tgen fun i => if i = 0 then some smallDrive else none
  inputs := tgen fun i => smallInputs[i.val]?
  circuit := some { trainLength := 12000, filterTime := 5 }

/-- The small circuit passes validation (R16). -/
theorem small_is_valid : small.validate.outcome = .pass := by decide +kernel
/-- A vacant map fails check 0x01 of the circuit descriptor first (R16, R17). -/
theorem vacant_fails_first_check : CircuitMap.vacant.validate = Report.failing 7 0 0x01 := by decide +kernel

/-! ### States on it -/

/-- The records of the ride at rest: every zone CLEAR, every brake closed, the switches locked at A and at B. -/
def restRide : Ride :=
  { Ride.reset with
    causes := 0#11
    zones := tgen fun z => (small.zone z).map fun _ => ZoneRec.fresh
    elements := tgen fun z => match small.elementAt z with
      | .brake _ _ _ => some (.brake .closed .close)
      | .drive _ => some (.drive .closed .close)
      | .none => none
    channels := tgen fun ch => if ch = 0 then some { code := 0, target := 0, stepDue := none, zone := some 1 } else none
    switches := tgen fun w =>
      if w = 0 then some { pos := .locked .a, pending := none, committed := none, role := .diverge none .b }
      else if w = 1 then some { pos := .locked .b, pending := none, committed := none, role := .merge none none .idle .b }
      else none
    stations := tgen fun st => if st = 0 then some { state := .empty, pairing := .armed } else none }

/-- MAINTENANCE with the small circuit in use, in a transaction. -/
def base : State :=
  { State.reset with
    map := small
    mode := .maintenance
    now := 1000000
    sensors := { Sensors.reset with phase := .running }
    bounds := tgen fun b => (small.boundary b).map fun _ => { passage := .clear, stalled := false, lastInterval := none }
    inputs := { Inputs.reset with phase := .running }
    ride := restRide
    link := .awaitingFrame }

def atMode (m : Mode) (s : State) : State := { s with mode := m }
def latch (s : State) : State := { s with ride := s.ride.report .link }
def selecting (s : State) : State := { s with selection := some { first := 2, zones := [2] } }

def trainAt (phase : TrainPhase) (head : ZoneIx) : Train := { admittedTrain false head 7 with phase }

def claimAt (zc : ZoneIx × Claim) (s : State) : State :=
  { s with ride := match s.ride.zone? zc.1 with
      | some x => s.ride.putZone zc.1 { x with claim := zc.2 }
      | none => s.ride }

/-- A train in slot 0 with the claims given. -/
def withTrain (x : Train) (claims : List (ZoneIx × Claim)) (s : State) : State :=
  claims.foldl (fun s zc => claimAt zc s) { s with ride := s.ride.putTrain 0 x }

/-- A train HELD in zone 2. -/
def held2 : State := withTrain (trainAt .held 2) [(2, .occupied 0)] base

/-- A line's pending change, due now, at a boundary in a passage state. -/
def edgeAt (line : SensorLine) (covered : Bool) (b : BoundaryIx) (p : Passage) (s : State) : State :=
  { s with
    sensors := { s.sensors with covered := tput s.sensors.covered line covered, changes := [(line, 900000)] }
    bounds := tput s.bounds b (some { passage := p, stalled := false, lastInterval := none }) }

def withElement (z : ZoneIx) (e : Element) (s : State) : State := { s with ride := s.ride.putElement z e }
def withSwitch (w : SwitchIx) (x : SwitchRec) (s : State) : State := { s with ride := s.ride.putSwitch w x }
def withStation (x : StationRec) (s : State) : State := { s with ride := s.ride.putStation 0 x }
def faultZone (z : ZoneIx) (s : State) : State :=
  { s with ride := s.ride.putZone z { ZoneRec.fresh with fault := some .unexpected } }
def faultGate (b : BoundaryIx) (s : State) : State :=
  { s with bounds := tput s.bounds b (some { passage := .fault .reverseUnexpected, stalled := false, lastInterval := none }) }

/-! ### Steps, against the spec -/

/-- The state after a step. -/
def after (i : Instr) (s : State) : State :=
  match exec i s with
  | .next t => t
  | _ => s

/-- The bytes of the response or the acceptance byte that is prepared; how many bytes of 0xFF come first is free (log 23). -/
def answerOf (s : State) : List Byte :=
  match s.link with
  | .responding _ rest _ => rest
  | .accepting _ answer => [answer]
  | _ => []

/-- HOLD holds with source LINK (R41), and its answer shows MAINTENANCE and nothing else (Table 10-8). -/
theorem hold_holds : (after (.hold 0 (frameOf 2)) base).ride.held 2 .link = true ∧
    answerOf (after (.hold 0 (frameOf 2)) base) = responseFrame false .done 2#8 := by decide +kernel
/-- In CONFIG HOLD is refused with WRONG_MODE (R40). -/
theorem hold_refused_in_config :
    answerOf (after (.hold 0 (frameOf 2)) (atMode .config base)) = responseFrame false .wrongMode 1#8 := by decide +kernel
/-- RIDE_STOP latches with LINK and raises RIDE_STOP (R159, R162). -/
theorem ride_stop_latches : (after (.rideStop 0 (frameOf 0)) base).ride.causes = 4#11 ∧
    (after (.rideStop 0 (frameOf 0)) base).ride.notices = 1#12 := by decide +kernel
/-- ADMIT takes the lowest slot, HELD in its zone (R72). -/
theorem admit_takes_lowest_slot :
    (after (.admitTrain 0 (frameOf 2 255)) base).ride.train? 0 = some (admittedTrain false 2 255) := by decide +kernel
/-- A STEP reserves the merge zone ahead and opens the brake (R33, R74): the command output is asserted (R126). -/
theorem step_reserves : (after (.stepTrain 0 (frameOf 0)) held2).ride.claim? 3 = some (.reserved 0) ∧
    (after (.stepTrain 0 (frameOf 0)) held2).elementOutput 2 = true := by decide +kernel
/-- MOVE_SWITCH asserts the output of the position it moves toward alone (R108, R110). -/
theorem move_asserts_output : (after (.moveSwitch 0 (frameOf 0 1)) base).switchOutput 1 = true ∧
    (after (.moveSwitch 0 (frameOf 0 1)) base).switchOutput 0 = false := by decide +kernel
/-- A failed check answers CHECK_FAILED and raises CHECK_ERROR (R166). -/
theorem failed_check_answers :
    answerOf (after (.commandFrameCheckFailed 0 0x40#8 (frameOf 2) 0#8) base) = responseFrame false .checkFailed 10#8 := by decide +kernel

/-- The idle byte goes out with every byte of a frame in AWAITING_FRAME (Table 10-1): 0xFF, and 0x00 while a store is in progress. -/
theorem idle_byte_with_frame :
    (after (.hold 0 (frameOf 2)) base).dataOut = List.replicate 8 0xFF#8 ∧
    (after (.hold 0 (frameOf 2)) { base with storing := some small }).dataOut = List.replicate 8 0x00#8 := by decide +kernel
/-- The state after a byte of fill. -/
def clocked (s : State) : State :=
  match step s with
  | .next t => t
  | _ => s
/-- The notice block of RIDE_STOP alone: start, kind 0x30, its length, and the mode byte of MAINTENANCE first (Table 10-3); its snapshot
is taken as the start byte goes out, so that a notice raised after it stays (R170, R178). -/
theorem notice_block_snapshot :
    (clocked { latch base with link := .sending .notices }).dataOut = [0x6A#8] ∧
    (clocked { latch base with link := .sending (.begun [0x55#8] (.clearing 0#12)) }).ride.notices = (latch base).ride.notices ∧
    (clocked { latch base with link := .sending (.begun [0x55#8] (.clearing 1#12)) }).ride.notices = 0#12 := by decide +kernel

def demoDrive : DriveDesc := { run := 3000, creep := 400, step := 40, stopStep := 400, interval := 5, profile := .ramp }

/-- The last step of a RAMP from 3,000 by 400 is one of 200 (Table 7-6). -/
theorem ramp_ends_with_200 :
    (({ code := 200, target := 0, stepDue := some 0, zone := none } : Channel).stepped (stepSize demoDrive true true) 5).1.code = 0 ∧
    (({ code := 600, target := 0, stepDue := some 0, zone := none } : Channel).stepped (stepSize demoDrive true true) 5).1.code =
      200 := by decide +kernel

/-! ### Witnesses: for every statement with hypotheses, a concrete state and operands that meet them together, one for each clause,
at the bounds of a range where a clause has one -/

/-- A command frame is taken in the states used below. -/
theorem base_takes : base.takes := ⟨rfl, by decide⟩

/-! ### Witnesses: the queue, encodings, invariants -/

theorem witness_StepRunsFrontCommand : ({ base with pending := [.load 5, .powerFail 0] } : State).pending = .load 5 :: [.powerFail 0] :=
  rfl
theorem witness_EveryCommandEnds : State.reset.pending = [] := rfl
theorem witness_FrameRoundTrip :
    (Instr.admitTrain 5 (frameOf 255 255)).wf = true ∧ (∃ bs, encodeFrame (.admitTrain 5 (frameOf 255 255)) = some bs) ∧
    ∃ i, decodeFrame 5 [0x96, 0xFF, 0, 0, 0, 0, 0, 1] = some i := by
  refine ⟨by decide +kernel, ⟨_, rfl⟩, .commandFrameCheckFailed 5 0xFF#8 (frameOf 0) 1#8, ?_⟩
  decide +kernel
theorem witness_DescriptorRoundTrip :
    (smallZones.all (·.inRange)) = true ∧ (gateAt 0 1 1 false).inRange = true ∧
    ({ gateAt 0 1 1 true with gate := 200 } : BoundaryDesc).inRange = true ∧
    ({ gateAt 0 1 1 true with gate := 4000 } : BoundaryDesc).inRange = true ∧ (smallSwitches.all (·.inRange)) = true ∧
    smallStation.inRange = true ∧ smallDrive.inRange = true ∧
    ({ trainLength := 5000, filterTime := 0 } : CircuitDesc).inRange = true ∧
    ({ trainLength := 40000, filterTime := 20 } : CircuitDesc).inRange = true := by decide +kernel
theorem witness_DecodedDescriptorsEncode :
    (∃ d, decodeZone (encodeZone (zoneAt .run .none 1 0)) = some d) ∧ (∃ d, decodeBoundary (encodeBoundary (gateAt 0 1 1 true)) = some d) ∧
    (∃ d, decodeStation (encodeStation smallStation) = some d) ∧ (∃ d, decodeDrive (encodeDrive smallDrive) = some d) ∧
    (∃ d, decodeInput [5, 0, 1, 1] = some d) ∧ (∃ d, decodeSwitch [1, 0, 0, 1, 16, 17, 0x0F, 0xA0, 1] = some d) ∧
    ∃ d, decodeCircuit [0x2E, 0xE0, 5] = some d := by
  refine ⟨⟨zoneAt .run .none 1 0, ?_⟩, ⟨gateAt 0 1 1 true, ?_⟩, ⟨smallStation, ?_⟩, ⟨smallDrive, ?_⟩, ⟨inputOf (.restraint 0) true, ?_⟩,
    ⟨{ kind := .diverge .firstClear, zone := 0, outA := 0, outB := 1, proofA := 16, proofB := 17, timeout := 4000 }, ?_⟩,
    ⟨{ trainLength := 12000, filterTime := 5 }, ?_⟩⟩ <;> decide +kernel

/-- Every step ends in a next state. -/
theorem steps (c : Instr) (s : State) : ∃ t, step { s with pending := [c] } = .next t := by
  cases c <;> exact ⟨_, rfl⟩

theorem all_some {n : Nat} {α : Type} {f : Fin n → Option α} {p : α → Bool}
    (h : ((List.finRange n).all fun i => (f i).all p) = true) : ∀ i x, f i = some x → p x = true := by
  intro i x hx
  have := List.all_eq_true.mp h i (List.mem_finRange i)
  simpa [hx] using this

theorem small_inRange : small.inRange := by
  refine ⟨all_some ?_, all_some ?_, all_some ?_, all_some ?_, all_some ?_, ?_⟩
  iterate 5 decide +kernel
  intro d hd
  cases hd
  decide +kernel

/-- A store of the small circuit in progress. -/
def storing : State := { base with image := Image.written small, storing := some small }
theorem witness_MapsStayInRange :
    storing.mapsInRange ∧ ∃ t, step { storing with pending := [.storeComplete 1] } = .next t :=
  ⟨⟨small_inRange, small_inRange, fun _ h => by cases h; exact small_inRange⟩, steps (.storeComplete 1) _⟩
theorem witness_MapStaysPutAway :
    (atMode .config State.reset).putAwayInvariant ∧ (∃ t, step { atMode .config State.reset with pending := [.rideStop 0 (frameOf 0)] } = .next t) ∧
    base.putAwayInvariant := by
  refine ⟨fun _ => ?_, steps _ _, fun h => ?_⟩
  · unfold State.put
    decide +kernel
  · exact absurd h (by decide)
theorem records_of_train {s : State} {x : Train} (hx : x.inBounds)
    (h : (∀ t, s.ride.train? t = if t = 0 then some x else none) ∧ (∀ t, s.ride.presented? t = none) ∧
      ∀ z, s.ride.entrySpeed z = none) : s.recordsInvariant := by
  obtain ⟨ht, hp, hv⟩ := h
  refine ⟨fun t y hy => ?_, fun t u y w hy hw _ => ?_, fun t chain hc => ?_, fun z v hz => ?_⟩
  · rw [ht] at hy
    split at hy <;> cases hy
    exact hx
  · rw [ht] at hy hw
    split at hy <;> cases hy
    split at hw <;> cases hw
    simp_all
  · simp [hp t] at hc
  · simp [hv z] at hz
theorem trainAt_inBounds (ph : TrainPhase) (z : ZoneIx) (chain : List ZoneIx) (stepping : Bool) (h : chain.length ≤ 4) :
    ({ trainAt ph z with chain := chain, stepping := stepping } : Train).inBounds :=
  ⟨(by decide : 1 ≤ 7), (by decide : 7 ≤ 255), Nat.zero_le _, Nat.zero_le _, h, nofun⟩
theorem witness_RecordsStayInBounds :
    held2.recordsInvariant ∧ (∃ t, step { held2 with pending := [.stepTrain 0 (frameOf 0)] } = .next t) ∧
    ({ trainAt .held 2 with label := 255, early := 255, chain := [1, 2, 3, 4], lastSpeed := some 65535 } : Train).inBounds ∧
    ({ trainAt .held 2 with label := 1 } : Train).inBounds :=
  ⟨records_of_train (trainAt_inBounds .held 2 [] false (by decide)) (by decide +kernel), steps _ _,
    ⟨by decide, by decide, by decide, by decide, by decide, fun v h => by cases h; decide⟩,
    ⟨by decide, by decide, by decide, by decide, by decide, nofun⟩⟩
/-- A chain presented in AUTO for the train in slot 0. -/
def presenting : State := atMode .auto { held2 with ride := held2.ride.putPresented 0 (some [3]) }
theorem witness_PresentationsStayInAuto :
    presenting.presentationInvariant ∧ presenting.ride.presented? 0 = some [3] ∧
    ∃ t, step { presenting with pending := [.setMode 0 (frameOf 0 2)] } = .next t := by
  refine ⟨?_, by decide +kernel, steps _ _⟩
  have : ∀ t, presenting.ride.presented? t = if t = 0 then some [3] else none := by decide +kernel
  intro t chain h
  rw [this] at h
  split at h <;> cases h
  rename_i ht
  subst ht
  decide +kernel

/-! ### Rules of the whole machine -/

/-- In MAINTENANCE a train HELD in zone 2 has been stepped: the brake of its zone is opening. -/
def opening2 : State :=
  withElement 2 (.brake (.opening 2000000) .openRun)
    (withTrain { trainAt .held 2 with chain := [3], stepping := true } [(2, .occupied 0), (3, .reserved 0)] base)
/-- A claim of no zone but those of the chain of the train in slot 0. -/
def chainClaim (x : Train) (z : ZoneIx) : Option Claim → Bool
  | some (.reserved k) => k = 0 ∧ z ∈ x.chain
  | some (.guarded _) => false
  | _ => true
theorem claims_of_train {s : State} {x : Train}
    (h : (∀ t, s.ride.train? t = if t = 0 then some x else none) ∧ (∀ z, chainClaim x z (s.ride.claim? z) = true) ∧
      s.ride.occupant? x.head = some 0 ∧ x.tail = none ∧ s.map = small ∧ s.link = .awaitingFrame) : s.claimsInvariant := by
  obtain ⟨ht, hz, ho, hn, hm, hl⟩ := h
  refine ⟨fun z k hc => ?_, fun z k hc => ?_, fun k y hy _ => ?_, fun _ b d hd => ?_, fun ref hr => ?_⟩
  · have := hz z
    rw [hc] at this
    have := of_decide_eq_true this
    exact ⟨x, by simp [ht, this.1], this.2⟩
  · have := hz z
    rw [hc] at this
    cases this
  · rw [ht] at hy
    split at hy <;> cases hy
    rename_i hk _
    subst hk
    exact ⟨ho, fun z h => by rw [hn] at h; cases h⟩
  · have : ∀ b, ∀ d ∈ small.boundary b, d.up ≠ d.down := by decide +kernel
    exact this b d (by rw [← hm]; exact hd)
  · rw [hl] at hr
    cases hr
theorem held2_claims : held2.claimsInvariant := claims_of_train (x := trainAt .held 2) (by decide +kernel)
theorem opening2_claims : opening2.claimsInvariant :=
  claims_of_train (x := { trainAt .held 2 with chain := [3], stepping := true }) (by decide +kernel)
theorem witness_ClaimsAgree :
    opening2.claimsInvariant ∧ opening2.recordsInvariant ∧ opening2.ride.claim? 3 = some (.reserved 0) ∧
    ∃ t, step { opening2 with pending := [.hold 0 (frameOf 2)] } = .next t :=
  ⟨opening2_claims, records_of_train (trainAt_inBounds .held 2 [3] true (by decide)) (by decide +kernel), by decide +kernel, steps _ _⟩
/-- A train OVERDUE in zone 2 with a chain, a deadline and an early bound at the ends of their ranges. -/
def overdueTrain : Train :=
  { trainAt .overdue 2 with
    chain := [3], awaited := some .approach, deadline := some { kind := .journey, start := 0, duration := 600000, early := some 600000 } }
def overdue2 : State := withTrain overdueTrain [(2, .occupied 0), (3, .reserved 0)] base
/-- The rest of Table 3-1, with all that it is kept under. -/
theorem witness_RecordsStayInBounds_table :
    overdue2.mapsInRange ∧ overdue2.putAwayInvariant ∧ overdue2.recordsInvariant ∧ overdue2.claimsInvariant ∧ overdue2.tableInvariant ∧
    ∃ t, step { overdue2 with pending := [.hold 0 (frameOf 2)] } = .next t := by
  have ht : ∀ t, overdue2.ride.train? t = if t = 0 then some overdueTrain else none := by decide +kernel
  refine ⟨⟨small_inRange, ⟨?_, ?_, ?_, ?_, ?_, nofun⟩, nofun⟩, fun h => absurd h (by decide),
    records_of_train (x := overdueTrain) ⟨by decide, by decide, by decide, by decide, by decide, nofun⟩ (by decide +kernel),
    claims_of_train (x := overdueTrain) (by decide +kernel), ⟨?_, ?_, ?_, by decide +kernel, ?_, fun _ => by decide +kernel⟩, steps _ _⟩
  iterate 5 exact all_some (by decide +kernel)
  · intro k x dl hx hd
    rw [ht] at hx
    split at hx <;> cases hx
    cases hd
    exact ⟨by decide, fun e he => by cases he; decide, nofun⟩
  · intro k x hx
    rw [ht] at hx
    split at hx <;> cases hx
    decide
  · intro k x hx
    rw [ht] at hx
    split at hx <;> cases hx
    rename_i hk
    subst hk
    decide +kernel
  · intro k chain hc
    have : ∀ k, overdue2.ride.presented? k = none := by decide +kernel
    simp [this k] at hc
theorem held2_brakes : held2.brakesInvariant := by
  have : ∀ z, held2.elementOutput z = false := by decide +kernel
  exact fun z h => by simp [this z] at h
theorem witness_BrakesStayShut :
    opening2.brakesInvariant ∧ opening2.elementOutput 2 = true ∧
    ∃ t, step { opening2 with pending := [.rideStop 0 (frameOf 0)] } = .next t := by
  refine ⟨?_, by decide +kernel, steps _ _⟩
  have h : ∀ z, opening2.elementOutput z = decide (z = 2) := by decide +kernel
  intro z hz
  rw [h] at hz
  obtain rfl := of_decide_eq_true hz
  exact ⟨fun src => by cases src <;> decide +kernel, by decide +kernel, by decide +kernel⟩
theorem witness_BrakesOpenOnlyWhenAllowed :
    ((latch base).ride.latched = true ∧ (∃ t, exec (.hold 0 (frameOf 2)) (latch base) = .next t ∧ t.ride.latched = true) ∧
      (latch base).elementOutput 2 = false) ∧
    (held2.claimsInvariant ∧ held2.brakesInvariant ∧ held2.elementOutput 2 = false ∧
      ∃ t, exec (.stepTrain 0 (frameOf 0)) held2 = .next t ∧ t.elementOutput 2 = true) ∧
    opening2.claimsInvariant ∧ (opening2.ride.occupant? 2).isSome = true ∧
    ∃ t, exec (.retire 0 (frameOf 0)) opening2 = .next t ∧ t.ride.occupant? 2 = none ∧ ∀ k, t.ride.claim? 2 ≠ some (.guarded k) :=
  ⟨⟨by decide +kernel, ⟨_, rfl, by decide +kernel⟩, by decide +kernel⟩,
    ⟨held2_claims, held2_brakes, by decide +kernel, _, rfl, by decide +kernel⟩, opening2_claims, by decide +kernel, _, rfl,
    by decide +kernel, by decide +kernel⟩
theorem witness_LatchingStopsTheRide :
    base.ride.latched = false ∧ ∃ t, exec (.rideStop 0 (frameOf 0)) base = .next t ∧ t.ride.latched = true :=
  ⟨by decide +kernel, _, rfl, by decide +kernel⟩
theorem witness_NoticesAndCausesStay :
    (∃ t, exec (.hold 0 (frameOf 2)) (latch base) = .next t) ∧ (latch base).resetBy (.hold 0 (frameOf 2)) = false ∧
    (latch base).ride.notice? .rideStop = true ∧ (latch base).ride.cause? .link = true := ⟨⟨_, rfl⟩, rfl, rfl, rfl⟩
/-- Zone 2 held by every source. -/
def heldByAll : State := { base with ride := base.ride.putZone 2 { ZoneRec.fresh with holds := 15#4 } }
theorem witness_HoldSourcesStay :
    (∃ t, exec (.hold 0 (frameOf 2)) heldByAll = .next t) ∧ heldByAll.resetBy (.hold 0 (frameOf 2)) = false ∧
    takesUp (.hold 0 (frameOf 2)) = false ∧ ∀ src, heldByAll.ride.held 2 src = true := by
  refine ⟨⟨_, rfl⟩, rfl, rfl, ?_⟩
  intro src
  cases src <;> decide +kernel
theorem witness_FaultsStay :
    (faultZone 2 base).ride.zoneFault 2 = some .unexpected ∧
    (∃ x, tget (faultGate 3 base).bounds 3 = some x ∧ x.passage = .fault .reverseUnexpected) ∧
    (withElement 2 (.brake (.fault .proofLost) .close) base).ride.element? 2 = some (.brake (.fault .proofLost) .close) ∧
    (∃ x, (withSwitch 0 { pos := .fault .noPosition, pending := none, committed := none, role := .diverge none .b } base).ride.switch? 0 =
      some x ∧ x.pos = .fault .noPosition) ∧
    (∀ s : State, ∃ t, exec (.hold 0 (frameOf 2)) s = .next t) ∧
    (∃ dt f, Instr.setMode 0 (frameOf 0 3) = .setMode dt f) ∧ (faultZone 2 base).mode = .maintenance ∧
    (faultZone 2 base).resetBy (.setMode 0 (frameOf 0 3)) = false ∧
    ∃ t, exec (.setMode 0 (frameOf 0 3)) (faultZone 2 base) = .next t ∧ t.mode ≠ .config :=
  ⟨by decide +kernel, ⟨_, rfl, rfl⟩, by decide +kernel, ⟨_, rfl, rfl⟩, fun _ => ⟨_, rfl⟩, ⟨_, _, rfl⟩, rfl, rfl, _, rfl, by decide +kernel⟩
theorem witness_ModeImageMapChangeOnlyBy :
    (after (.setMode 0 (frameOf 0 3)) base).mode ≠ base.mode ∧
    (after (.storeComplete 0) { base with storing := some small }).image.condition ≠ base.image.condition ∧
    (after (.setRouteMode 0 (frameOf 0 1)) base).map.switch 0 ≠ base.map.switch 0 ∧ base.mode = .maintenance ∧
    (∀ i ref, base.link.heard.2 ≠ .awaitingBlock ref ∧ (i = .hold 0 (frameOf 2) → base.resetBy i = false)) ∧
    base.map.switch 3 = none ∧ ∃ d, base.map.switch 1 = some d :=
  ⟨by decide +kernel, by decide +kernel, by decide +kernel, rfl, fun _ _ => ⟨nofun, fun h => h ▸ rfl⟩, by decide +kernel, _, rfl⟩
theorem witness_SlotsChangeOnlyBy :
    held2.ride.train? 1 = none ∧ held2.ride.train? 0 = some (trainAt .held 2) ∧ takesUp (.hold 0 (frameOf 2)) = false ∧
    held2.resetBy (.hold 0 (frameOf 2)) = false ∧ ∃ t, exec (.hold 0 (frameOf 2)) held2 = .next t :=
  ⟨by decide +kernel, by decide +kernel, rfl, rfl, _, rfl⟩
theorem witness_CommandsMoveNoTrain :
    (Instr.stepTrain 0 (frameOf 0)).command.isSome = true ∧ takesUp (.stepTrain 0 (frameOf 0)) = false ∧
    held2.resetBy (.stepTrain 0 (frameOf 0)) = false ∧ (held2.ride.train? 0).isSome = true ∧
    ∃ t, exec (.stepTrain 0 (frameOf 0)) held2 = .next t := ⟨rfl, rfl, rfl, by decide +kernel, _, rfl⟩
theorem witness_SelectionIsDiscarded :
    (∀ i ∈ [Instr.hold 0 (frameOf 2), .setMode 0 (frameOf 0 9), .selectFirst 0 (frameOf 1), .applySelection 0 (frameOf 0 1)],
      i.wf = true ∧ i.command.isSome = true) ∧
    (selecting base).link.takesFrame.isSome = true ∧ (selecting base).selection.isSome = true ∧
    keepsSelection (.hold 0 (frameOf 2)) = false ∧ keepsSelection (.selectFirst 0 (frameOf 1)) = true ∧
    ∀ i, ∃ t, exec i (selecting base) = .next t := by
  refine ⟨by decide +kernel, rfl, rfl, rfl, rfl, fun i => ?_⟩
  cases i <;> exact ⟨_, rfl⟩
theorem witness_CommandsTurnedAway :
    (Instr.hold 0 (frameOf 2)).wf = true ∧ (Instr.hold 0 (frameOf 2)).command.isSome = true ∧
    (Link.sending (.stream .zone 0)).takesFrame = some true ∧ (Link.receivingFrame true).takesFrame = some true ∧
    (Link.sending .notices).takesFrame = some false ∧ (Link.accepting 7 0xA1#8).takesFrame = some false ∧
    State.reset.mode = .loading ∧ Link.awaitingFrame.takesFrame = some false ∧ Link.released.takesFrame = none ∧
    (Link.responding 0 [0#8] .restart).takesFrame = none := by decide +kernel
/-! ### The link unit's own commands -/

/-- The small circuit's machine at a point of the exchange. -/
def atLink (l : Link) : State := { base with link := l }
theorem witness_ReadsSendBlocks :
    base.link.takesFrame = some false ∧ (atLink (.sending .notices)).link.heard.2 = .sending .notices ∧
    (atLink (.responding 7 [0#8] (.send .notices))).link.heard.2 = .sending .notices ∧
    (atLink (.sending (.begun [1#8] (.clearing 0xFFF#12)))).link.heard.2 = .sending (.begun [1#8] (.clearing 0xFFF#12)) ∧
    base.takes ∧ liveKindOf (frameOf 2 0x21).arg.toNat = some .zone ∧ (base.liveBody .zone 2).isSome = true ∧
    liveKindOf (frameOf 0 0x28).arg.toNat = some .inputs ∧ (base.liveBody .inputs 0).isSome = true ∧
    (mapObjectOf (frameOf 47 1).arg.toNat (frameOf 47 1).obj.toNat).isSome = true ∧
    (mapObjectOf (frameOf 0 8).arg.toNat (frameOf 0 8).obj.toNat).isSome = true :=
  ⟨rfl, rfl, rfl, rfl, base_takes, by decide +kernel⟩
/-- READ_LIVE of no live kind, and of an index without a record: above the zones, a vacant slot, and a map not in use. -/
theorem witness_ReadsSendBlocks_refused :
    base.takes ∧ (∀ n ∈ [0, 0x1F, 0x20, 0x29, 0x30, 0x121], liveKindOf (frameOf 0 n).arg.toNat = none) ∧
    liveKindOf (frameOf 48 0x21).arg.toNat = some .zone ∧ base.liveBody .zone (frameOf 48 0x21).obj.toNat = none ∧
    liveKindOf (frameOf 15 0x22).arg.toNat = some .train ∧ base.liveBody .train (frameOf 15 0x22).obj.toNat = none ∧
    (atMode .config State.reset).liveBody .inputs 0 = none := by
  refine ⟨base_takes, by decide +kernel, by decide +kernel, by decide +kernel, by decide +kernel, by decide +kernel, by decide +kernel⟩
/-- The records of the small circuit that the live kinds show: one of each is there. -/
theorem witness_ReadsSendBlocks_records :
    (base.ride.zone? 4).isSome = true ∧ (held2.ride.train? 0).isSome = true ∧ (small.boundary 5).isSome = true ∧
    (tget base.bounds 5).isSome = true ∧ (small.switch 1).isSome = true ∧ (base.ride.switch? 1).isSome = true ∧
    (small.zone 0).isSome = true ∧ base.ride.element? 0 = some (.brake .closed .close) ∧ base.ride.element? 1 = some (.drive .closed .close) ∧
    (base.ride.channel? 0).isSome = true ∧ (small.station 0).isSome = true ∧ (base.ride.station? 0).isSome = true ∧
    base.mode = .maintenance := by decide +kernel
/-- A merge with a request on side B alone, from slot 1, reads 241; with slots 0 and 1, it reads 1 (section 6.6). -/
theorem test_waiting_trains : waitingByte none (some 1) = 241#8 ∧ waitingByte (some 0) (some 1) = 1#8 ∧ waitingByte none none = 255#8 := by
  decide
/-- 110,000 µs reads as 430 units of 256 µs, and the saturated interval as 65,535 (section 4.6). -/
theorem test_interval_units : intervalUnits (some 110000) = 430 ∧ intervalUnits (some 16777215) = 65535 := by decide
theorem witness_StreamsSendRecords :
    base.takes ∧ liveKindOf (frameOf 0 0x24).arg.toNat = some .switch ∧ (base.liveBody .switch 0).isSome = true ∧
    (base.liveBody .station 0).isSome = true ∧ (∀ j, 2 ≤ j → j < 52 → base.liveBody .switch j = none) ∧
    (∀ what ∈ [Sending.stream .switch 1, .begun [] (.streaming .switch 1), .begun [1#8] (.streaming .switch 1), .begun [1#8, 2#8] .single,
        .begun [1#8] (.clearing 5#12), .notices, .mapRecord .report, .live .switch 0],
      (atLink (.sending what)).link.heard = ([], .sending what) ∧
      (atLink (.responding 1 [7#8] (.send what))).link.heard = ([0xFF#8, 7#8], .sending what)) ∧ base.mode ≠ .loading := by
  refine ⟨base_takes, by decide +kernel, by decide +kernel, by decide +kernel, ?_, fun _ _ => ⟨rfl, rfl⟩, by decide⟩
  have : ∀ j : Fin 52, 2 ≤ j.val → base.liveBody .switch j.val = none := by decide +kernel
  exact fun j h2 h => this ⟨j, h⟩ h2
/-- A 0x96 as the end-of-stream byte goes out, and as a block's start byte does. -/
theorem witness_StreamsSendRecords_cut : base.nextLive .switch 2 = none ∧ (base.nextLive .switch 1).isSome = true := by decide +kernel
theorem witness_FramesAndSelect :
    (Instr.unknownCommand 0 0x7F#8 (frameOf 0)).wf = true ∧ (Instr.commandFrameCheckFailed 0 0x40#8 (frameOf 2) 0#8).wf = true ∧
    base.link.takesFrame = some false ∧ ({ State.reset with link := .awaitingFrame } : State).link.takesFrame = some false ∧
    State.reset.link = .released ∧ State.reset.powered = true ∧ base.link.restartDue = false := by
  decide +kernel
/-- Every clause of the bytes clocked: a state of Table 10-1 each, with one byte left and with more. -/
theorem witness_BytesClocked :
    base.pending = [] ∧ State.reset.link = .released ∧ (base.opening .notices).1.length > 1 ∧
    (base.opening (.begun [7#8] .single)) = ([7#8], .single) ∧
    base.opening (.stream .switch 2) = ([0x5F#8], .single) ∧ (∃ b rest after, base.opening (.live .zone 0) = (b :: rest, after) ∧ rest ≠ []) ∧
    base.opening (.begun [7#8] (.streaming .zone 3)) = ([7#8], .streaming .zone 3) ∧
    base.opening (.begun [7#8] (.clearing 1#12)) = ([7#8], .clearing 1#12) ∧
    (List.replicate 7 0xFF#8 ++ [1#8, 2#8, 3#8])[9]? = some 3#8 ∧ (List.replicate 7 0xFF#8 ++ [1#8, 2#8, 3#8])[6]? = some 0xFF#8 :=
  ⟨rfl, rfl, by decide +kernel, rfl, by decide +kernel, ⟨_, _, _, rfl, by decide +kernel⟩, rfl, rfl, rfl, rfl⟩
/-- The last byte of a RESTART's response takes effect in the step that sends it. -/
theorem clocked_restart_resets : (clocked (atLink (.responding 0 [0#8] .restart))).mode = .loading := by decide +kernel
theorem witness_FramesAreClocked :
    (Instr.hold 0 (frameOf 2)).wf = true ∧ (Instr.hold 0 (frameOf 2)).command.isSome = true ∧
    (∀ l ∈ [Link.awaitingFrame, .awaitingBlock (.zone 2), .receivingFrame true, .sending (.live .zone 2), .sending (.mapRecord (.slot (.zone 2))),
        .sending (.mapRecord .report), .sending (.begun [1#8] .single), .sending .notices, .sending (.begun [1#8] (.clearing 0#12)),
        .sending (.stream .zone 4), .sending (.stream .zone 5), .responding 7 [1#8] .nothing, .responding 0 [1#8] (.send .notices), .responding 0 [1#8] (.awaitBlock (.zone 2)), .accepting 7 0xA1#8],
      l.takesFrame.isSome = true ∧ ∃ t, exec (.hold 0 (frameOf 2)) (atLink l) = .next t) ∧
    (base.liveBody .zone 2).isSome = true ∧ (base.nextLive .zone 4).isSome = true ∧ base.nextLive .zone 5 = none := by
  refine ⟨rfl, rfl, fun l hl => ⟨?_, ⟨_, rfl⟩⟩, by decide +kernel⟩
  revert l
  decide +kernel

/-! ### The map store -/

theorem witness_CheckMap : base.link.takesFrame = some false ∧ base.mode ≠ .loading ∧
    ({ State.reset with link := .awaitingFrame } : State).link.takesFrame = some false ∧ State.reset.mode = .loading := by
  decide +kernel
/-- CONFIG with the small circuit in the map store. -/
def configured : State := { atMode .config State.reset with map := small, link := .awaitingFrame }
theorem witness_ValidationChecks : small.validate.outcome = .pass ∧ CircuitMap.vacant.validate.outcome ≠ .pass :=
  ⟨small_is_valid, by decide +kernel⟩
/-- Each group of checks can be the one that fails (R16). -/
theorem validation_fails_by_group :
    ({ small with zones := tput small.zones 4 (some { zoneAt .run .none 0 5 with runA := 11999 }) } : CircuitMap).validate.group = 1 ∧
    ({ small with boundaries := tput small.boundaries 5 (some { gateAt 3 4 5 true with gate := 12000 }) } : CircuitMap).validate.group = 2 ∧
    ({ small with switches := tput small.switches 1 ((small.switch 1).map fun d => { d with outB := d.outA }) } :
      CircuitMap).validate.group = 3 ∧
    ({ small with stations := tput small.stations 0 (some { smallStation with gate := 2 }) } : CircuitMap).validate.group = 4 ∧
    ({ small with zones := tput small.zones 4 ((small.zone 4).map fun d => { d with element := .drive 0 }) } :
      CircuitMap).validate = Report.failing 5 0 0x50 ∧
    ({ small with inputs := tput small.inputs 5 (some (inputOf (.zoneHold 40) true)) } : CircuitMap).validate.group = 6 := by decide +kernel
theorem witness_WritesReplaceSlots :
    configured.takes ∧ configured.storing = none ∧ configured.mode = .config ∧ slotOf 1 47 = some (.zone 47) ∧
    (∀ k ∈ [1, 2, 64], (Instr.hostDataBlock 0 4#8 (byteOf k) (List.replicate k 0#8) (crc16 (4#8 :: byteOf k :: List.replicate k 0#8))).wf
      = true) ∧
    (∀ k ∈ [0, 65], (Instr.hostDataBlock 0 4#8 (byteOf k) [] 0#16).wf = true) ∧
    (∃ m, small.write (.zone 2) 1 (encodeZone (zoneAt .run .none 3 2)) = some m) ∧ (∃ m, small.write (.switch 3) 3 [0] = some m) ∧
    small.write (.zone 2) 3 [0] = none ∧ small.write (.zone 2) 1 [1] = none ∧
    (SlotRef.zone 2).spelled (encodeZone (zoneAt .run .none 3 2)) = true ∧
    ({ configured with link := .awaitingBlock (.zone 2) } : State).link.heard.2 = .awaitingBlock (.zone 2) ∧
    ({ configured with link := .responding 3 [0#8] (.awaitBlock (.zone 2)) } : State).link.heard.2 = .awaitingBlock (.zone 2) := by
  refine ⟨⟨rfl, by decide⟩, rfl, rfl, by decide +kernel, by decide +kernel, by decide +kernel,
    Option.isSome_iff_exists.mp (by decide +kernel), Option.isSome_iff_exists.mp (by decide +kernel), by decide +kernel, by decide +kernel,
    by decide +kernel, rfl, rfl⟩
theorem written_sound (m : CircuitMap) : (Image.written m).sound = true := by simp [Image.sound, Image.written]
theorem witness_StoresAndReloads :
    base.takes ∧ base.storing = none ∧ base.mode ≠ .auto ∧ base.map.validate.outcome = .pass ∧
    CircuitMap.vacant.validate.outcome ≠ .pass ∧ ({ base with storing := some small } : State).storing = some small ∧
    configured.link.takesFrame = some false ∧ configured.storing = none ∧ configured.mode = .config ∧ configured.image.sound = false ∧
    ({ configured with image := Image.written small } : State).image.sound = true :=
  ⟨base_takes, rfl, by decide, small_is_valid, by decide +kernel, rfl, rfl, rfl, rfl, rfl, written_sound small⟩

/-! ### Start-up and modes -/

theorem witness_ResetsDiscardLiveState :
    base.takes ∧ base.storing = none ∧ base.mode ≠ .auto ∧
    ({ atLink (.responding 2 [0#8, 2#8] .restart) with storing := some small } : State).resetBy (.restartTakesEffect 0) = true ∧
    (atLink (.responding 0 [0#8] .restart)).resetBy (.selectReleased 0) = true ∧
    ({ base with powered := false } : State).resetBy (.powerOn 0) = true ∧ base.resetBy (.powerFail 0) = true ∧
    base.resetBy (.resetAsserted 0) = true := ⟨base_takes, rfl, by decide, rfl, rfl, rfl, rfl, rfl⟩
theorem witness_LoadAndTakeUp :
    (latch base).ride.latched = true ∧ (small.drive 0).isSome = true ∧
    (∃ d, small.switch 0 = some d) ∧ (small.station 0).isSome = true ∧ (latch base).ride.cause? .link = true ∧
    State.reset.powered = true ∧ State.reset.mode = .loading ∧ State.reset.image.sound = false ∧
    (Image.written small).sound = true ∧ (Image.written small).content.validate.outcome = .pass ∧
    (Image.written CircuitMap.vacant).sound = true ∧ (Image.written CircuitMap.vacant).content.validate.outcome ≠ .pass :=
  ⟨by decide +kernel, by decide +kernel, ⟨_, rfl⟩, by decide +kernel, by decide +kernel, rfl, rfl, rfl, written_sound _, small_is_valid,
    written_sound _, by decide +kernel⟩
/-- A brake at each pattern of its proofs, a drive, and a switch with both proofs at one level, as a map is taken up. -/
theorem witness_LoadAndTakeUp_elements :
    (∀ o c : Bool, ({ latch base with proofs := tput (tput base.proofs 2 o) 3 c } : State).ride.latched = true ∧
      tget (tput (tput base.proofs 2 o) 3 c) 2 = o ∧ tget (tput (tput base.proofs 2 o) 3 c) 3 = c) ∧
    (∃ d, small.zone 2 = some d ∧ d.element = .brake 2 3 800) ∧ (∃ d, small.zone 1 = some d ∧ d.element = .drive 0) ∧
    ∃ d, small.switch 0 = some d ∧ tget base.proofs d.proofA = tget base.proofs d.proofB :=
  ⟨by decide +kernel, ⟨_, rfl, rfl⟩, ⟨_, rfl, rfl⟩, _, rfl, by decide +kernel⟩
theorem witness_SetModeChangesMode :
    base.takes ∧ configured.takes ∧ (atMode .auto base).takes ∧ base.storing = none ∧ modeOf 1 = some .config ∧
    modeOf 2 = some .maintenance ∧ modeOf 3 = some .auto ∧ configured.map.validate.outcome = .pass ∧
    CircuitMap.vacant.validate.outcome ≠ .pass ∧ base.ride.trainCount = 0 ∧ held2.ride.trainCount ≠ 0 :=
  ⟨base_takes, ⟨rfl, by decide⟩, ⟨rfl, by decide⟩, rfl, rfl, rfl, rfl, small_is_valid, by decide +kernel, by decide +kernel, by decide +kernel⟩
theorem witness_StopAndResume :
    base.takes ∧ (latch base).takes ∧ (latch base).mode ≠ .config ∧ (latch base).ride.latched = true ∧
    (latch base).resumeBarred = false ∧ base.ride.latched = false ∧
    (latch { base with inputs := { base.inputs with filtered := tput base.inputs.filtered 4 true } }).ctx.estopActive = true ∧
    (latch (faultZone 2 base)).ride.zoneFault 2 ≠ none ∧
    (∃ x, tget (latch (faultGate 3 base)).bounds 3 = some x ∧ x.passage = .fault .reverseUnexpected) ∧
    (latch (withElement 2 (.brake (.fault .proofLost) .close) base)).ride.element? 2 = some (.brake (.fault .proofLost) .close) ∧
    (∃ x, (latch (withTrain (trainAt .lost 2) [] base)).ride.train? 0 = some x ∧ x.phase = .lost) ∧
    ({ latch base with sensors := Sensors.reset } : State).sensors.phase ≠ .running := by
  refine ⟨base_takes, ⟨rfl, by decide⟩, by decide, by decide +kernel, by decide +kernel, by decide +kernel, by decide +kernel,
    by decide +kernel, ⟨_, rfl, rfl⟩, by decide +kernel, ⟨_, rfl, rfl⟩, by decide⟩

/-- RESUME in AUTO, with no train on the table and with one. -/
theorem witness_StopAndResume_auto :
    (∀ s ∈ [latch (atMode .auto base), latch (atMode .auto held2)], s.takes ∧ s.mode = .auto ∧ s.ride.latched = true ∧
      s.resumeBarred = false) ∧ ∀ k, (latch (atMode .auto base)).ride.train? k = none := by
  refine ⟨fun s hs => ⟨⟨?_, ?_⟩, ?_, ?_, ?_⟩, by decide +kernel⟩ <;> (revert s; decide +kernel)
/-! ### The train commands -/

theorem witness_AdmitAndRetire :
    base.takes ∧ base.mode = .maintenance ∧
    (∀ label ∈ [1, 255], 1 ≤ (frameOf 2 label).arg.toNat ∧ (frameOf 2 label).arg.toNat ≤ 255 ∧ base.ride.labelUsed label = false) ∧
    (∃ d, base.map.zoneNamed 2 = some (2, d) ∧ base.canAdmit 2 d = true) ∧ base.ride.trainCount < base.map.admissionLimit ∧
    base.ride.freeIx = some 0 ∧ held2.takes ∧ held2.ride.trainNamed 0 = some (0, trainAt .held 2) ∧
    opening2.ride.occupant? 2 = some 0 ∧ opening2.elementOutput 2 = true := by
  refine ⟨base_takes, rfl, by decide +kernel, ⟨_, rfl, by decide +kernel⟩, by decide +kernel, by decide +kernel, ⟨rfl, by decide⟩,
    by decide +kernel, by decide +kernel, by decide +kernel⟩
theorem witness_StepAndDirect :
    held2.takes ∧ held2.mode = .maintenance ∧ held2.ride.trainNamed 0 = some (0, trainAt .held 2) ∧
    stepChain held2.ctx held2.ride 0 (trainAt .held 2) = some [3] ∧ (after (.stepTrain 0 (frameOf 0)) held2).ride.latched = false ∧
    held2.ride.element? 2 = some (.brake .closed .close) ∧ held2.map.isDiverge 0 = true ∧
    (frameOf 0 0).arg.toNat = 256 * (0 : SwitchIx).val + Side.a.code ∧ (frameOf 0 1).arg.toNat = 256 * (0 : SwitchIx).val + Side.b.code ∧
    (frameOf 0 770).arg.toNat = 256 * (3 : SwitchIx).val + 2 :=
  ⟨⟨rfl, by decide⟩, rfl, by decide +kernel, by decide +kernel, by decide +kernel, by decide +kernel, by decide +kernel, by decide +kernel,
    by decide +kernel, by decide +kernel⟩

/-! ### Holds, the hold selection and faults -/

theorem witness_HoldAndRelease :
    base.takes ∧ base.mode ≠ .config ∧ (∃ d, base.map.zoneNamed (frameOf 2).obj.toNat = some (2, d)) ∧
    base.ride.zone? 2 = some ZoneRec.fresh ∧ ZoneRec.fresh.holds? .link = false ∧
    (∀ src, (frameOf 2 src.bit).arg.toNat = HoldSource.bit src) ∧ base.ride.overdueIn 2 = false ∧
    (withTrain (trainAt .overdue 2) [(2, .occupied 0)] base).ride.overdueIn 2 = true ∧
    (withTrain (trainAt .running 2) [(2, .occupied 0)] base).ride.train? 0 = some (trainAt .running 2) ∧
    (withTrain (trainAt .running 2) [(2, .occupied 0)] base).ride.occupant? 2 = some 0 ∧ (base.ride.element? 2).isSome = true := by
  refine ⟨base_takes, by decide, ⟨_, rfl⟩, by decide +kernel, rfl, fun src => ?_, by decide +kernel, by decide +kernel, by decide +kernel,
    by decide +kernel, by decide +kernel⟩
  cases src <;> decide +kernel
theorem witness_SelectFirstAndLast :
    base.takes ∧ base.mode ≠ .config ∧ (∃ d, base.map.zoneNamed (frameOf 4).obj.toNat = some (4, d)) ∧
    (selecting base).selection = some { first := 2, zones := [2] } ∧
    ([2, 3, 4] : List ZoneIx).head? = some 2 ∧ ([2, 3, 4] : List ZoneIx).getLast? = some 4 ∧
    (base.map.successor 2 .a = some 3 ∧ base.map.successor 3 .a = some 4) ∧ base.map.primaryWalk 2 48 0 = none ∧
    ∃ d, base.map.zoneNamed (frameOf 2).obj.toNat = some (2, d) :=
  ⟨base_takes, by decide, ⟨_, rfl⟩, rfl, rfl, rfl, by decide +kernel, by decide +kernel, _, rfl⟩
theorem witness_DeselectRemovesZone :
    base.takes ∧ base.mode ≠ .config ∧ (selecting base).selection = some { first := 2, zones := [2] } ∧
    (∃ d, base.map.zoneNamed (frameOf 2).obj.toNat = some (2, d)) ∧
    (∃ d, base.map.zoneNamed (frameOf 4).obj.toNat = some (4, d)) ∧ (4 : ZoneIx) ∉ ([2] : List ZoneIx) :=
  ⟨base_takes, by decide, rfl, ⟨_, rfl⟩, ⟨_, rfl⟩, by decide⟩
theorem witness_ApplyHoldsOrReleases :
    (selecting base).takes ∧ (selecting base).mode ≠ .config ∧ (selecting base).selection = some { first := 2, zones := [2] } ∧
    (frameOf 0 0).arg.toNat = 0 ∧ (frameOf 0 1).arg.toNat = 1 ∧ ((selecting base).ride.zone? 2).isSome = true ∧
    (selecting base).ride.held 2 .link = false :=
  ⟨⟨rfl, by decide⟩, by decide, rfl, by decide +kernel, by decide +kernel, by decide +kernel, by decide +kernel⟩
def closedProof : State :=
  { withElement 2 (.brake (.fault .proofLost) .close) base with proofs := tput base.proofs 3 true }
def faultSwitch (proofs : Vector Bool 96) : State :=
  latch { withSwitch 0 { pos := .fault .noPosition, pending := none, committed := none, role := .diverge none .b } base with
    proofs := proofs }
theorem witness_ClearFaults :
    base.takes ∧ (frameOf 2 1).arg.toNat = 1 ∧ (∃ d, base.map.zoneNamed (frameOf 2 1).obj.toNat = some (2, d)) ∧
    (faultZone 2 base).ride.zone? 2 = some { ZoneRec.fresh with fault := some .unexpected } ∧ (faultZone 2 base).faultBeside 2 = false ∧
    (∃ y bd, (faultGate 2 base).map.boundary 2 = some bd ∧ bd.down = 2 ∧ tget (faultGate 2 base).bounds 2 = some y ∧
      y.passage = .fault .reverseUnexpected) ∧
    (∃ d, base.map.boundaryNamed (2#8).toNat = some (2, d) ∧ tget base.sensors.covered d.uLine = false ∧
      tget base.sensors.covered d.dLine = false) ∧
    (∃ d, closedProof.map.zoneNamed (2#8).toNat = some (2, d) ∧ d.element = .brake 2 3 800) ∧
    closedProof.ride.element? 2 = some (.brake (.fault .proofLost) .close) ∧ tget closedProof.proofs 3 = true ∧
    tget closedProof.proofs 2 = false ∧
    (∃ d x, base.map.switchNamed (0#8).toNat = some (0, d) ∧ (faultSwitch base.proofs).ride.switch? 0 = some x ∧
      x.pos = .fault .noPosition ∧ x.pending = none ∧ tget base.proofs d.proofA = tget base.proofs d.proofB ∧
      tget (tput base.proofs 16 true) d.proofA = (Side.a == .a) ∧ tget (tput base.proofs 16 true) d.proofB = (Side.a == .b) ∧
      tget (tput base.proofs 17 true) d.proofA = (Side.b == .a) ∧ tget (tput base.proofs 17 true) d.proofB = (Side.b == .b) ∧
      (faultSwitch base.proofs).ride.claim? d.zone = some .clear) :=
  ⟨base_takes, by decide +kernel, ⟨_, rfl⟩, by decide +kernel, by decide +kernel, ⟨_, _, rfl, rfl, rfl, rfl⟩,
    ⟨_, rfl, by decide +kernel, by decide +kernel⟩, ⟨_, rfl, rfl⟩, by decide +kernel, by decide +kernel, by decide +kernel,
    ⟨_, _, rfl, rfl, rfl, rfl, by decide +kernel, by decide +kernel, by decide +kernel, by decide +kernel, by decide +kernel,
      by decide +kernel⟩⟩

/-- An object of each class that is not in FAULT, and a switch proven at A whose zone is taken and committed nowhere. -/
theorem witness_ClearFaults_others :
    (∃ d x, base.map.boundaryNamed (2#8).toNat = some (2, d) ∧ tget base.bounds 2 = some x ∧ x.passage = .clear) ∧
    (∃ d, base.map.zoneNamed (1#8).toNat = some (1, d) ∧ d.element = .drive 0) ∧ base.ride.element? 1 = some (.drive .closed .close) ∧
    base.ride.element? 2 = some (.brake .closed .close) ∧
    (∃ d x, base.map.switchNamed (0#8).toNat = some (0, d) ∧ base.ride.switch? 0 = some x ∧ x.pos = .locked .a) ∧
    base.ride.zone? 2 = some ZoneRec.fresh ∧ ZoneRec.fresh.fault = none ∧ base.faultBeside 2 = false ∧
    (∃ x, (claimAt (0, .occupied 1) (faultSwitch (tput base.proofs 16 true))).ride.switch? 0 = some x ∧ x.pos = .fault .noPosition ∧
      x.committed = none) ∧
    (claimAt (0, .occupied 1) (faultSwitch (tput base.proofs 16 true))).ride.claim? 0 = some (.occupied 1) := by
  refine ⟨⟨_, _, rfl, rfl, rfl⟩, ⟨_, rfl, rfl⟩, by decide +kernel, by decide +kernel, ⟨_, _, rfl, rfl, rfl⟩, by decide +kernel, rfl,
    by decide +kernel, ⟨_, rfl, rfl, rfl⟩, by decide +kernel⟩
/-! ### Stations and switches -/

def atStation (st : StationState) : State := withStation { state := st, pairing := .armed } base
theorem witness_DispatchAndCancel :
    (atMode .auto (atStation .ready)).takes ∧ (∃ d, base.map.stationNamed (frameOf 0).obj.toNat = some (0, d) ∧ d.authority ≠ .buttons) ∧
    (atMode .auto (atStation .ready)).ride.latched = false ∧
    (∀ st, (atStation st).ride.station? 0 = some { state := st, pairing := .armed }) ∧ StationState.isPending (.pending .buttons 5) = true ∧
    StationState.isReleasing (.releasing false) = true ∧ StationState.isPending .loading = false ∧
    StationState.isReleasing .loading = false :=
  ⟨⟨rfl, by decide⟩, ⟨_, rfl, by decide⟩, by decide +kernel, fun _ => rfl, rfl, rfl, rfl, rfl⟩
/-- The small circuit names its station in a STATION zone alone. -/
theorem witness_DispatchAndCancel_ready : ∀ z, ∀ zd ∈ small.zone z, zd.station = some 0 → zd.kind = .station := by decide +kernel
theorem witness_RouteModesAndMoves :
    base.takes ∧ (∃ d, base.map.switchNamed (frameOf 0).obj.toNat = some (0, d) ∧ d.kind = .diverge .alternate) ∧
    (frameOf 0 3).arg.toNat = RouteMode.fixedB.code ∧ (frameOf 0 1).arg.toNat = Side.b.code ∧ base.ride.claim? 0 = some .clear ∧
    base.ride.claim? 3 = some .clear ∧
    (∃ x, base.ride.switch? 0 = some x ∧ x.pos = .locked .a ∧ ∀ reqA reqB arb served, x.role ≠ .merge reqA reqB arb served) ∧
    (∃ x, base.ride.switch? 1 = some x ∧ x.pos = .locked .b ∧ x.role = .merge none none .idle .b) ∧
    ∃ x, (withSwitch 0 { pos := .moving .b 5, pending := none, committed := none, role := .diverge none .b } base).ride.switch? 0 =
      some x ∧ x.pos = .moving .b 5 :=
  ⟨base_takes, ⟨_, rfl, rfl⟩, by decide +kernel, by decide +kernel, by decide +kernel, by decide +kernel, ⟨_, rfl, rfl, nofun⟩,
    ⟨_, rfl, rfl, rfl⟩, _, rfl, rfl⟩

/-! ### The interlock's own reservations, the merge arbiter and diverge routing -/

/-- In AUTO a train HELD in zone 3, which LINK holds, with the chain [4] to be had. -/
def heldInAuto (holds : BitVec 4) : State :=
  atMode .auto { base with
    ride := (base.ride.putTrain 0 (trainAt .held 3)).putZone 3 { ZoneRec.fresh with claim := .occupied 0, holds := holds } }
/-- The same with no hold, its chain presented. -/
def presentedInAuto : State := { heldInAuto 0#4 with ride := (heldInAuto 0#4).ride.putPresented 0 (some [4]) }
theorem witness_AutoReservesChains :
    (presentedInAuto.ride.train? 0 = some (trainAt .held 3) ∧ presentedInAuto.ride.presented? 0 = some [4] ∧
      eligible presentedInAuto.ctx presentedInAuto.ride (trainAt .held 3) = true ∧
      zoneAvailable presentedInAuto.ctx presentedInAuto.ride 0 false 3 4 = true ∧
      zoneAvailable (claimAt (4, .occupied 1) presentedInAuto).ctx (claimAt (4, .occupied 1) presentedInAuto).ride 0 false 3 4 = false ∧
      eligible (latch presentedInAuto).ctx (latch presentedInAuto).ride (trainAt .held 3) = false ∧
      presentedInAuto.ride.element? 3 = some (.brake .closed .close) ∧
      (reserveIfAvailable presentedInAuto.ctx 0 presentedInAuto.ride).latched = false) ∧
    (∀ src ∈ [HoldSource.link, .rollback, .overdue],
      (heldInAuto (1#4 <<< src.bit)).takes ∧ (heldInAuto (1#4 <<< src.bit)).ride.latched = false ∧
      (∃ d, small.zoneNamed (frameOf 3 src.bit).obj.toNat = some (3, d) ∧ d.kind ≠ .station ∧ d.kind ≠ .spur ∧ d.element ≠ .none) ∧
      (heldInAuto (1#4 <<< src.bit)).ride.element? 3 = some (.brake .closed .close) ∧ (frameOf 3 src.bit).arg.toNat = src.bit ∧
      (∃ zr, (heldInAuto (1#4 <<< src.bit)).ride.zone? 3 = some zr ∧ zr.holds = 1#4 <<< src.bit ∧ zr.fault = none) ∧
      (∀ j, j ≠ 0 → (heldInAuto (1#4 <<< src.bit)).ride.train? j = none) ∧ (heldInAuto (1#4 <<< src.bit)).ride.presented? 0 = none ∧
      prospectiveChain (heldInAuto (1#4 <<< src.bit)).ctx (heldInAuto (1#4 <<< src.bit)).ride (trainAt .held 3) = some [4] ∧
      (heldInAuto (1#4 <<< src.bit)).ride.claim? 4 = some .clear ∧ small.divergeAt 4 = none ∧ small.mergeAt 4 = none ∧
      (after (.releaseHold 0 (frameOf 3 src.bit)) (heldInAuto (1#4 <<< src.bit))).ride.latched = false) := by
  refine ⟨by decide +kernel, fun src hs => ⟨⟨rfl, nofun⟩, ?_, ⟨_, rfl, by decide, by decide, by decide⟩, ?_, ?_, ⟨_, rfl, ?_, ?_⟩, ?_, ?_,
    ?_, ?_, ?_, ?_, ?_⟩⟩ <;> (revert src; decide +kernel)

/-- The same in a zone whose element is a drive. -/
def driveInAuto : State :=
  { heldInAuto 1#4 with
    map := { small with zones := tput small.zones 3 ((small.zone 3).map fun d => { d with element := .drive 0 }) }
    ride := (heldInAuto 1#4).ride.putElement 3 (.drive .closed .close) }
theorem witness_AutoReservesChains_drive :
    driveInAuto.takes ∧ driveInAuto.mode = .auto ∧ driveInAuto.ride.latched = false ∧
    (∃ d, driveInAuto.map.zoneNamed (frameOf 3).obj.toNat = some (3, d) ∧ d.kind = .run ∧ d.element = .drive 0) ∧
    driveInAuto.ride.element? 3 = some (.drive .closed .close) ∧ driveInAuto.map.drive 0 = some smallDrive ∧
    (driveInAuto.ride.channel? 0).isSome = true ∧ driveInAuto.ride.train? 0 = some (trainAt .held 3) ∧
    driveInAuto.ride.presented? 0 = none ∧ prospectiveChain driveInAuto.ctx driveInAuto.ride (trainAt .held 3) = some [4] ∧
    driveInAuto.ride.claim? 4 = some .clear ∧ (after (.releaseHold 0 (frameOf 3)) driveInAuto).ride.latched = false :=
  ⟨⟨rfl, nofun⟩, rfl, by decide +kernel, ⟨_, rfl, rfl, rfl⟩, by decide +kernel, by decide +kernel, by decide +kernel, by decide +kernel,
    by decide +kernel, by decide +kernel, by decide +kernel, by decide +kernel⟩
/-- In MAINTENANCE, the train of `driveInAuto` without a hold, its channel at a code. -/
def driveStep3 (code : Nat) : State :=
  atMode .maintenance { driveInAuto with
    ride := ((driveInAuto.ride.putZone 3 { ZoneRec.fresh with claim := .occupied 0 }).putChannel 0
      { code := code, target := code, stepDue := none, zone := some 3 }) }
/-- A STEP in a DRIVE zone, its channel below the creep code and at it; and a train that cannot be stepped, under a ride stop. -/
theorem witness_StepAndDirect_drive :
    (∀ code ∈ [0, 250], (driveStep3 code).takes ∧ (driveStep3 code).mode = .maintenance ∧
      (driveStep3 code).ride.trainNamed (frameOf 0).obj.toNat = some (0, trainAt .held 3) ∧
      stepChain (driveStep3 code).ctx (driveStep3 code).ride 0 (trainAt .held 3) = some [4] ∧
      (after (.stepTrain 0 (frameOf 0)) (driveStep3 code)).ride.latched = false ∧
      (driveStep3 code).ride.element? 3 = some (.drive .closed .close) ∧ (driveStep3 code).map.elementAt 3 = .drive 0 ∧
      (driveStep3 code).map.drive 0 = some smallDrive ∧
      (driveStep3 code).ride.channel? 0 = some { code := code, target := code, stepDue := none, zone := some 3 }) ∧
    smallDrive.creep = 250 ∧ (latch held2).takes ∧ (latch held2).ride.trainNamed (frameOf 0).obj.toNat = some (0, trainAt .held 2) ∧
    stepChain (latch held2).ctx (latch held2).ride 0 (trainAt .held 2) = none := by
  refine ⟨fun code hc => ⟨⟨rfl, nofun⟩, rfl, ?_, ?_, ?_, ?_, ?_, ?_, ?_⟩, rfl, ⟨rfl, nofun⟩, by decide +kernel, by decide +kernel⟩ <;>
    (revert code; decide +kernel)
/-- A head zone with a diverge switch, locked at either side and moving, and one without; and a map that passes validation. -/
theorem witness_AutoReservesChains_chain :
    small.divergeAt 0 = some 0 ∧ small.divergeAt 3 = none ∧ small.successor 0 .a = some 1 ∧ small.successor 0 .b = some 2 ∧
    small.successor 3 .a = some 4 ∧ small.validate.outcome = .pass ∧ small.successor 47 .a = none ∧
    ∀ pos : SwitchPos, ∃ sx, (withSwitch 0 { pos, pending := none, committed := none, role := .diverge none .b } base).ride.switch? 0 =
      some sx ∧ sx.pos = pos :=
  ⟨by decide +kernel, by decide +kernel, by decide +kernel, by decide +kernel, by decide +kernel, small_is_valid, by decide +kernel,
    fun _ => ⟨_, rfl, rfl⟩⟩
/-- The switch 0 of the small circuit, a diverge, and the switch 1, a merge, each with the fields that a clause asks for. -/
def divergeWith (pos : SwitchPos) (setting : Option (SlotIx × Side)) (pending : Option (Side × MoveSource)) : SwitchRec :=
  { pos, pending, committed := none, role := .diverge setting .b }
def mergeWith (pos : SwitchPos) (reqA reqB : Option SlotIx) (arb : Arbiter) (served : Side) : SwitchRec :=
  { pos, pending := none, committed := none, role := .merge reqA reqB arb served }
theorem switch_of (w : SwitchIx) (x : SwitchRec) : (withSwitch w x base).ride.switch? w = some x := by
  revert w
  have : ∀ w : SwitchIx, tget (tput base.ride.switches w (some x)) w = some x := fun w => by fin_cases w <;> rfl
  exact this
theorem witness_ArbiterAndRouting :
    ((([1, 3] : List ZoneIx).getLast? = some 3 ∧ base.ctx.map.divergeAt 3 = none ∧ base.ctx.map.mergeAt 3 = some 1 ∧
        base.ctx.map.sideFrom 3 1 = some .a ∧ base.ctx.map.sideFrom 3 2 = some .b ∧ base.ctx.map.sideFrom 3 0 = none) ∧
      base.ctx.map.divergeAt 0 = some 0 ∧ (base.ctx.map.switch 0).isSome = true ∧ base.ctx.map.predecessor 0 .a = some 4 ∧
      base.ride.claim? 0 = some .clear ∧ (claimAt (0, .occupied 1) base).ride.claim? 0 ≠ some .clear) ∧
    (∀ w x, (withSwitch w x base).ride.switch? w = some x) ∧
    (∃ d, base.ctx.map.switch 1 = some d ∧ base.ride.claim? d.zone = some .clear ∧
      (claimAt (3, .occupied 1) base).ride.claim? d.zone ≠ some .clear) ∧
    (∀ served, (mergeWith (.locked .a) (some 0) (some 1) .idle served).role = .merge (some 0) (some 1) .idle served) ∧
    (base.ctx.map.zone 3).bind (·.switch) = some 1 ∧ (base.ctx.map.zone 0).bind (·.switch) = some 0 ∧
    (∃ sx, (withSwitch 0 (divergeWith (.locked .a) (some (0, .a)) none) held2).ride.switch? 0 = some sx ∧ sx.pos = .locked .a ∧
      sx.role = .diverge (some (0, .a)) .b) ∧
    (withSwitch 0 (divergeWith (.locked .a) (some (0, .a)) none) held2).ride.train? 0 = some (trainAt .held 2) ∧
    chooseRoute base.ctx base.ride 0 { kind := .diverge .alternate, zone := 0, outA := 0, outB := 1, proofA := 16, proofB := 17, timeout := 4000 }
      (trainAt .held 4) .b = .a :=
  ⟨by decide +kernel, switch_of, ⟨_, rfl, by decide +kernel, by decide +kernel⟩, fun _ => rfl, by decide +kernel, by decide +kernel,
    ⟨_, rfl, rfl, rfl⟩, by decide +kernel, by decide +kernel⟩

/-! ### The track -/

/-- Line 8, the sensor U of boundary 4, with a raw level, a filtered level and pending changes. -/
def line8 (high covered : Bool) (changes : List (SensorLine × Nat)) (s : State) : State :=
  { s with sensors := { s.sensors with high := tput s.sensors.high 8 high, covered := tput s.sensors.covered 8 covered, changes } }
/-- The small circuit with F at 0. -/
def unfiltered : State := { base with map := { small with circuit := some { trainLength := 12000, filterTime := 0 } } }

theorem witness_SensorFilter :
    (∀ high, tget (line8 (!high) high [] base).sensors.high 8 ≠ high ∧ (line8 (!high) high [] base).sensors.phase = .running ∧
      (line8 (!high) high [] base).filterTime ≠ 0 ∧ (line8 (!high) high [] base).sensors.change? 8 = none ∧
      tget (line8 (!high) high [] base).sensors.covered 8 = high) ∧
    unfiltered.filterTime = 0 ∧ unfiltered.sensors.changes = [] ∧ unfiltered.sensors.phase = .running ∧
    (∀ high, tget (line8 (!high) (!high) [(8, 999999)] base).sensors.high 8 ≠ high ∧
      (line8 (!high) (!high) [(8, 999999)] base).sensors.change? 8 = some 999999 ∧
      1000000 + 4998 < 999999 + (line8 (!high) (!high) [(8, 999999)] base).filterTime) ∧
    State.reset.sensors.phase ≠ .running ∧ tget State.reset.sensors.high 8 ≠ false ∧
    (edgeAt 8 false 4 .clear base).EdgeDue 0 8 900000 ∧
    base.map.gateOf 8 = some (4, gateAt 2 3 4 false, .u) ∧ (edgeAt 8 false 4 .clear base).sensors.change? 8 = some 900000 ∧
    (edgeAt 8 false 4 .clear { base with now := 904999 }).now < 900000 + base.filterTime := by
  refine ⟨by decide +kernel, by decide +kernel, rfl, rfl, by decide +kernel, by decide, by decide +kernel, ⟨rfl, ?_, ?_, ?_⟩, ?_, ?_, ?_⟩ <;>
    decide +kernel
theorem witness_SensorFilter_passage : ∀ dir : Direction, ∃ first other : GateSensor, first = dir.first ∧ other ≠ dir.first := by
  intro dir
  cases dir
  · exact ⟨.u, .d, rfl, nofun⟩
  · exact ⟨.d, .u, rfl, nofun⟩

/-- A train in zone 2, and boundary 4 ahead of it with an edge due. -/
def atFour (line : SensorLine) (covered : Bool) (p : Passage) (ph : TrainPhase) (claims : List (ZoneIx × Claim)) : State :=
  edgeAt line covered 4 p (withTrain (trainAt ph 2) claims base)
/-- A train that straddles boundary 4, its head in zone 3. -/
def overFour (line : SensorLine) (covered : Bool) (p : Passage) (ph : TrainPhase) : State :=
  edgeAt line covered 4 p
    (withTrain { trainAt ph 3 with tail := some 2 } [(2, .exit 0), (3, .entry 0)] base)
/-- A train in zone 4, and boundary 5, which has a rollback sensor, behind it. -/
def beforeFive (line : SensorLine) (covered : Bool) (p : Passage) (ph : TrainPhase) (behind : Claim) : State :=
  edgeAt line covered 5 p (withTrain (trainAt ph 4) [(4, .occupied 0), (3, behind)] base)
/-- A train that has gone back through boundary 5, its head in zone 3. -/
def backOverFive (line : SensorLine) (covered : Bool) (p : Passage) : State :=
  edgeAt line covered 5 p
    (withTrain { trainAt .rollback 3 with tail := some 4, dir := .reverse } [(4, .exit 0), (3, .entry 0)] base)

/-- A due edge at a boundary of the small circuit reports `e`, by the facts that decide it. -/
theorem reports_of {s : State} {line : SensorLine} {b : BoundaryIx} {d : BoundaryDesc} {sensor : GateSensor} {x : BoundaryRec}
    {e : PassageEvent}
    (h : s.sensors.phase = .running ∧ s.sensors.change? line = some 900000 ∧ 900000 + s.filterTime ≤ s.now ∧
      (s.sensors.changes.all fun p => decide (900000 ≤ p.2)) = true ∧ s.map.gateOf line = some (b, d, sensor) ∧
      tget s.bounds b = some x ∧ (x.edge d.rollback sensor (!tget s.sensors.covered line) 900000).2 = some e) :
    s.Reports 0 line b d 900000 e :=
  ⟨⟨h.1, h.2.1, h.2.2.1, fun p hp => by simpa using List.all_eq_true.mp h.2.2.2.1 p hp⟩, sensor, x, h.2.2.2.2.1, h.2.2.2.2.2.1,
    h.2.2.2.2.2.2⟩

def boundAt (p : Passage) : BoundaryRec := { passage := p, stalled := false, lastInterval := none }

theorem calm_of_maintenance {s : State} (h : s.mode = .maintenance) : s.calm := Or.inl (by rw [h]; decide)

/-- APPROACH, by phase; at a diverge switch, where the exit is not on the route; with the zone ahead reserved or not. -/
theorem witness_ForwardTravel_approach :
    (∀ ph ∈ [TrainPhase.running, .entering, .stopping, .rollback, .overdue, .held, .parked, .leaving], ∀ ahead ∈ [Claim.clear, .reserved 0],
      (atFour 8 false .clear ph [(2, .occupied 0), (3, ahead)]).Reports 0 8 4 (gateAt 2 3 4 false) 900000 (.approach .forward) ∧
      (atFour 8 false .clear ph [(2, .occupied 0), (3, ahead)]).ride.headIn 2 = some (0, trainAt ph 2) ∧
      divergeCheck (atFour 8 false .clear ph [(2, .occupied 0), (3, ahead)]).ctx
        (atFour 8 false .clear ph [(2, .occupied 0), (3, ahead)]).ride (gateAt 2 3 4 false) = true ∧
      (atFour 8 false .clear ph [(2, .occupied 0), (3, ahead)]).ride.claim? 3 = some ahead) ∧
    (edgeAt 4 false 2 .clear (withTrain (trainAt .running 0) [(0, .occupied 0)] base)).Reports 0 4 2 (gateAt 0 2 2 false) 900000
      (.approach .forward) ∧
    divergeCheck (withTrain (trainAt .running 0) [(0, .occupied 0)] base).ctx
      (withTrain (trainAt .running 0) [(0, .occupied 0)] base).ride (gateAt 0 2 2 false) = false ∧
    arrivesEarly { trainAt .running 2 with deadline := some { kind := .journey, start := 0, duration := 9100, early := some 5160 } }
      5159999 = true := by
  refine ⟨?_, reports_of (sensor := .u) (x := boundAt .clear) (by decide +kernel), by decide +kernel, by decide +kernel⟩
  have h : ∀ ph ∈ [TrainPhase.running, .entering, .stopping, .rollback, .overdue, .held, .parked, .leaving],
      ∀ ahead ∈ [Claim.clear, .reserved 0], _ := fun ph hp ahead ha => reports_of
        (s := atFour 8 false .clear ph [(2, .occupied 0), (3, ahead)]) (line := 8) (b := 4) (d := gateAt 2 3 4 false) (sensor := .u)
        (x := boundAt .clear) (e := .approach .forward) (by revert ph ahead; decide +kernel)
  exact fun ph hp ahead ha => ⟨h ph hp ahead ha, by revert ph ahead; decide +kernel, by revert ph ahead; decide +kernel,
    by revert ph ahead; decide +kernel⟩
/-- NOSE_IN, into a zone reserved for the train, clear, and with another occupant; in its window and above it. -/
theorem witness_ForwardTravel_noseIn :
    (∀ claim ∈ [Claim.reserved 0, .clear, .occupied 1, .guarded 1],
      (atFour 9 false (.entering .forward 500000) .leaving [(2, .occupied 0), (3, claim)]).Reports 0 9 4 (gateAt 2 3 4 false) 900000
        (.noseIn .forward 400000) ∧
      (atFour 9 false (.entering .forward 500000) .leaving [(2, .occupied 0), (3, claim)]).ride.headIn 2 =
        some (0, trainAt .leaving 2) ∧
      divergeCheck base.ctx (atFour 9 false (.entering .forward 500000) .leaving [(2, .occupied 0), (3, claim)]).ride
        (gateAt 2 3 4 false) = true ∧
      (atFour 9 false (.entering .forward 500000) .leaving [(2, .occupied 0), (3, claim)]).ride.claim? 3 = some claim ∧
      (atFour 9 false (.entering .forward 500000) .leaving [(2, .occupied 0), (3, claim)]).ride.claim? 2 = some (.occupied 0)) ∧
    (∃ zd, small.zone 3 = some zd ∧ zd.window (crossingSpeed 1500 400000) = .inWindow) ∧
    (∃ zd, small.zone 4 = some zd ∧ zd.window (crossingSpeed 1500 400000) = .inWindow ∧
      zd.window (crossingSpeed 1500 10000) = .overspeed ∧ zd.window 2000 = .inWindow ∧ zd.window 20000 = .inWindow) := by
  refine ⟨fun claim hc => ⟨reports_of (sensor := .d) (x := boundAt (.entering .forward 500000)) ?_, ?_, ?_, ?_, ?_⟩,
    ⟨_, rfl, by decide +kernel⟩, _, rfl, by decide +kernel⟩ <;> (revert claim; decide +kernel)
/-- RETREAT and NOSE_IN off the route at which the switch stands; and a NOSE_IN above the speed window. -/
theorem witness_ForwardTravel_lost_speed :
    (edgeAt 4 true 2 (.entering .forward 500000) (withTrain (trainAt .leaving 0) [(0, .occupied 0)] base)).Reports 0 4 2
      (gateAt 0 2 2 false) 900000 (.retreat .forward) ∧
    (edgeAt 5 false 2 (.entering .forward 500000) (withTrain (trainAt .leaving 0) [(0, .occupied 0)] base)).Reports 0 5 2
      (gateAt 0 2 2 false) 900000 (.noseIn .forward 400000) ∧
    (withTrain (trainAt .leaving 0) [(0, .occupied 0)] base).ride.headIn 0 = some (0, trainAt .leaving 0) ∧
    divergeCheck base.ctx (withTrain (trainAt .leaving 0) [(0, .occupied 0)] base).ride (gateAt 0 2 2 false) = false ∧
    (edgeAt 11 false 5 (.entering .forward 890000) (withTrain (trainAt .leaving 3) [(3, .occupied 0), (4, .reserved 0)] base)).Reports 0 11 5
      (gateAt 3 4 5 true) 900000 (.noseIn .forward 10000) ∧
    (withTrain (trainAt .leaving 3) [(3, .occupied 0), (4, .reserved 0)] base).ride.claim? 4 = some (.reserved 0) := by
  refine ⟨reports_of (sensor := .u) (x := boundAt (.entering .forward 500000)) (by decide +kernel),
    reports_of (sensor := .d) (x := boundAt (.entering .forward 500000)) (by decide +kernel), by decide +kernel, by decide +kernel,
    reports_of (sensor := .d) (x := boundAt (.entering .forward 890000)) (by decide +kernel), by decide +kernel⟩
/-- TAIL_CLEAR, without a rollback sensor behind and with one; and a berth sensor. -/
theorem witness_ForwardTravel_tailClear_berth :
    (overFour 9 true (.leaving .forward) .entering).Reports 0 9 4 (gateAt 2 3 4 false) 900000 (.tailClear .forward) ∧
    ((overFour 9 true (.leaving .forward) .entering).ride.straddling (gateAt 2 3 4 false)).isSome = true ∧
    (overFour 9 true (.leaving .forward) .entering).ride.claim? 2 = some (.exit 0) ∧
    (overFour 9 true (.leaving .forward) .entering).ride.claim? 3 = some (.entry 0) ∧
    (overFour 9 true (.leaving .forward) .entering).calm ∧
    (edgeAt 11 true 5 (.leaving .forward) (withTrain { trainAt .entering 4 with tail := some 3 } [(3, .exit 0), (4, .entry 0)] base)).Reports
      0 11 5 (gateAt 3 4 5 true) 900000 (.tailClear .forward) ∧
    (edgeAt 24 false 5 .clear (withTrain (trainAt .stopping 1) [(1, .occupied 0)] base)).EdgeDue 0 24 900000 ∧
    small.gateOf 24 = none ∧ small.berthOf 24 = some 1 ∧ small.isStopping 1 = true ∧
    ((withTrain (trainAt .stopping 1) [(1, .occupied 0)] base).ride.matching fun y => y.head == 1 && y.tail.isNone) =
      some (0, trainAt .stopping 1) ∧
    (overFour 9 true (.leaving .forward) .rollback).Reports 0 9 4 (gateAt 2 3 4 false) 900000 (.tailClear .forward) ∧
    (overFour 9 true (.leaving .forward) .rollback).ride.claim? 2 = some (.exit 0) := by
  refine ⟨reports_of (sensor := .d) (x := boundAt (.leaving .forward)) (by decide +kernel), by decide +kernel, by decide +kernel,
    by decide +kernel, calm_of_maintenance rfl, reports_of (sensor := .d) (x := boundAt (.leaving .forward)) (by decide +kernel),
    ⟨rfl, by decide +kernel, by decide +kernel, by decide +kernel⟩, by decide +kernel, by decide +kernel, by decide +kernel,
    by decide +kernel, reports_of (sensor := .d) (x := boundAt (.leaving .forward)) (by decide +kernel), by decide +kernel⟩
/-- NOSE_IN of a train with a guard zone: behind the zone left, at boundary 5, where it is released, and elsewhere, where it stays. -/
theorem witness_ForwardTravel_guard :
    (∀ g ∈ [((3 : ZoneIx), (5 : BoundaryIx)), (2, 4)],
      (edgeAt 1 false 0 (.entering .forward 500000)
        (withTrain { trainAt .leaving 4 with guard := some g } [(4, .occupied 0), (0, .reserved 0), (g.1, .guarded 0)] base)).Reports
          0 1 0 (gateAt 4 0 0 false) 900000 (.noseIn .forward 400000) ∧
      (withTrain { trainAt .leaving 4 with guard := some g } [(4, .occupied 0), (0, .reserved 0), (g.1, .guarded 0)] base).ride.headIn 4 =
        some (0, { trainAt .leaving 4 with guard := some g }) ∧
      (withTrain { trainAt .leaving 4 with guard := some g } [(4, .occupied 0), (0, .reserved 0), (g.1, .guarded 0)] base).ride.claim? g.1 =
        some (.guarded 0)) ∧
    small.boundary 5 = some (gateAt 3 4 5 true) ∧ small.boundary 4 = some (gateAt 2 3 4 false) := by
  refine ⟨fun g hg => ⟨reports_of (sensor := .d) (x := boundAt (.entering .forward 500000)) ?_, ?_, ?_⟩, by decide +kernel, by decide +kernel⟩ <;>
    (revert g; decide +kernel)
/-- RETREAT, NOSE_BACK and BACKING; R_APPROACH and R_RETREAT of a train in ROLLBACK. -/
theorem witness_RollbackTravel :
    (atFour 8 true (.entering .forward 500000) .leaving [(2, .occupied 0)]).Reports 0 8 4 (gateAt 2 3 4 false) 900000
      (.retreat .forward) ∧
    (overFour 9 true (.spanning .forward) .entering).Reports 0 9 4 (gateAt 2 3 4 false) 900000 (.noseBack .forward) ∧
    (overFour 8 false (.leaving .forward) .entering).Reports 0 8 4 (gateAt 2 3 4 false) 900000 (.backing .forward) ∧
    (overFour 9 true (.spanning .forward) .entering).ride.claim? 2 = some (.exit 0) ∧
    (overFour 9 true (.spanning .forward) .entering).ride.occupant? 3 = some 0 ∧
    (∀ ph ∈ [TrainPhase.held, .running, .rollback, .overdue],
      (beforeFive 11 false .clear ph .clear).Reports 0 11 5 (gateAt 3 4 5 true) 900000 (.approach .reverse) ∧
      (beforeFive 11 true (.entering .reverse 500000) ph .clear).Reports 0 11 5 (gateAt 3 4 5 true) 900000 (.retreat .reverse) ∧
      (beforeFive 11 false .clear ph .clear).ride.headIn 4 = some (0, trainAt ph 4) ∧
      mergeCheck base.ctx (beforeFive 11 false .clear ph .clear).ride 5 (gateAt 3 4 5 true) = true) ∧
    (beforeFive 11 false .clear .rollback .clear).calm := by
  refine ⟨reports_of (sensor := .u) (x := boundAt (.entering .forward 500000)) (by decide +kernel),
    reports_of (sensor := .d) (x := boundAt (.spanning .forward)) (by decide +kernel),
    reports_of (sensor := .u) (x := boundAt (.leaving .forward)) (by decide +kernel), by decide +kernel, by decide +kernel,
    fun ph hp => ⟨reports_of (sensor := .d) (x := boundAt .clear) ?_,
      reports_of (sensor := .d) (x := boundAt (.entering .reverse 500000)) ?_, ?_, ?_⟩, calm_of_maintenance rfl⟩ <;>
    (revert ph; decide +kernel)
/-- R_NOSE_IN into a zone guarded by the train, clear, and with another occupant; and the events after it. -/
theorem witness_RollbackTravel_crossing :
    (∀ claim ∈ [Claim.guarded 0, .clear, .occupied 1],
      (beforeFive 10 false (.entering .reverse 500000) .rollback claim).Reports 0 10 5 (gateAt 3 4 5 true) 900000
        (.noseIn .reverse 400000) ∧
      (beforeFive 10 false (.entering .reverse 500000) .rollback claim).ride.claim? 3 = some claim ∧
      (beforeFive 10 false (.entering .reverse 500000) .rollback claim).ride.claim? 4 = some (.occupied 0)) ∧
    (backOverFive 10 true (.spanning .reverse)).Reports 0 10 5 (gateAt 3 4 5 true) 900000 (.noseBack .reverse) ∧
    (backOverFive 11 false (.leaving .reverse)).Reports 0 11 5 (gateAt 3 4 5 true) 900000 (.backing .reverse) ∧
    (backOverFive 10 true (.leaving .reverse)).Reports 0 10 5 (gateAt 3 4 5 true) 900000 (.tailClear .reverse) ∧
    ((backOverFive 10 true (.leaving .reverse)).ride.straddling (gateAt 3 4 5 true)).isSome = true ∧
    (backOverFive 10 true (.leaving .reverse)).ride.claim? 3 = some (.entry 0) ∧
    (backOverFive 10 true (.leaving .reverse)).ride.claim? 4 = some (.exit 0) := by
  refine ⟨fun claim hc => ⟨reports_of (sensor := .u) (x := boundAt (.entering .reverse 500000)) ?_, ?_, ?_⟩,
    reports_of (sensor := .u) (x := boundAt (.spanning .reverse)) (by decide +kernel),
    reports_of (sensor := .d) (x := boundAt (.leaving .reverse)) (by decide +kernel),
    reports_of (sensor := .u) (x := boundAt (.leaving .reverse)) (by decide +kernel), by decide +kernel, by decide +kernel,
    by decide +kernel⟩ <;> (revert claim; decide +kernel)
/-- A train in the merge zone 3 that goes back through boundary 3, which has a rollback sensor here and is not the entry on the side at
which the switch stands. -/
def backOffSide (line : SensorLine) (covered : Bool) : State :=
  { edgeAt line covered 3 (.entering .reverse 500000) (withTrain (trainAt .rollback 3) [(3, .occupied 0)] base) with
    map := { small with boundaries := tput small.boundaries 3 (some (gateAt 1 3 3 true)) } }
theorem witness_RollbackTravel_lost :
    (backOffSide 7 true).Reports 0 7 3 (gateAt 1 3 3 true) 900000 (.retreat .reverse) ∧
    (backOffSide 6 false).Reports 0 6 3 (gateAt 1 3 3 true) 900000 (.noseIn .reverse 400000) ∧
    (backOffSide 6 false).ride.headIn 3 = some (0, trainAt .rollback 3) ∧
    mergeCheck (backOffSide 6 false).ctx (backOffSide 6 false).ride 3 (gateAt 1 3 3 true) = false := by
  refine ⟨reports_of (sensor := .d) (x := boundAt (.entering .reverse 500000)) (by decide +kernel),
    reports_of (sensor := .u) (x := boundAt (.entering .reverse 500000)) (by decide +kernel), by decide +kernel, by decide +kernel⟩
theorem witness_UnmatchedEvents :
    (edgeAt 8 false 4 .clear base).Reports 0 8 4 (gateAt 2 3 4 false) 900000 (.approach .forward) ∧
    (edgeAt 9 false 4 (.entering .forward 500000) base).Reports 0 9 4 (gateAt 2 3 4 false) 900000 (.noseIn .forward 400000) ∧
    (edgeAt 9 true 4 (.leaving .forward) base).Reports 0 9 4 (gateAt 2 3 4 false) 900000 (.tailClear .forward) ∧
    (edgeAt 8 false 4 (.leaving .forward) base).Reports 0 8 4 (gateAt 2 3 4 false) 900000 (.backing .forward) ∧
    (edgeAt 11 false 5 .clear base).Reports 0 11 5 (gateAt 3 4 5 true) 900000 (.approach .reverse) ∧
    (edgeAt 10 false 5 (.entering .reverse 500000) base).Reports 0 10 5 (gateAt 3 4 5 true) 900000 (.noseIn .reverse 400000) ∧
    (edgeAt 9 false 4 .clear base).Reports 0 9 4 (gateAt 2 3 4 false) 900000 .faulted ∧
    base.ride.headIn 2 = none ∧ base.ride.headIn 4 = none ∧ base.ride.straddling (gateAt 2 3 4 false) = none ∧
    base.ride.zone? 3 = some ZoneRec.fresh := by
  refine ⟨reports_of (sensor := .u) (x := boundAt .clear) (by decide +kernel),
    reports_of (sensor := .d) (x := boundAt (.entering .forward 500000)) (by decide +kernel),
    reports_of (sensor := .d) (x := boundAt (.leaving .forward)) (by decide +kernel),
    reports_of (sensor := .u) (x := boundAt (.leaving .forward)) (by decide +kernel),
    reports_of (sensor := .d) (x := boundAt .clear) (by decide +kernel),
    reports_of (sensor := .u) (x := boundAt (.entering .reverse 500000)) (by decide +kernel),
    reports_of (sensor := .d) (x := boundAt .clear) (by decide +kernel), ?_, ?_, ?_, ?_⟩ <;> decide +kernel
theorem witness_FilterStartDerivesBoundaries :
    ({ base with sensors := { base.sensors with phase := .waiting 1000000 } } : State).sensors.phase = .waiting 1000000 ∧
    1000000 ≤ base.now + 0 ∧ base.map.boundary 10 = none ∧ base.map.boundary 4 = some (gateAt 2 3 4 false) ∧
    tget base.sensors.high (gateAt 2 3 4 false).uLine = true ∧ tget (line8 false false [] base).sensors.high (gateAt 2 3 4 false).uLine = false :=
  ⟨rfl, by decide, by decide +kernel, by decide +kernel, by decide +kernel, by decide +kernel⟩
/-- Zone 4 is beside no boundary that is covered, zone 3 beside one; both have a record. -/
theorem witness_FilterStartDerivesBoundaries_zones :
    (∀ b, ∀ d ∈ small.boundary b, d.up = 4 ∨ d.down = 4 → tget (line8 false false [] base).sensors.high d.uLine = true ∧
      tget (line8 false false [] base).sensors.high d.dLine = true) ∧ (gateAt 2 3 4 false).down = 3 ∧ (base.ride.zone? 3).isSome = true := by
  decide +kernel
theorem witness_GateStallReports :
    tget (atFour 8 true (.entering .forward 500000) .leaving []).bounds 4 = some (boundAt (.entering .forward 500000)) ∧
    small.boundary 4 = some (gateAt 2 3 4 false) ∧ 500000 + 16777215 ≤ base.now + 16277215 ∧
    base.now + 16277214 < 500000 + 16777215 ∧ (atFour 8 true (.entering .forward 500000) .leaving []).ride.headIn 2 =
      some (0, trainAt .leaving 2) ∧ base.ride.headIn 2 = none := by
  refine ⟨?_, ?_, ?_, ?_, ?_, ?_⟩ <;> decide +kernel

/-! ### Deadlines, proofs, moves and drive steps -/

/-- A train in slot 0 with a deadline that runs out at 1,000,000. -/
def timed (ph : TrainPhase) (head : ZoneIx) (kind : DeadlineKind) : Train :=
  { trainAt ph head with deadline := some { kind, start := 900000, duration := 100, early := none } }
theorem witness_DeadlinesRunOut :
    (∀ ph head kind, (withTrain (timed ph head kind) [] base).ride.train? 0 = some (timed ph head kind)) ∧
    900000 + 100 * 1000 ≤ base.now + 0 ∧ (small.zone 1).any (fun zd => zd.berth.isSome) = true ∧
    (small.zone 2).any (fun zd => zd.berth.isSome) = false ∧ ({ base with now := 999999 } : State).now < 900000 + 100 * 1000 ∧
    (small.zone 2).any (fun zd => zd.severity == .stop) = true ∧ base.calm :=
  ⟨fun _ _ _ => rfl, by decide, by decide +kernel, by decide +kernel, by decide, by decide +kernel, calm_of_maintenance rfl⟩
theorem witness_BrakeProofsAndTimers :
    tget base.proofs 2 ≠ true ∧ base.map.brakeOf 2 = some 2 ∧ base.map.brakeOf 3 = some 2 ∧
    (∃ d, base.map.zone 2 = some d ∧ d.element = .brake 2 3 800) ∧
    (∀ st : BrakeState, (withElement 2 (.brake st .openRun) base).ride.element? 2 = some (.brake st .openRun)) ∧ base.calm ∧
    (900000 : Nat) ≤ base.now + 0 ∧ base.now + 0 < 1000001 ∧
    opening2.ride.occupant? 2 = some 0 ∧ opening2.ride.element? 2 = some (.brake (.opening 2000000) .openRun) ∧
    (∃ x, opening2.ride.train? 0 = some x ∧ x.head = 2 ∧ x.phase = .held ∧ x.chain = [3]) ∧ opening2.ride.claim? 3 = some (.reserved 0) ∧
    tget (tput opening2.proofs 2 true) 2 = true ∧ tget (tput opening2.proofs 2 true) 3 = false :=
  ⟨by decide +kernel, by decide +kernel, by decide +kernel, ⟨_, rfl, rfl⟩, fun _ => rfl, calm_of_maintenance rfl, by decide, by decide,
    by decide +kernel, by decide +kernel, ⟨_, rfl, rfl, rfl, rfl⟩, by decide +kernel, by decide +kernel, by decide +kernel⟩
/-- Proven OPEN on the release allowance the train RUNs; proven CLOSED before that, its chain is returned (R61, R132). -/
theorem proofs_move_the_train :
    ((after (.brakeProofChange 0 2 true) opening2).ride.train? 0).map (fun y => (y.phase, y.deadline)) =
      some (.running, some { kind := .journey, start := 1000000, duration := 15000, early := none }) ∧
    ((after (.brakeProofChange 0 3 true) (withElement 2 (.brake (.closing 2000000) .close) opening2)).ride.train? 0).map (·.chain) =
      some [] ∧
    (after (.brakeProofChange 0 3 true) (withElement 2 (.brake (.closing 2000000) .close) opening2)).ride.claim? 3 = some .clear := by
  decide +kernel
theorem witness_SwitchProofsAndTimers :
    tget base.proofs 16 ≠ true ∧ base.map.brakeOf 16 = none ∧ (∃ d, base.map.switchOf 16 = some (0, d) ∧
      tget (tput base.proofs 16 true) d.proofA = true ∧ tget (tput base.proofs 16 true) d.proofB = false) ∧
    (∀ pos : SwitchPos, (withSwitch 0 { pos, pending := none, committed := none, role := .diverge none .b } (latch base)).ride.switch? 0 =
      some { pos, pending := none, committed := none, role := .diverge none .b }) ∧
    (latch base).ride.latched = true := by
  refine ⟨by decide +kernel, by decide +kernel, ⟨_, rfl, by decide +kernel⟩, fun _ => rfl, by decide +kernel⟩
/-- A switch moving to A with each pending request, its zone CLEAR and taken, outside AUTO and with no presentation; one locked and one
in FAULT, and the levels that lock it, fault it and leave it. -/
theorem witness_SwitchProofsAndTimers_pending :
    (∀ (pos : SwitchPos) (p : Option (Side × MoveSource)) (zone : Claim),
      (∃ x, (claimAt (0, zone) (withSwitch 0 { pos, pending := p, committed := none, role := .diverge none .b } base)).ride.switch? 0 =
        some x ∧ x.pos = pos ∧ x.pending = p ∧ ∀ reqA reqB arb served, x.role ≠ .merge reqA reqB arb served) ∧
      (claimAt (0, zone) (withSwitch 0 { pos, pending := p, committed := none, role := .diverge none .b } base)).calm) ∧
    (∀ zone : Claim, (claimAt (0, zone) base).ride.claim? 0 = some zone) ∧ (∀ k, base.ride.presented? k = none) ∧
    (∃ d, small.switch 0 = some d ∧ ∀ a b : Bool, tget (tput (tput base.proofs 17 b) 16 a) d.proofA = a ∧
      tget (tput (tput base.proofs 17 b) 16 a) d.proofB = b ∧ tget (tput base.proofs 17 b) 16 ≠ true) :=
  ⟨fun _ _ _ => ⟨⟨_, rfl, rfl, rfl, nofun⟩, calm_of_maintenance rfl⟩, fun _ => rfl, by decide +kernel, _, rfl, by decide +kernel⟩
/-- A merge switch that faults while its arbiter aligns it keeps its requests, and not the arbiter's own pending request (R111, R116). -/
theorem test_fault_keeps_requests :
    ((after (.moveTimerExpiry 0 1) (withSwitch 1
      { mergeWith (.moving .a 1000000) none (some 3) (.aligning .b) .a with pending := some (.b, .arbiter) } base)).ride.switch? 1) =
      some (mergeWith (.fault .moveTimeout) none (some 3) .idle .a) := by decide +kernel
theorem witness_DriveSteps :
    (∀ x : Channel, ({ base with ride := base.ride.putChannel 0 x } : State).ride.channel? 0 = some x) ∧
    base.map.drive 0 = some smallDrive ∧ base.calm ∧ (latch base).calm ∧ smallDrive.profile = .ramp ∧ (latch base).ride.latched = true ∧
    (1000000 : Nat) ≤ base.now + 0 ∧ base.now + 0 < 1000001 ∧
    (∀ cmd, ElementCommand.codeOn cmd smallDrive = match cmd with | .close => 0 | .openRun => 1600 | .openCreep => 250) ∧
    (withElement 1 (.drive .opening .openCreep) (withTrain (trainAt .held 1) [(1, .occupied 0)] base)).ride.occupant? 1 = some 0 ∧
    (withElement 1 (.drive .opening .openCreep) (withTrain (trainAt .held 1) [(1, .occupied 0)] base)).ride.element? 1 =
      some (.drive .opening .openCreep) :=
  ⟨fun _ => rfl, by decide +kernel, calm_of_maintenance rfl, calm_of_maintenance rfl, rfl, by decide +kernel, by decide, by decide,
    fun cmd => by cases cmd <;> rfl, by decide +kernel, by decide +kernel⟩

/-! ### Function inputs, stations, the transit timer -/

/-- The small circuit with input 6 an unfiltered ZONE_HOLD of zone 2. -/
def zoneHoldAtOnce : State := { base with map := { small with inputs := tput small.inputs 6 (some (inputOf (.zoneHold 2) false)) } }
theorem witness_FunctionInputs :
    tget base.inputs.high 4 ≠ true ∧ base.inputs.phase = .running ∧ base.map.input 4 = some (inputOf .estop true) ∧
    tget base.inputs.changes 4 = none ∧ base.map.input 6 = some (inputOf .estop false) ∧
    zoneHoldAtOnce.map.input 6 = some (inputOf (.zoneHold 2) false) ∧ (base.ride.zone? 2).isSome = true ∧
    tget ({ base with inputs := { base.inputs with changes := tput base.inputs.changes 5 (some 980000) } } : State).inputs.changes 5 =
      some 980000 ∧ 980000 + 20000 ≤ base.now + 0 ∧ base.now + 0 < 980001 + 20000 ∧
    base.map.input 5 = some (inputOf (.zoneHold 2) true) ∧ tget base.inputs.filtered 5 ≠ true ∧
    tget ({ base with inputs := { base.inputs with filtered := tput base.inputs.filtered 5 true } } : State).inputs.filtered 5 = true ∧
    (∃ due, ({ base with inputs := { base.inputs with phase := .waiting 1000000 } } : State).inputs.phase = .waiting due ∧
      due ≤ base.now + 0) ∧
    tget (tput base.inputs.high 4 true) 4 = (inputOf .estop true).activeHigh := by
  refine ⟨?_, ?_, ?_, ?_, ?_, ?_, ?_, ?_, ?_, ?_, ?_, ?_, ?_, ⟨_, rfl, ?_⟩, ?_⟩ <;> decide +kernel
/-- A ZONE_HOLD input taken at once, the last of its zone, becomes inactive. -/
theorem witness_FunctionInputs_release :
    tget (tput base.inputs.high 6 true) 6 ≠ false ∧ tget base.inputs.changes 6 = none ∧ (false : Bool) ≠ (inputOf (.zoneHold 2) false).activeHigh ∧
    (after (.functionInputRawChange 0 6 false)
      { zoneHoldAtOnce with inputs := { base.inputs with high := tput base.inputs.high 6 true } }).ctx.anyActive (.zoneHold 2) = false := by
  decide +kernel
/-- A change of input `i` of the small circuit, due now, toward `high`, with the station as given. -/
def inputDue (i : InputIx) (high : Bool) (x : StationRec) (s : State) : State :=
  { withStation x s with
    inputs := { s.inputs with filtered := tput s.inputs.filtered i !high, changes := tput s.inputs.changes i (some 980000) } }
theorem witness_StationInputs :
    (∀ (i : InputIx) (high : Bool), i.val < 4 → ∀ x ∈ [StationRec.mk .ready (.timing .a 5), .mk .loading .armed, .mk (.releasing false) .spent,
        .mk (.pending .link 5) (.expired .a)],
      (inputDue i high x base).inputs.phase = .running ∧ (∃ d, small.input i = some d ∧ d.activeHigh = true) ∧
      tget (inputDue i high x base).inputs.changes i = some 980000 ∧ 980000 + 20000 ≤ (inputDue i high x base).now + 0 ∧
      (inputDue i high x base).ride.station? 0 = some x ∧ tget (inputDue i high x base).inputs.filtered i = !high) ∧
    small.station 0 = some smallStation ∧ smallStation.authority ≠ .link ∧ base.calm ∧
    (∃ due, ({ base with inputs := { base.inputs with phase := .waiting 1000000 } } : State).inputs.phase = .waiting due ∧
      due ≤ base.now + 0) ∧
    (∀ x : StationRec, (withStation x base).ride.station? 0 = some x) ∧ (1000000 : Nat) ≤ base.now + 0 ∧ base.now + 0 < 1000001 := by
  refine ⟨?_, by decide +kernel, by decide, calm_of_maintenance rfl, ⟨_, rfl, by decide⟩, fun _ => rfl, by decide, by decide⟩
  intro i high hi x hx
  refine ⟨rfl, ?_, ?_, ?_, ?_, ?_⟩
  · have : ∀ i : InputIx, i.val < 4 → ((small.input i).any (·.activeHigh)) = true := by decide +kernel
    simpa [Option.any_eq_true] using this i hi
  all_goals (revert i high x; decide +kernel)
/-- The station's inputs with the filter OFF: a change taken at once. -/
def unfilteredInputs (s : State) : State :=
  let inputs := tgen fun i => (small.input i).map fun d => { d with filtered := false }
  { s with map := { small with inputs } }
theorem witness_StationInputs_atOnce :
    (∀ (i : InputIx) (high : Bool), i.val < 4 → ∀ x ∈ [StationRec.mk .ready (.timing .a 5), .mk .loading .armed, .mk (.releasing false) .spent,
        .mk (.pending .link 5) (.expired .a)],
      (withStation x (unfilteredInputs base)).inputs.phase = .running ∧
      ((withStation x (unfilteredInputs base)).map.input i).any (fun d => d.activeHigh && !d.filtered) = true ∧
      tget (tput base.inputs.high i !high) i ≠ high ∧ tget (withStation x (unfilteredInputs base)).inputs.changes i = none ∧
      (withStation x (unfilteredInputs base)).ride.station? 0 = some x) ∧
    (unfilteredInputs base).map.station 0 = some smallStation ∧ (unfilteredInputs base).calm ∧
    ∀ z, ∀ zd ∈ small.zone z, zd.station = some 0 → zd.kind = .station :=
  ⟨by decide +kernel, by decide +kernel, calm_of_maintenance rfl, witness_DispatchAndCancel_ready⟩
/-- A pair formed in time in AUTO makes a READY station PENDING from the buttons (R148, R150). -/
theorem pair_makes_pending :
    ((after (.functionInputChange 0 3) (atMode .auto (inputDue 3 true { state := .ready, pairing := .timing .a 1400000 } base))).ride.station? 0) =
      some { state := .pending .buttons 31000000, pairing := .spent } := by decide +kernel
theorem witness_JourneyDeadline :
    (∀ d ∈ smallZones, d.inRange = true) ∧ (∃ d ∈ smallZones, d.transit = .predicted) ∧ (0 : Nat) ≤ 500000 ∧ (11 : Nat) ≤ 11 ∧
    (11 : Nat) ≤ 65535 := by decide +kernel
theorem witness_SpeedsAndBounds :
    (1 : Nat) ≤ 500000 - 499999 ∧ (16777215 : Nat) - 0 ≤ 16777215 ∧ (16777215 : Nat) < 16777216 - 0 ∧ (5 : Nat) - 5 = 0 ∧
    (∀ gate ∈ [200, 4000], ∀ interval ∈ [1, 16777215], 200 ≤ gate ∧ gate ≤ 4000 ∧ 1 ≤ interval ∧ interval ≤ 16777215) ∧
    (∃ d ∈ smallZones, d.inRange = true ∧ d.maxSpeed = 65535 ∧ d.minSpeed = 0) ∧
    (∃ d ∈ smallZones, d.transit = .timed) ∧ (∃ d ∈ smallZones, d.transit = .predicted) ∧
    ({ zoneAt .run .none 1 0 with maxSpeed := 15000, minSpeed := 8000 } : ZoneDesc).inRange = true ∧ (255 : Nat) ≤ 255 := by
  decide +kernel

end Sys2Proof.Tests
end

section
/-! PROOF. DESELECT takes one zone out of the set of the open selection and leaves the selection open (R45). -/

namespace Sys2Proof.Machine

/-- Outside CONFIG, a zone command with a valid argument that names a zone of the map is its own rule on that zone (Table 2-6). -/
theorem zoneCommand_named {s : State} {f : Frame} {z : ZoneIx} {d : ZoneDesc} (hmode : s.mode ≠ .config)
    (hzone : s.map.zoneNamed f.obj.toNat = some (z, d)) (own : ZoneIx → State → Result × State) :
    zoneCommand f true own s = own z s := by
  simp [zoneCommand, objectOf, hmode, hzone]

/-- Outside CONFIG, a command that needs a selection is its own rule on the open one (Table 2-6). -/
theorem selectionCommand_open {s : State} {sel : Selection} (hmode : s.mode ≠ .config) (hsel : s.selection = some sel)
    (own : Selection → State → Result × State) : selectionCommand own s = own sel s := by
  simp [selectionCommand, hmode, hsel]

/-- The selection after DESELECT of zone `z`: its first zone stays recorded, whatever becomes of the set (R45). -/
def Selection.without (sel : Selection) (z : ZoneIx) : Selection := { sel with zones := sel.zones.filter (· ≠ z) }

theorem Selection.mem_without_zones {sel : Selection} {z y : ZoneIx} : y ∈ (sel.without z).zones ↔ y ∈ sel.zones ∧ y ≠ z := by
  simp [Selection.without]

/-- A zone outside the set leaves it unchanged. -/
theorem Selection.without_zones_of_not_mem {sel : Selection} {z : ZoneIx} (h : z ∉ sel.zones) : (sel.without z).zones = sel.zones :=
  List.filter_eq_self.mpr fun _ hy => decide_eq_true (ne_of_mem_of_not_mem hy h)

/-- DESELECT's own rule, past the common checks: DONE, and the selection alone is changed. -/
theorem deselectRule_named {s : State} {f : Frame} {z : ZoneIx} {d : ZoneDesc} {sel : Selection} (hmode : s.mode ≠ .config)
    (hsel : s.selection = some sel) (hzone : s.map.zoneNamed f.obj.toNat = some (z, d)) :
    deselectRule f s = (.done, { s with selection := some (sel.without z) }) := by
  unfold deselectRule
  rw [selectionCommand_open hmode hsel, zoneCommand_named hmode hzone]
  rfl

/-- A DESELECT that is taken and passes the checks is answered DONE after its rule's effect; an open selection is not discarded
with the frame (R47). -/
theorem execDeselect_named {s : State} {dt : Nat} {f : Frame} {z : ZoneIx} {d : ZoneDesc} {sel : Selection} (htakes : s.takes)
    (hmode : s.mode ≠ .config) (hsel : s.selection = some sel) (hzone : s.map.zoneNamed f.obj.toNat = some (z, d)) :
    execDeselect dt f s =
      .next (({ (s.advance dt).beforeCommand .keeping with selection := some (sel.without z) } : State).respond false .done .nothing) := by
  have hbefore := beforeCommand_keeping (s := s.advance dt) (cls := .keeping) rfl
  have hrule : deselectRule f ((s.advance dt).beforeCommand .keeping) =
      (.done, { (s.advance dt).beforeCommand .keeping with selection := some (sel.without z) }) := by
    rw [hbefore]
    exact deselectRule_named hmode hsel hzone
  unfold execDeselect
  rw [takeFrame_taken (s := s.advance dt) htakes, hrule]
  rfl

/-- Settles O40: DESELECT filters the named zone out of the set, and the answer changes the link alone. -/
theorem deselectRemovesZone : Obligations.DeselectRemovesZone := by
  intro s dt f z d sel htakes hmode hsel hzone
  refine ⟨rfl, _, (sel.without z).zones, execDeselect_named htakes hmode hsel hzone, respond_answered _ _ _ _,
    fun _ => Selection.mem_without_zones, Selection.without_zones_of_not_mem, ?_⟩
  rw [beforeCommand_keeping rfl]
  exact respond_eq _ _ _ _

end Sys2Proof.Machine
end

section
/-! PROOF. The journey deadline: the model's rounded-up quotient is characterised once, and the stages of R99 follow from it. -/

namespace Sys2Proof.Machine

/-- The model's rounded-up quotient is Mathlib's, for a positive divisor. -/
theorem ceilDiv_eq_natCeilDiv (a : Nat) {b : Nat} (hb : 0 < b) : ceilDiv a b = a ⌈/⌉ b := by
  rw [Nat.ceilDiv_eq_add_pred_div, Nat.add_sub_assoc hb]
  rfl

/-- The quotient rounded up is the least whole number whose product with the divisor reaches the dividend. -/
theorem ceilDiv_le_iff {a b n : Nat} (hb : 0 < b) : ceilDiv a b ≤ n ↔ a ≤ n * b := by
  rw [ceilDiv_eq_natCeilDiv a hb, ceilDiv_le_iff_le_mul hb, Nat.mul_comm]

theorem le_ceilDiv_mul (a : Nat) {b : Nat} (hb : 0 < b) : a ≤ ceilDiv a b * b := (ceilDiv_le_iff hb).mp le_rfl

/-- The predicted transit of a run length and a speed in range fits its bound: 45,454,546 times 11 reaches 500,000,000 (R99). -/
theorem predictedTransit_le {run v : Nat} (hrun : run ≤ 500000) (hv : 11 ≤ v) : predictedTransit run v ≤ 45454546 := by
  refine (ceilDiv_le_iff (by omega)).mpr ?_
  calc run * 1000 ≤ 45454546 * 11 := by omega
    _ ≤ 45454546 * v := Nat.mul_le_mul_left _ hv

theorem le_clampTo {lo hi : Nat} (h : lo ≤ hi) (v : Nat) : lo ≤ clampTo lo hi v := le_min (le_max_right v lo) h

theorem clampTo_le (lo hi v : Nat) : clampTo lo hi v ≤ hi := min_le_right _ _

theorem within_eq_true_iff {lo hi v : Nat} : within lo hi v = true ↔ lo ≤ v ∧ v ≤ hi := by simp [within]

/-- The ranges of Table 1-2 on the durations that a journey deadline is taken from. -/
structure ZoneDesc.JourneyRanges (d : ZoneDesc) : Prop where
  tmin : 100 ≤ d.tmin
  order : d.tmin ≤ d.tmax
  tmax : d.tmax ≤ 600000
  release : 500 ≤ d.release ∧ d.release ≤ 600000

theorem ZoneDesc.journeyRanges_of_inRange {d : ZoneDesc} (h : d.inRange = true) : d.JourneyRanges := by
  simp only [ZoneDesc.inRange, Bool.and_eq_true, within_eq_true_iff, decide_eq_true_eq] at h
  obtain ⟨⟨⟨⟨⟨⟨-, htmin⟩, htmax⟩, hrelease⟩, -⟩, horder⟩, -⟩ := h
  exact ⟨htmin.1, horder, htmax.2, hrelease⟩

theorem ZoneDesc.journey_duration_timed {d : ZoneDesc} (h : d.transit = .timed) (run v : Nat) : (d.journey run v).1 = d.release := by
  simp [journey, h]

theorem ZoneDesc.journey_duration_predicted {d : ZoneDesc} (h : d.transit = .predicted) (run v : Nat) :
    (d.journey run v).1 = clampTo d.tmin d.tmax (lateBound (predictedTransit run v) d.slack d.margin) := by
  simp [journey, h]

/-- Every duration the transit timer hands the train table is within 100 to 600,000 ms: the clamp's limits or the release
allowance give it (R99, R101). -/
theorem ZoneDesc.JourneyRanges.duration {d : ZoneDesc} (hd : d.JourneyRanges) (run v : Nat) :
    100 ≤ (d.journey run v).1 ∧ (d.journey run v).1 ≤ 600000 := by
  cases hmode : d.transit with
  | timed =>
    rw [journey_duration_timed hmode]
    exact ⟨le_trans (by decide) hd.release.1, hd.release.2⟩
  | predicted =>
    rw [journey_duration_predicted hmode]
    exact ⟨hd.tmin.trans (le_clampTo hd.order _), (clampTo_le _ _ _).trans hd.tmax⟩

/-- Settles O59: the two quotients are least by `ceilDiv_le_iff`, and the clamp keeps the deadline between Tmin and Tmax. -/
theorem journeyDeadline : Obligations.JourneyDeadline := by
  intro d run v hinRange hrun hv
  have hd := ZoneDesc.journeyRanges_of_inRange hinRange
  have hpos : 0 < v := by omega
  refine ⟨fun hmode => ?_, hd.duration run v⟩
  rw [ZoneDesc.journey_duration_predicted hmode]
  refine ⟨predictedTransit_le hrun hv, le_ceilDiv_mul _ hpos, fun n => (ceilDiv_le_iff hpos).mpr,
    lateBound (predictedTransit run v) d.slack d.margin, ?_, Nat.le_add_left _ _, fun n hn => ?_, rfl, le_clampTo hd.order _,
    clampTo_le _ _ _⟩
  · rw [lateBound, Nat.add_sub_cancel]
    exact le_ceilDiv_mul _ (by decide)
  · exact Nat.add_le_add_right ((ceilDiv_le_iff (by decide)).mpr hn) d.margin

end Sys2Proof.Machine
end

section
/-! PROOF. What a command can do to the state, said once: each command, after its time has passed, takes the state through a
sequence of effects (`Effect`), each on one block's records; what it does to the records of the ride is one of the operations
of `RideOp`, concluded. Every claim about all commands is then proved on the effects alone. -/

namespace Sys2Proof.Machine

/-- An operation on the ride that command `i` makes in state `s`, before the step is concluded. -/
inductive RideOp (i : Instr) (s : State) : Ride → Prop
  | hold {dt f} (who : i = .hold dt f) (inUse : s.mode ≠ .loading ∧ s.mode ≠ .config) (z : ZoneIx) :
      RideOp i s (addHold s.ctx z .link s.ride)
  | release {dt f} (who : i = .releaseHold dt f) (inUse : s.mode ≠ .loading ∧ s.mode ≠ .config) (z : ZoneIx) (src : HoldSource) :
      RideOp i s (removeHold z src s.ride)
  | apply {dt f} (who : i = .applySelection dt f) (inUse : s.mode ≠ .loading ∧ s.mode ≠ .config) (zones : List ZoneIx) (hold : Bool) :
      RideOp i s (holdZones s.ctx zones hold s.ride)
  | stop {dt f} (who : i = .rideStop dt f) : RideOp i s (s.ride.report .link)
  | resume {dt f} (who : i = .resume dt f) (inUse : s.mode ≠ .loading ∧ s.mode ≠ .config) (latched : s.ride.latched = true)
      (free : s.resumeBarred = false) : RideOp i s { s.ride with causes := 0#11 }
  | clearZone {dt f} (who : i = .clearFaultZone dt f) (inUse : s.mode ≠ .loading ∧ s.mode ≠ .config) (z : ZoneIx) :
      RideOp i s (clearZoneFault z s.ride)
  | clearElement {dt obj} (who : i = .clearFaultElement dt obj) (inUse : s.mode ≠ .loading ∧ s.mode ≠ .config) (z : ZoneIx)
      (faulted : s.ride.elementFaulted z = true) : RideOp i s (brakeBecomes s.ctx z .closed .close s.ride)
  | clearSwitch {dt obj} (who : i = .clearFaultSwitch dt obj) (inUse : s.mode ≠ .loading ∧ s.mode ≠ .config) (w : SwitchIx)
      (side : Side) : RideOp i s (lockSwitch s.ctx w side s.ride)
  | dispatch {dt f} (who : i = .dispatch dt f) (st : StationIx) (e : StationEvent) (free : s.ride.latched = false) :
      RideOp i s (stationEvent s.ctx st e s.ride)
  | cancel {dt f} (who : i = .cancelDispatch dt f) (st : StationIx) : RideOp i s (stationEvent s.ctx st .cancel s.ride)
  | move {dt f} (who : i = .moveSwitch dt f) (w : SwitchIx) (side : Side) : RideOp i s (requestMove s.ctx w side .link s.ride)
  | admitted {dt f} (who : i = .admitTrain dt f) (mode : s.mode = .maintenance) (t : SlotIx) (z : ZoneIx) (d : ZoneDesc) (label : Nat)
      (lo : 1 ≤ label) (hi : label ≤ 255) (zone : s.map.zone z = some d) (fresh : s.ride.labelUsed label = false)
      (room : s.ride.trainCount < s.map.admissionLimit) (free : s.ride.freeIx = some t) (can : s.canAdmit z d = true) :
      RideOp i s (admitAt s.ctx t z label s.ride)
  | retire {dt f} (who : i = .retire dt f) (mode : s.mode = .maintenance) (t : SlotIx) (x : Train) (train : s.ride.train? t = some x) :
      RideOp i s (retireTrain s.ctx t s.ride)
  | step {dt f} (who : i = .stepTrain dt f) (mode : s.mode = .maintenance) (t : SlotIx) (x : Train) (chain : List ZoneIx)
      (train : s.ride.train? t = some x) (can : stepChain s.ctx s.ride t x = some chain) :
      RideOp i s (takeStep s.ctx t x chain s.ride)
  | event {dt line} (who : i = .trackSensorEdge dt line ∨ ∃ high, i = .trackSensorRawChange dt line high) (b : BoundaryIx) (d : BoundaryDesc) (stamp : Nat)
      (e : PassageEvent) (boundary : s.map.boundary b = some d) (record : (tget s.bounds b).isSome = true) :
      RideOp i s (handEvent s.ctx b d stamp e s.ride)
  | berth {dt line} (who : i = .trackSensorEdge dt line ∨ ∃ high, i = .trackSensorRawChange dt line high) (z : ZoneIx) :
      RideOp i s (onBerth s.ctx z s.ride)
  | derive {dt} (who : i = .trackFilterStart dt) (levels : Vector Bool 128) :
      RideOp i s (overAll (fun (b : BoundaryIx) r =>
        match s.map.boundary b with
        | some d => if d.covered levels then boundaryFaulted s.ctx d r else r
        | none => r) s.ride)
  | stall {dt b} (who : i = .gateStall dt b) (d : BoundaryDesc) (dir : Direction) : RideOp i s (onStall s.ctx d dir s.ride)
  | journey {dt t} (who : i = .journeyDeadlineExpiry dt t) : RideOp i s (onJourneyExpiry s.ctx t s.ride)
  | stopping {dt t} (who : i = .stopDeadlineExpiry dt t) : RideOp i s (onStopExpiry s.ctx t s.ride)
  | proof {dt line high} (who : i = .brakeProofChange dt line high ∨ i = .switchProofChange dt line high) :
      RideOp i s (proofTaken s.ctx line s.ride)
  | proofTimer {dt z} (who : i = .proofTimerExpiry dt z) : RideOp i s (proofExpiry s.ctx z s.ride)
  | moveTimer {dt w} (who : i = .moveTimerExpiry dt w)
      (due : (s.ride.switch? w).any (fun x => x.pos.moveDue.any s.reached) = true) : RideOp i s (faultSwitch w .moveTimeout s.ride)
  | drive {dt ch} (who : i = .driveStep dt ch) : RideOp i s (channelStep s.ctx ch s.ride)
  | input {dt j} (who : i = .functionInputChange dt j ∨ ∃ high, i = .functionInputRawChange dt j high) (f : InputFunction) (on : Bool) :
      RideOp i s (functionChange s.ctx f on s.ride)
  | levels {dt} (who : i = .functionInputStart dt) :
      RideOp i s (overAll (fun (st : StationIx) r => stationFound s.ctx st r)
        (overAll (fun (j : InputIx) r => inputFound s.ctx j r) s.ride))
  | wait {dt st} (who : i = .dispatchWaitExpiry dt st) : RideOp i s (stationEvent s.ctx st .cancel s.ride)

/-- One effect of command `i` on the state. None passes time or touches the queue. -/
inductive Effect (i : Instr) (s : State) : State → Prop
  | link (l : Link) (bytes : List Byte) (n : Nat)
      (ok : ∀ ref, l.heard.2 = .awaitingBlock ref → s.link.heard.2 = .awaitingBlock ref ∨ s.mode = .config) :
      Effect i s { s with link := l, dataOut := bytes, answers := n }
  | resetLine : Effect i s { s with resetLine := false }
  | raise (n : Notice) : Effect i s { s with ride := s.ride.raise n }
  | selection (sel : Option Selection) (ok : sel.isSome = true → keepsSelection i = true ∧ s.mode ≠ .loading ∧ s.mode ≠ .config) :
      Effect i s { s with selection := sel }
  | sent {dt} (who : i = .noticeBlockSent dt) (snapshot : BitVec 12) :
      Effect i s { s with ride := { s.ride with notices := s.ride.notices &&& ~~~snapshot } }
  | report (x : Report) : Effect i s { s with report := x }
  | beginStore {dt f} (who : i = .storeMap dt f) : Effect i s s.beginStore
  | endStore {dt} (who : i = .storeComplete dt) (m : CircuitMap) (h : s.storing = some m) :
      Effect i s { s with storing := none, image := Image.written m }
  | write {dt kind len body crc} (who : i = .hostDataBlock dt kind len body crc) (ref : SlotRef) (m : CircuitMap)
      (awaited : s.link.heard.2 = .awaitingBlock ref) (h : s.map.write ref kind.toNat body = some m) : Effect i s { s with map := m }
  | reload {dt f} (who : i = .reloadMap dt f) (mode : s.mode = .config) : Effect i s { s with map := s.image.content }
  | routeMode {dt f} (who : i = .setRouteMode dt f) (w : SwitchIx) (d : SwitchDesc) (old new : RouteMode) (h : s.map.switch w = some d)
      (kind : d.kind = .diverge old) :
      Effect i s { s with map := { s.map with switches := tput s.map.switches w (some { d with kind := .diverge new }) } }
  | install {dt} (who : i = .load dt) (mode : s.mode = .loading) : Effect i s { s with map := s.image.content }
  | loadFails {dt} (who : i = .load dt) (mode : s.mode = .loading) :
      Effect i s { s with map := CircuitMap.vacant, mode := .config }
  | takeUp (who : (∃ dt f, i = .setMode dt f) ∧ s.mode = .config ∧ s.link = .awaitingFrame ∨ (∃ dt, i = .load dt) ∧ s.mode = .loading)
      (pass : s.map.validate.outcome = .pass) : Effect i s (Machine.takeUp s)
  | putAway {dt f} (who : i = .setMode dt f) (mode : s.mode = .maintenance) (empty : s.ride.trainCount = 0) :
      Effect i s (Machine.putAway s)
  | toAuto {dt f} (who : i = .setMode dt f) (mode : s.mode = .maintenance) :
      Effect i s (({ s with mode := .auto } : State).onRide fun _ r => r)
  | toMaintenance {dt f} (who : i = .setMode dt f) (mode : s.mode = .auto) :
      Effect i s (({ s with mode := .maintenance } : State).onRide cancelDemands)
  | sensors (x : Sensors) (ok : s.sensors.phase = .off → x.phase = .off) : Effect i s { s with sensors := x }
  | inputs (x : Inputs) (ok : s.inputs.phase = .off → x.phase = .off) : Effect i s { s with inputs := x }
  | proofs (v : Vector Bool 96) : Effect i s { s with proofs := v }
  | bounds (v : Vector (Option BoundaryRec) 52)
      (none : s.sensors.phase = .off → ∀ b, tget s.bounds b = none → tget v b = none)
      (fault : ∀ b x cause, (∀ dt obj, i ≠ .clearFaultBoundary dt obj) → (∀ dt, i ≠ .trackFilterStart dt) →
        tget s.bounds b = some x → x.passage = .fault cause → ∃ y, tget v b = some y ∧ y.passage = .fault cause) :
      Effect i s { s with bounds := v }
  | ride (r : Ride) (op : RideOp i s r) : Effect i s { s with ride := conclude s.ctx s.ride r }
  | window {dt st} (who : i = .pairWindowExpiry dt st) : Effect i s { s with ride := windowExpiry st s.ride }
  | direct {dt f} (who : i = .direct dt f) (inUse : s.mode ≠ .loading ∧ s.mode ≠ .config) (t : SlotIx) (x : Train)
      (d : Option (SwitchIx × Side)) (train : s.ride.train? t = some x) :
      Effect i s { s with ride := s.ride.putTrain t { x with directive := d } }

/-- A sequence of effects of command `i`. -/
def Effects (i : Instr) : State → State → Prop := Relation.ReflTransGen (Effect i)

variable {i : Instr} {s : State}

theorem Effects.refl (s : State) : Effects i s s := Relation.ReflTransGen.refl

theorem Effects.one {a b : State} (h : Effect i a b) : Effects i a b := Relation.ReflTransGen.single h

theorem Effects.trans {a b d : State} (h : Effects i a b) (k : Effects i b d) : Effects i a d := Relation.ReflTransGen.trans h k

theorem Effects.sensors_first {t : State} {x : Sensors} (h : Effects i { s with sensors := x } t)
    (ok : s.sensors.phase = .off → x.phase = .off) : Effects i s t := (Effects.one (.sensors x ok)).trans h

theorem Effects.inputs_first {t : State} {x : Inputs} (h : Effects i { s with inputs := x } t)
    (ok : s.inputs.phase = .off → x.phase = .off) : Effects i s t := (Effects.one (.inputs x ok)).trans h

/-- What every effect keeps, every sequence keeps. -/
theorem Effects.induct {a b : State} (P : State → Prop) (step : ∀ r r', Effect i r r' → P r → P r') (h : Effects i a b)
    (ha : P a) : P b := by
  induction h with
  | refl => exact ha
  | tail _ k ih => exact step _ _ k ih

/-- A sequence of effects that leave the bytes on the data output: what a command's own rule does. -/
def Deeds (i : Instr) : State → State → Prop := Relation.ReflTransGen fun a b => Effect i a b ∧ b.dataOut = a.dataOut

theorem Deeds.refl (s : State) : Deeds i s s := Relation.ReflTransGen.refl

theorem Deeds.one {a b : State} (h : Effect i a b) (same : b.dataOut = a.dataOut) : Deeds i a b :=
  Relation.ReflTransGen.single ⟨h, same⟩

theorem Deeds.trans {a b d : State} (h : Deeds i a b) (k : Deeds i b d) : Deeds i a d := Relation.ReflTransGen.trans h k

theorem Deeds.effects {a b : State} (h : Deeds i a b) : Effects i a b := by
  induction h with
  | refl => exact .refl a
  | tail _ k ih => exact ih.trans (.one k.1)

theorem Deeds.dataOut {a b : State} (h : Deeds i a b) : b.dataOut = a.dataOut := by
  induction h with
  | refl => rfl
  | tail _ k ih => exact k.2.trans ih

theorem onRide_deeds {f : Ctx → Ride → Ride} {r : Ride} (op : RideOp i s r) (h : f s.ctx s.ride = r) : Deeds i s (s.onRide f) :=
  .one (h.symm ▸ op |> Effect.ride _) rfl

theorem onRide_effects {f : Ctx → Ride → Ride} {r : Ride} (op : RideOp i s r) (h : f s.ctx s.ride = r) : Effects i s (s.onRide f) :=
  (onRide_deeds op h).effects

/-- The same for a rule's result. -/
theorem rule_deeds {res : Result} {f : Ctx → Ride → Ride} {r : Ride} (op : RideOp i s r) (h : f s.ctx s.ride = r) :
    Deeds i s (res, s.onRide f).2 := onRide_deeds op h

theorem onRideIf_effects {cond : Bool} {f : Ctx → Ride → Ride} (op : cond = true → RideOp i s (f s.ctx s.ride)) :
    Effects i s (s.onRideIf cond f) := by
  unfold State.onRideIf
  split
  · next h => exact onRide_effects (op h) rfl
  · exact .refl s

/-- The link alone changes, and awaits no host block that it did not await. -/
theorem link_effects (l : Link) (bytes : List Byte) (n : Nat) (h : ∀ ref, l.heard.2 ≠ .awaitingBlock ref) :
    Effects i s { s with link := l, dataOut := bytes, answers := n } :=
  .one (.link l bytes n fun ref k => absurd k (h ref))

/-! ### Frames -/

theorem frameTaken_effects : Effects i s s.frameTaken := link_effects .awaitingFrame s.frameBytes s.answers (by simp [Link.heard])

theorem beforeCommand_effects (cls : FrameClass) : Effects i s (s.beforeCommand cls) := by
  unfold State.beforeCommand
  split
  · exact (frameTaken_effects.trans (.one (.selection none (by simp)))).trans (.one (.raise .selectionDiscarded))
  · exact frameTaken_effects

theorem beforeCommand_link (cls : FrameClass) : (s.beforeCommand cls).link = .awaitingFrame := by
  unfold State.beforeCommand
  split <;> rfl

/-- A response that has been answered waits for a host block only where a write was accepted. -/
theorem respond_effects (m : Bool) (res : Result) (next : Follow) (h : ∀ ref, next = .awaitBlock ref → s.mode = .config) :
    Effects i s (s.respond m res next) := by
  rw [respond_eq]
  refine .one (.link _ s.dataOut _ fun ref k => .inr ?_)
  cases next with
  | awaitBlock slot => exact h slot rfl
  | _ => simp [Link.heard, Follow.link?] at k

/-- A frame's effects are those of its common handling and of its own rule. -/
theorem takeFrame_effects {cls : FrameClass} {own : State → Result × State} {next : Follow}
    (rule : ∀ a : State, (a.mode = .loading → cls.inLoading = true) → a.link = .awaitingFrame → Deeds i a (own a).2)
    (after : ∀ (a : State) ref, (own a).1 = .done → next = .awaitBlock ref → (own a).2.mode = .config) :
    Effects i s (s.takeFrame cls own next) := by
  unfold State.takeFrame
  split
  · exact .refl s
  · next cut _ =>
    have h1 : Effects i s (s.beforeCommand cls) := beforeCommand_effects cls
    dsimp only
    unfold State.answer
    split
    · exact h1.trans (respond_effects _ _ _ (by simp [Result.follow]))
    · split
      · exact h1.trans (respond_effects _ _ _ (by simp [Result.follow]))
      · next hm =>
        refine (h1.trans (rule _ (fun hl => ?_) (beforeCommand_link cls)).effects).trans (respond_effects _ _ _ fun ref hr => ?_)
        · simpa [hl] using hm
        · unfold Result.follow at hr
          split at hr
          · next hd => exact after _ ref hd hr
          · cases hr

/-- The same for a command that nothing but its response follows, or a block it sends. -/
theorem takeFrame_effects_plain {cls : FrameClass} {own : State → Result × State} {next : Follow}
    (after : ∀ ref, next ≠ .awaitBlock ref)
    (rule : ∀ a : State, (a.mode = .loading → cls.inLoading = true) → a.link = .awaitingFrame → Deeds i a (own a).2) :
    Effects i s (s.takeFrame cls own next) :=
  takeFrame_effects rule fun _ ref _ h => absurd h (after ref)

theorem failFrame_effects : Effects i s s.failFrame := by
  unfold State.failFrame
  split
  · exact .refl s
  · exact (frameTaken_effects.trans (.one (.raise .checkError))).trans (respond_effects _ _ _ (by simp))

/-! ### The rules of the commands -/

/-- A zone command beyond its checks is taken outside CONFIG on a zone of the map. -/
theorem zoneCommand_deeds {f : Frame} {ok : Bool} {own : ZoneIx → State → Result × State}
    (rule : ok = true → s.mode ≠ .config → ∀ z, Deeds i s (own z s).2) : Deeds i s (zoneCommand f ok own s).2 := by
  unfold zoneCommand
  split
  · exact .refl s
  · next hm =>
    split
    · exact .refl s
    · next ho =>
      split
      · exact .refl s
      · exact rule (by simpa using ho) hm _

theorem selectionCommand_deeds {own : Selection → State → Result × State}
    (rule : s.mode ≠ .config → ∀ sel, s.selection = some sel → Deeds i s (own sel s).2) : Deeds i s (selectionCommand own s).2 := by
  unfold selectionCommand
  split
  · exact .refl s
  · next hm =>
    split
    · exact .refl s
    · next sel hs => exact rule hm sel hs

section
variable {dt : Nat} {f : Frame} {obj : Byte}

theorem setModeRule_deeds (ha : s.link = .awaitingFrame) :
    Deeds (.setMode dt f) s (setModeRule f s).2 := by
  unfold setModeRule
  split
  · exact .refl s
  · split
    · exact .refl s
    · next target _ =>
      unfold changeMode
      split
      · exact .refl s
      · split
        · exact .refl s
        · exact .refl s
        · next hm _ _ =>
          split
          · exact .refl s
          · next hc => exact .one (.putAway rfl hm (by simpa using hc)) rfl
        · next hm _ _ =>
          unfold leaveConfig
          have h1 : Deeds (.setMode dt f) s { s with report := s.map.validate } := .one (.report _) rfl
          split
          · next hp => exact h1.trans (.one (.takeUp (.inl ⟨⟨dt, f, rfl⟩, hm, ha⟩) hp) rfl)
          · exact h1
        · next hm _ _ => exact .one (.toAuto rfl hm) rfl
        · next hm _ _ => exact .one (.toMaintenance rfl hm) rfl
        · exact .refl s

theorem storeRule_deeds : Deeds (.storeMap dt f) s (storeRule s).2 := by
  unfold storeRule
  have h1 : Deeds (.storeMap dt f) s s.validated := .one (.report _) rfl
  split
  · exact .refl s
  · split
    · exact .refl s
    · split
      · exact h1.trans (.one (.beginStore rfl) rfl)
      · exact h1

theorem reloadRule_deeds : Deeds (.reloadMap dt f) s (reloadRule s).2 := by
  unfold reloadRule
  split
  · exact .refl s
  · split
    · exact .refl s
    · next hm =>
      split
      · exact .one (.reload rfl (by simpa using hm)) rfl
      · exact .one (.raise _) rfl

theorem writeRule_unchanged (s : State) : (writeRule f s).2 = s := by
  unfold writeRule
  split
  · rfl
  · split
    · rfl
    · split
      · rfl
      · split <;> rfl

theorem writeRule_done {s : State} (h : (writeRule f s).1 = .done) : s.mode = .config := by
  unfold writeRule at h
  split at h
  · cases h
  · split at h
    · cases h
    · next hm => simpa using hm

theorem admitRule_deeds : Deeds (.admitTrain dt f) s (admitRule f s).2 := by
  unfold admitRule
  split
  · exact .refl s
  · next hm =>
    split
    · exact .refl s
    · next harg =>
      split
      · exact .refl s
      · next z d hz =>
        split
        · exact .refl s
        · next hlabel =>
          split
          · exact .refl s
          · next hroom =>
            split
            · exact .refl s
            · next t ht =>
              split
              · next hcan =>
                have hzone : s.map.zone z = some d := by
                  simp only [CircuitMap.zoneNamed, Option.bind_eq_some_iff, Option.map_eq_some_iff, Prod.mk.injEq] at hz
                  obtain ⟨_, _, _, hd, rfl, rfl⟩ := hz
                  exact hd
                exact rule_deeds (.admitted rfl (by simpa using hm) t z d _ (by omega) (by omega) hzone (by simpa using hlabel)
                  (by omega) ht hcan) rfl
              · exact .refl s

theorem trainNamed_spec {r : Ride} {n : Nat} {t : SlotIx} {x : Train} (h : r.trainNamed n = some (t, x)) :
    r.train? t = some x ∧ t.val = n := by
  simp only [Ride.trainNamed, Option.bind_eq_some_iff, Option.map_eq_some_iff, Prod.mk.injEq] at h
  obtain ⟨_, hi, _, hx, rfl, rfl⟩ := h
  exact ⟨hx, ixOf_val hi⟩

theorem retireRule_deeds : Deeds (.retire dt f) s (retireRule f s).2 := by
  unfold retireRule
  split
  · exact .refl s
  · next hm =>
    split
    · exact .refl s
    · next t x hx =>
      split
      · exact rule_deeds (.retire rfl (by simpa using hm) t x (trainNamed_spec hx).1) rfl
      · exact .refl s

theorem stepRule_deeds : Deeds (.stepTrain dt f) s (stepRule f s).2 := by
  unfold stepRule
  split
  · exact .refl s
  · next hm =>
    split
    · exact .refl s
    · next t x hx =>
      split
      · exact .refl s
      · next chain hc => exact rule_deeds (.step rfl (by simpa using hm) t x chain (trainNamed_spec hx).1 hc) rfl

theorem directRule_deeds (hl : s.mode ≠ .loading) : Deeds (.direct dt f) s (directRule f s).2 := by
  unfold directRule
  split
  · exact .refl s
  · next hm =>
    split
    · exact .refl s
    · split
      · exact .refl s
      · next t x hx =>
        have put : ∀ d, Deeds (.direct dt f) s { s with ride := s.ride.putTrain t { x with directive := d } } :=
          fun d => .one (.direct rfl ⟨hl, hm⟩ t x d (trainNamed_spec hx).1) rfl
        split
        · exact put none
        · split
          · exact put _
          · exact .refl s

theorem holdRule_deeds (hl : s.mode ≠ .loading) : Deeds (.hold dt f) s (holdRule f s).2 :=
  zoneCommand_deeds fun _ hm z => rule_deeds (.hold rfl ⟨hl, hm⟩ z) rfl

theorem releaseRule_deeds (hl : s.mode ≠ .loading) : Deeds (.releaseHold dt f) s (releaseRule f s).2 := by
  unfold releaseRule
  cases sourceOf (argumentOf f) with
  | none => exact zoneCommand_deeds fun h => by cases h
  | some src =>
    refine zoneCommand_deeds fun _ hm z => ?_
    have op : ∀ src, Deeds (.releaseHold dt f) s (s.onRide fun _ r => removeHold z src r) :=
      fun src => onRide_deeds (.release rfl ⟨hl, hm⟩ z src) rfl
    cases src with
    | input => exact .refl s
    | overdue =>
      unfold releaseSource
      dsimp only
      split
      · exact .refl s
      · exact op _
    | link => exact op _
    | rollback => exact op _

theorem selectFirstRule_deeds (hl : s.mode ≠ .loading) : Deeds (.selectFirst dt f) s (selectFirstRule f s).2 :=
  zoneCommand_deeds fun _ hm _ => .one (.selection _ fun _ => ⟨rfl, hl, hm⟩) rfl

theorem selectLastRule_deeds (hl : s.mode ≠ .loading) : Deeds (.selectLast dt f) s (selectLastRule f s).2 := by
  refine selectionCommand_deeds fun hm sel _ => zoneCommand_deeds fun _ _ z => ?_
  unfold extendSelection
  split
  · exact .refl s
  · exact .one (.selection _ fun _ => ⟨rfl, hl, hm⟩) rfl

theorem deselectRule_deeds (hl : s.mode ≠ .loading) : Deeds (.deselect dt f) s (deselectRule f s).2 :=
  selectionCommand_deeds fun hm _ _ => zoneCommand_deeds fun _ _ _ => .one (.selection _ fun _ => ⟨rfl, hl, hm⟩) rfl

theorem applyRule_deeds (hl : s.mode ≠ .loading) : Deeds (.applySelection dt f) s (applyRule f s).2 := by
  refine selectionCommand_deeds fun hm sel _ => ?_
  have apply : ∀ hold, Deeds (.applySelection dt f) s (applyZones sel hold s).2 := fun hold =>
    (Deeds.one (.selection none (by simp)) rfl).trans
      (rule_deeds (res := .done) (RideOp.apply (s := { s with selection := none }) rfl ⟨hl, hm⟩ sel.zones hold) rfl)
  split
  · exact apply true
  · exact apply false
  · exact .refl s

theorem rideStopRule_deeds : Deeds (.rideStop dt f) s (rideStopRule s).2 := rule_deeds (.stop rfl) rfl

theorem resumeRule_deeds (hl : s.mode ≠ .loading) : Deeds (.resume dt f) s (resumeRule s).2 := by
  unfold resumeRule
  split
  · exact .refl s
  · next hm =>
    split
    · exact .refl s
    · next hlatch =>
      split
      · exact .refl s
      · next hfree => exact rule_deeds (.resume rfl ⟨hl, hm⟩ (by simpa using hlatch) (by simpa using hfree)) rfl

theorem clearZoneRule_deeds (hl : s.mode ≠ .loading) : Deeds (.clearFaultZone dt f) s (clearZoneRule f s).2 := by
  refine zoneCommand_deeds fun _ hm z => ?_
  split
  · exact .refl s
  · exact rule_deeds (.clearZone rfl ⟨hl, hm⟩ z) rfl

theorem clearBoundaryRule_deeds : Deeds (.clearFaultBoundary dt obj) s (clearBoundaryRule obj s).2 := by
  unfold clearBoundaryRule
  split
  · exact .refl s
  · split
    · exact .refl s
    · next b d _ =>
      unfold clearBoundary
      split
      · exact .refl s
      · next x hx =>
        split
        · exact .refl s
        · split
          · exact .refl s
          · refine .one (.bounds _ (fun _ b' hb' => ?_) fun _ _ _ h => absurd rfl (h dt obj)) rfl
            rw [tget_tput]
            split
            · next e => rw [e, hx] at hb'; cases hb'
            · exact hb'

theorem clearElementRule_deeds (hl : s.mode ≠ .loading) : Deeds (.clearFaultElement dt obj) s (clearElementRule obj s).2 := by
  unfold clearElementRule
  split
  · exact .refl s
  · next hm =>
    split
    · exact .refl s
    · split
      · exact .refl s
      · unfold clearElement
        split
        · exact .refl s
        · next hf =>
          split
          · exact rule_deeds (.clearElement rfl ⟨hl, hm⟩ _ (by simpa using hf)) rfl
          · exact .refl s

theorem clearSwitchRule_deeds (hl : s.mode ≠ .loading) : Deeds (.clearFaultSwitch dt obj) s (clearSwitchRule obj s).2 := by
  unfold clearSwitchRule
  split
  · exact .refl s
  · next hm =>
    split
    · exact .refl s
    · split
      · exact .refl s
      · unfold clearSwitch
        split
        · exact .refl s
        · split
          · exact .refl s
          · split
            · exact .refl s
            · exact rule_deeds (.clearSwitch rfl ⟨hl, hm⟩ _ _) rfl

theorem dispatchRule_deeds : Deeds (.dispatch dt f) s (dispatchRule f s).2 := by
  unfold dispatchRule
  split
  · exact .refl s
  · split
    · exact .refl s
    · split
      · exact .refl s
      · split
        · exact .refl s
        · next free =>
          split
          · exact .refl s
          · exact rule_deeds (.dispatch rfl _ _ (by simpa using free)) rfl

theorem cancelRule_deeds : Deeds (.cancelDispatch dt f) s (cancelRule f s).2 := by
  unfold cancelRule
  split
  · exact .refl s
  · split
    · exact .refl s
    · split
      · exact .refl s
      · split
        · exact rule_deeds (.cancel rfl _) rfl
        · exact .refl s

theorem switchNamed_spec {m : CircuitMap} {n : Nat} {w : SwitchIx} {d : SwitchDesc} (h : m.switchNamed n = some (w, d)) :
    m.switch w = some d ∧ w.val = n := by
  simp only [CircuitMap.switchNamed, Option.bind_eq_some_iff, Option.map_eq_some_iff, Prod.mk.injEq] at h
  obtain ⟨_, hi, _, hd, rfl, rfl⟩ := h
  exact ⟨hd, ixOf_val hi⟩

theorem routeModeRule_deeds : Deeds (.setRouteMode dt f) s (routeModeRule f s).2 := by
  unfold routeModeRule
  split
  · exact .refl s
  · next w d hw =>
    split
    · next mode old _ hk => exact .one (.routeMode rfl w d old mode (switchNamed_spec hw).1 hk) rfl
    · exact .refl s

theorem moveSwitchRule_deeds : Deeds (.moveSwitch dt f) s (moveSwitchRule f s).2 := by
  unfold moveSwitchRule
  split
  · exact .refl s
  · split
    · exact .refl s
    · split
      · exact .refl s
      · split
        · exact .refl s
        · exact rule_deeds (.move rfl _ _) rfl

end

/-! ### The link's own steps -/

theorem noticesSent_effects (dt : Nat) : Effects (.noticeBlockSent dt) s s.noticesSent := by
  unfold State.noticesSent
  split
  · next bytes what _ =>
    split
    · next rest snapshot _ =>
      exact Effects.trans (link_effects .awaitingFrame (bytes ++ rest) s.answers (by simp [Link.heard])) (.one (.sent rfl snapshot))
    · exact .refl s
  · exact .refl s

theorem sendStreamBlock_effects : Effects i s s.sendStreamBlock := by
  unfold State.sendStreamBlock
  split
  · split
    · exact link_effects _ _ s.answers (by simp [Link.heard])
    · exact .refl s
  · exact .refl s

theorem finishStream_effects : Effects i s s.finishStream := by
  unfold State.finishStream
  split
  · split
    · exact .refl s
    · exact link_effects _ _ s.answers (by simp [Link.heard])
  · exact .refl s

theorem cutOff_effects : Effects i s s.cutOff := by
  unfold State.cutOff
  split
  · exact link_effects _ _ s.answers (by simp [Link.heard])
  · exact .refl s

theorem abandonWrite_effects : Effects i s s.abandonWrite := by
  unfold State.abandonWrite
  split
  · exact link_effects _ _ s.answers (by simp [Link.heard])
  · exact .refl s

theorem select_effects : Effects i s s.select := by
  unfold State.select
  split
  · split
    · exact Effects.trans (link_effects .awaitingFrame [] s.answers (by simp [Link.heard])) (.one .resetLine)
    · exact .refl s
  · exact .refl s

theorem accept_effects (answer : Byte) : Effects i s (s.accept answer) :=
  link_effects (.accepting _ answer) s.dataOut (s.answers + 1) (by simp [Link.heard])

/-- The bytes on the data output change alone. -/
theorem blockTaken_effects (owed : List Byte) (n : Nat) : Effects i s (s.blockTaken owed n) :=
  .one (.link s.link _ s.answers fun _ h => .inl h)

theorem takeBlock_effects (dt : Nat) (kind len : Byte) (body : List Byte) (crc : BitVec 16) :
    Effects (.hostDataBlock dt kind len body crc) s (s.takeBlock kind len body crc) := by
  have fails : ∀ a : State, Effects (.hostDataBlock dt kind len body crc) a a.blockFails :=
    fun a => Effects.trans (.one (.raise .checkError)) (accept_effects _)
  unfold State.takeBlock
  split
  · next owed ref hl =>
    split
    · exact (blockTaken_effects _ _).trans (fails _)
    · split
      · exact .refl s
      · split
        · exact (blockTaken_effects _ _).trans (fails _)
        · refine (blockTaken_effects owed (5 + len.toNat)).trans ?_
          unfold State.writeSlot
          split
          · next m hw =>
            exact Effects.trans (.one (.write rfl ref m (by exact congrArg Prod.snd hl) hw)) (accept_effects _)
          · exact accept_effects _
  · exact .refl s

theorem finishStore_effects (dt : Nat) : Effects (.storeComplete dt) s s.finishStore := by
  unfold State.finishStore
  split
  · next m hm => exact Effects.trans (.one (.endStore rfl m hm)) (.one (.raise .storeDone))
  · exact .refl s

theorem load_effects (dt : Nat) : Effects (.load dt) s s.load := by
  unfold State.load
  split
  · next h =>
    have h0 : Effects (.load dt) s { s with resetLine := false } := .one .resetLine
    have fails : ∀ x : Report, Effects (.load dt) { s with resetLine := false } (loadFails x { s with resetLine := false }) := fun x =>
      Effects.trans (.one (.report x)) (Effects.trans (.one (.loadFails rfl h.2)) (.one (.raise .loadFailed)))
    refine h0.trans ?_
    unfold loadImage
    split
    · dsimp only
      split
      · next hp =>
        exact Effects.trans (.one (.install rfl h.2)) (Effects.trans (.one (.report _)) (.one (.takeUp (.inr ⟨⟨dt, rfl⟩, h.2⟩) hp)))
      · exact fails _
    · exact fails _
  · exact .refl s

/-! ### The lines and the timers -/

/-- A boundary in FAULT stays there at every edge (R89). -/
theorem edge_fault (x : BoundaryRec) (rollback : Bool) (sensor : GateSensor) (rising : Bool) (stamp : Nat) (cause : BoundaryFault)
    (h : x.passage = .fault cause) : (x.edge rollback sensor rising stamp).1.passage = .fault cause := by
  simp [BoundaryRec.edge, Passage.edge, h]

/-- One boundary's record changes; a fault of it stays. -/
theorem putBound_effects {b : BoundaryIx} {x y : BoundaryRec} (hb : tget s.bounds b = some x)
    (fault : ∀ cause, x.passage = .fault cause → y.passage = .fault cause) : Effects i s { s with bounds := tput s.bounds b (some y) } := by
  refine .one (.bounds _ (fun _ b' hb' => ?_) fun b' x' cause _ _ hx' hf => ?_)
  · rw [tget_tput]
    split
    · next e => rw [e, hb] at hb'; cases hb'
    · exact hb'
  · rw [tget_tput]
    split
    · next e =>
      rw [e, hb] at hx'
      cases hx'
      exact ⟨y, rfl, fault cause hf⟩
    · exact ⟨x', hx', hf⟩

theorem gateOf_boundary {m : CircuitMap} {line : SensorLine} {b : BoundaryIx} {d : BoundaryDesc} {sensor : GateSensor}
    (h : m.gateOf line = some (b, d, sensor)) : m.boundary b = some d := by
  obtain ⟨b', -, hb'⟩ := List.exists_of_findSome?_eq_some h
  obtain ⟨d', hd', hs⟩ := Option.bind_eq_some_iff.mp hb'
  split at hs
  · cases hs; exact hd'
  · split at hs
    · cases hs; exact hd'
    · cases hs

section
variable {dt : Nat} {line : SensorLine}

theorem takeEdge_effects (who : i = .trackSensorEdge dt line ∨ ∃ high, i = .trackSensorRawChange dt line high) (l : SensorLine)
    (rising : Bool) (stamp : Nat) : Effects i s (takeEdge l rising stamp s) := by
  unfold takeEdge
  split
  · next b d sensor hg =>
    unfold takeGateEdge
    split
    · exact .refl s
    · next x hx =>
      have h1 := putBound_effects (i := i) (s := s) (y := (x.edge d.rollback sensor rising stamp).1) hx
        (edge_fault x d.rollback sensor rising stamp)
      dsimp only
      split
      · exact h1
      · next e _ => exact h1.trans (onRide_effects (.event who b d stamp e (gateOf_boundary hg) (by simp [tget_tput_same])) rfl)
  · split
    · next z _ =>
      split
      · exact onRide_effects (.berth who z) rfl
      · exact .refl s
    · exact .refl s

theorem produceEdge_effects (who : i = .trackSensorEdge dt line ∨ ∃ high, i = .trackSensorRawChange dt line high) (l : SensorLine)
    (stamp : Nat) : Effects i s (produceEdge l stamp s) := by
  unfold produceEdge
  exact (takeEdge_effects who l _ stamp).sensors_first fun h => h

theorem produceThrough_effects (who : i = .trackSensorEdge dt line ∨ ∃ high, i = .trackSensorRawChange dt line high) (l : SensorLine)
    (changes : List (SensorLine × Nat)) : Effects i s (produceThrough l changes s) := by
  induction changes generalizing s with
  | nil => exact .refl s
  | cons p rest ih =>
    unfold produceThrough
    split
    · exact produceEdge_effects who _ _
    · exact (produceEdge_effects who _ _).trans ih

theorem rawSensorChange_effects (high : Bool) : Effects (.trackSensorRawChange dt line high) s (rawSensorChange line high s) := by
  have who : (Instr.trackSensorRawChange dt line high = .trackSensorEdge dt line) ∨
      ∃ high', Instr.trackSensorRawChange dt line high = .trackSensorRawChange dt line high' := .inr ⟨high, rfl⟩
  unfold rawSensorChange
  split
  · exact .refl s
  · split
    · unfold filterChange
      extract_lets s0 src1 s1 src2 s2
      have h0 : Effects (.trackSensorRawChange dt line high) s s0 := by
        simp only [s0]
        split
        · split
          · exact produceThrough_effects who line _
          · exact .refl s
        · exact .refl s
      have h1 : Effects (.trackSensorRawChange dt line high) s s1 := h0.trans (.one (.sensors _ fun h => h))
      split
      · exact h1.trans (.one (.sensors _ fun h => h))
      · have h2 : Effects (.trackSensorRawChange dt line high) s s2 := h1.trans (.one (.sensors _ fun h => h))
        split
        · exact h2.trans (produceEdge_effects who line _)
        · exact h2
    · exact .one (.sensors _ (by exact id))

theorem takeDueEdge_effects : Effects (.trackSensorEdge dt line) s (takeDueEdge line s) := by
  unfold takeDueEdge
  split
  · exact produceEdge_effects (.inl rfl) line _
  · exact .refl s

end

theorem startTrackFilter_effects (dt : Nat) : Effects (.trackFilterStart dt) s (startTrackFilter s) := by
  unfold startTrackFilter
  split
  · next due hp =>
    split
    · extract_lets levels src s1
      have h1 : Effects (.trackFilterStart dt) s s1 :=
        Effects.sensors_first (x := { s.sensors with covered := levels, changes := [], phase := .running })
          (.one (.bounds _ (by simp) fun _ _ _ _ h => absurd rfl (h dt))) fun h => by rw [hp] at h; cases h
      exact h1.trans (onRide_effects (.derive rfl levels) rfl)
    · exact .refl s
  · exact .refl s

theorem reportStall_effects (dt : Nat) (b : BoundaryIx) : Effects (.gateStall dt b) s (reportStall b s) := by
  unfold reportStall
  split
  · next x d hx hd =>
    split
    · next dir start hp =>
      split
      · exact (putBound_effects hx fun cause h => by rw [hp] at h; cases h).trans (onRide_effects (.stall rfl d dir) rfl)
      · exact .refl s
    · exact .refl s
  · exact .refl s

theorem proofLineChange_effects {dt : Nat} {line : ProofLine} {high : Bool}
    (who : i = .brakeProofChange dt line high ∨ i = .switchProofChange dt line high) : Effects i s (proofLineChange line high s) := by
  unfold proofLineChange
  split
  · exact .refl s
  · exact Effects.trans (.one (.proofs _)) (onRide_effects (.proof who) rfl)

section
variable {dt : Nat} {j : InputIx}

theorem takeInputChange_effects (who : i = .functionInputChange dt j ∨ ∃ high, i = .functionInputRawChange dt j high) (k : InputIx)
    (d : InputDesc) (high : Bool) : Effects i s (takeInputChange k d high s) :=
  (onRide_effects (.input who d.function _) rfl).inputs_first fun h => h

theorem takeDueInput_effects (who : i = .functionInputChange dt j ∨ ∃ high, i = .functionInputRawChange dt j high) (k : InputIx) :
    Effects i s (takeDueInput k s) := by
  unfold takeDueInput
  split
  · split
    · exact takeInputChange_effects who k _ _
    · exact .refl s
  · exact .refl s

theorem rawInputChange_effects (high : Bool) : Effects (.functionInputRawChange dt j high) s (rawInputChange j high s) := by
  have who : (Instr.functionInputRawChange dt j high = .functionInputChange dt j) ∨
      ∃ high', Instr.functionInputRawChange dt j high = .functionInputRawChange dt j high' := .inr ⟨high, rfl⟩
  unfold rawInputChange
  split
  · exact .refl s
  · extract_lets s0 src s1
    have h1 : Effects (.functionInputRawChange dt j high) s s1 := (takeDueInput_effects who j).trans (.one (.inputs _ fun h => h))
    split
    · unfold filterInput
      split
      · exact h1.trans (takeInputChange_effects who j _ _)
      · exact h1.trans (.one (.inputs _ fun h => h))
    · exact h1

end

theorem startInputs_effects (dt : Nat) : Effects (.functionInputStart dt) s (startInputs s) := by
  unfold startInputs
  split
  · next hp =>
    split
    · exact (onRide_effects (.levels rfl) rfl).inputs_first fun h => by rw [hp] at h; cases h
    · exact .refl s
  · exact .refl s

theorem windowExpires_effects (dt : Nat) (st : StationIx) : Effects (.pairWindowExpiry dt st) s (s.windowExpires st) := by
  unfold State.windowExpires
  split
  · exact .one (.window rfl)
  · exact .refl s

/-! ### Every command -/

/-- A start-up reset, whatever it leaves of the supply, of the reset line and on the data output (R179). -/
def State.ResetTo (s t : State) : Prop :=
  ∃ powered line bytes, t = { startUpReset s with powered := powered, resetLine := line, dataOut := bytes }

/-- What a command makes of the state once its time has passed: a start-up reset, or a sequence of effects. -/
def Outcome (i : Instr) (s t : State) : Prop := s.resetBy i = true ∧ s.ResetTo t ∨ Effects i s t

theorem takeRestart_outcome (dt : Nat) : Outcome (.restartTakesEffect dt) s s.takeRestart := by
  unfold State.takeRestart
  split
  · next h => exact .inl ⟨by simp [State.resetBy, h, Link.restartDue], _, _, _, rfl⟩
  · exact .inr (.refl s)

theorem deselect_outcome (dt : Nat) : Outcome (.selectReleased dt) s s.deselect := by
  unfold State.deselect
  split
  · next h => exact .inl ⟨by simp [State.resetBy, h, Link.restartDue], _, _, _, rfl⟩
  · exact .inr (link_effects .released [] s.answers (by simp [Link.heard]))

theorem powerUp_outcome (dt : Nat) : Outcome (.powerOn dt) s s.powerUp := by
  unfold State.powerUp
  split
  · exact .inr (.refl s)
  · next h => exact .inl ⟨by simpa [State.resetBy] using h, _, _, _, rfl⟩

theorem powerDown_outcome (dt : Nat) : Outcome (.powerFail dt) s s.powerDown := .inl ⟨rfl, _, _, _, rfl⟩

theorem resetPin_outcome (dt : Nat) : Outcome (.resetAsserted dt) s s.resetPin := by
  unfold State.resetPin
  split
  · next h => exact .inl ⟨h, _, _, _, rfl⟩
  · exact .inr (.refl s)

/-- Every command ends in a next state, an outcome of the state once its time has passed. -/
theorem exec_outcome (i : Instr) (s : State) : ∃ t, exec i s = .next t ∧ Outcome i (s.advance i.wait) t := by
  have loading {m : Mode} (h : m = .loading → false = true) : m ≠ .loading := fun e => by simpa using h e
  cases i with
  | getCondition dt f => exact ⟨_, rfl, .inr (takeFrame_effects_plain (by simp) fun a _ _ => .refl a)⟩
  | setMode dt f => exact ⟨_, rfl, .inr (takeFrame_effects_plain (by simp) fun _ _ ha => setModeRule_deeds ha)⟩
  | restart dt f =>
    refine ⟨_, rfl, .inr (takeFrame_effects_plain (by simp) fun a _ _ => ?_)⟩
    unfold restartRule
    split
    · exact .refl a
    · split <;> exact .refl a
  | restartTakesEffect dt => exact ⟨_, rfl, takeRestart_outcome dt⟩
  | storeMap dt f => exact ⟨_, rfl, .inr (takeFrame_effects_plain (by simp) fun _ _ _ => storeRule_deeds)⟩
  | storeComplete dt => exact ⟨_, rfl, .inr (finishStore_effects dt)⟩
  | reloadMap dt f => exact ⟨_, rfl, .inr (takeFrame_effects_plain (by simp) fun _ _ _ => reloadRule_deeds)⟩
  | writeMapRecord dt f =>
    refine ⟨_, rfl, .inr (takeFrame_effects (fun a _ _ => ?_) fun a ref hd _ => ?_)⟩
    · rw [writeRule_unchanged]
      exact .refl a
    · rw [writeRule_unchanged]
      exact writeRule_done hd
  | hostDataBlock dt kind len body crc => exact ⟨_, rfl, .inr (takeBlock_effects dt kind len body crc)⟩
  | writeAbandoned dt => exact ⟨_, rfl, .inr abandonWrite_effects⟩
  | readMapRecord dt f =>
    refine ⟨_, rfl, .inr (takeFrame_effects_plain (fun ref => ?_) fun a _ _ => ?_)⟩
    · unfold mapBlock
      split <;> simp
    · unfold readMapRule
      split
      · exact .refl a
      · split <;> exact .refl a
  | checkMap dt f => exact ⟨_, rfl, .inr (takeFrame_effects_plain (by simp) fun _ _ _ => .one (.report _) rfl)⟩
  | readLive dt f =>
    refine ⟨_, rfl, .inr (takeFrame_effects_plain (fun ref => ?_) fun a _ _ => ?_)⟩
    · unfold liveBlock
      split <;> simp
    · unfold readLiveRule
      split
      · exact .refl a
      · split <;> exact .refl a
  | streamLive dt f =>
    refine ⟨_, rfl, .inr (takeFrame_effects_plain (fun ref => ?_) fun a _ _ => ?_)⟩
    · unfold liveStream
      split <;> simp
    · unfold streamRule
      split <;> exact .refl a
  | streamBlock dt => exact ⟨_, rfl, .inr sendStreamBlock_effects⟩
  | endOfStream dt => exact ⟨_, rfl, .inr finishStream_effects⟩
  | streamCutOff dt => exact ⟨_, rfl, .inr cutOff_effects⟩
  | stopStream dt f => exact ⟨_, rfl, .inr (takeFrame_effects_plain (by simp) fun a _ _ => .refl a)⟩
  | noticeBlockSent dt => exact ⟨_, rfl, .inr (noticesSent_effects dt)⟩
  | admitTrain dt f => exact ⟨_, rfl, .inr (takeFrame_effects_plain (by simp) fun _ _ _ => admitRule_deeds)⟩
  | retire dt f => exact ⟨_, rfl, .inr (takeFrame_effects_plain (by simp) fun _ _ _ => retireRule_deeds)⟩
  | stepTrain dt f => exact ⟨_, rfl, .inr (takeFrame_effects_plain (by simp) fun _ _ _ => stepRule_deeds)⟩
  | direct dt f => exact ⟨_, rfl, .inr (takeFrame_effects_plain (by simp) fun _ hl _ => directRule_deeds (loading hl))⟩
  | hold dt f => exact ⟨_, rfl, .inr (takeFrame_effects_plain (by simp) fun _ hl _ => holdRule_deeds (loading hl))⟩
  | releaseHold dt f => exact ⟨_, rfl, .inr (takeFrame_effects_plain (by simp) fun _ hl _ => releaseRule_deeds (loading hl))⟩
  | selectFirst dt f => exact ⟨_, rfl, .inr (takeFrame_effects_plain (by simp) fun _ hl _ => selectFirstRule_deeds (loading hl))⟩
  | selectLast dt f => exact ⟨_, rfl, .inr (takeFrame_effects_plain (by simp) fun _ hl _ => selectLastRule_deeds (loading hl))⟩
  | deselect dt f => exact ⟨_, rfl, .inr (takeFrame_effects_plain (by simp) fun _ hl _ => deselectRule_deeds (loading hl))⟩
  | applySelection dt f => exact ⟨_, rfl, .inr (takeFrame_effects_plain (by simp) fun _ hl _ => applyRule_deeds (loading hl))⟩
  | rideStop dt f => exact ⟨_, rfl, .inr (takeFrame_effects_plain (by simp) fun _ _ _ => rideStopRule_deeds)⟩
  | resume dt f => exact ⟨_, rfl, .inr (takeFrame_effects_plain (by simp) fun _ hl _ => resumeRule_deeds (loading hl))⟩
  | clearFaultZone dt f =>
    refine ⟨_, rfl, .inr ?_⟩
    split
    · exact .refl _
    · exact takeFrame_effects_plain (by simp) fun _ hl _ => clearZoneRule_deeds (loading hl)
  | clearFaultBoundary dt obj => exact ⟨_, rfl, .inr (takeFrame_effects_plain (by simp) fun _ _ _ => clearBoundaryRule_deeds)⟩
  | clearFaultElement dt obj =>
    exact ⟨_, rfl, .inr (takeFrame_effects_plain (by simp) fun _ hl _ => clearElementRule_deeds (loading hl))⟩
  | clearFaultSwitch dt obj =>
    exact ⟨_, rfl, .inr (takeFrame_effects_plain (by simp) fun _ hl _ => clearSwitchRule_deeds (loading hl))⟩
  | dispatch dt f => exact ⟨_, rfl, .inr (takeFrame_effects_plain (by simp) fun _ _ _ => dispatchRule_deeds)⟩
  | cancelDispatch dt f => exact ⟨_, rfl, .inr (takeFrame_effects_plain (by simp) fun _ _ _ => cancelRule_deeds)⟩
  | setRouteMode dt f => exact ⟨_, rfl, .inr (takeFrame_effects_plain (by simp) fun _ _ _ => routeModeRule_deeds)⟩
  | moveSwitch dt f => exact ⟨_, rfl, .inr (takeFrame_effects_plain (by simp) fun _ _ _ => moveSwitchRule_deeds)⟩
  | unknownCommand dt code f =>
    refine ⟨_, rfl, .inr ?_⟩
    split
    · exact .refl _
    · exact takeFrame_effects_plain (by simp) fun a _ _ => .refl a
  | commandFrameCheckFailed dt code f check =>
    refine ⟨_, rfl, .inr ?_⟩
    split
    · exact .refl _
    · exact failFrame_effects
  | selectAsserted dt => exact ⟨_, rfl, .inr select_effects⟩
  | selectReleased dt => exact ⟨_, rfl, deselect_outcome dt⟩
  | powerOn dt => exact ⟨_, rfl, powerUp_outcome dt⟩
  | powerFail dt => exact ⟨_, rfl, powerDown_outcome dt⟩
  | resetAsserted dt => exact ⟨_, rfl, resetPin_outcome dt⟩
  | load dt => exact ⟨_, rfl, .inr (load_effects dt)⟩
  | trackSensorRawChange dt line high => exact ⟨_, rfl, .inr (rawSensorChange_effects high)⟩
  | trackSensorEdge dt line => exact ⟨_, rfl, .inr takeDueEdge_effects⟩
  | trackFilterStart dt => exact ⟨_, rfl, .inr (startTrackFilter_effects dt)⟩
  | gateStall dt b => exact ⟨_, rfl, .inr (reportStall_effects dt b)⟩
  | journeyDeadlineExpiry dt t => exact ⟨_, rfl, .inr (onRideIf_effects fun _ => .journey rfl)⟩
  | stopDeadlineExpiry dt t => exact ⟨_, rfl, .inr (onRideIf_effects fun _ => .stopping rfl)⟩
  | brakeProofChange dt line high => exact ⟨_, rfl, .inr (proofLineChange_effects (.inl rfl))⟩
  | proofTimerExpiry dt z => exact ⟨_, rfl, .inr (onRideIf_effects fun _ => .proofTimer rfl)⟩
  | switchProofChange dt line high => exact ⟨_, rfl, .inr (proofLineChange_effects (.inr rfl))⟩
  | moveTimerExpiry dt w => exact ⟨_, rfl, .inr (onRideIf_effects fun due => .moveTimer rfl due)⟩
  | driveStep dt ch => exact ⟨_, rfl, .inr (onRideIf_effects fun _ => .drive rfl)⟩
  | functionInputRawChange dt j high => exact ⟨_, rfl, .inr (rawInputChange_effects high)⟩
  | functionInputChange dt j => exact ⟨_, rfl, .inr (takeDueInput_effects (.inl rfl) j)⟩
  | functionInputStart dt => exact ⟨_, rfl, .inr (startInputs_effects dt)⟩
  | pairWindowExpiry dt st => exact ⟨_, rfl, .inr (windowExpires_effects dt st)⟩
  | dispatchWaitExpiry dt st => exact ⟨_, rfl, .inr (onRideIf_effects fun _ => .wait rfl)⟩

end Sys2Proof.Machine
end

section
/-! PROOF. One step of the block, on its effects: what every step keeps is proved on a start-up reset and on each effect of a
command; and that every command ends in a next state. -/

namespace Sys2Proof.Machine

variable {i : Instr} {s t : State}

/-- Settles O1: the step's definition on a queue that is not empty. -/
theorem stepRunsFrontCommand : Obligations.StepRunsFrontCommand := by
  intro c rest s h
  unfold step
  rw [h]

theorem blockEnds_effects (after : BlockEnd) : Effects (.noticeBlockSent 0) s (s.blockEnds after) := by
  cases after with
  | single => exact link_effects _ s.dataOut s.answers (by simp [Link.heard])
  | clearing snapshot => exact (link_effects .awaitingFrame s.dataOut s.answers (by simp [Link.heard])).trans (.one (.sent rfl snapshot))
  | streaming kind next => exact link_effects _ s.dataOut s.answers (by simp [Link.heard])

/-- The bytes on the data output change alone. -/
theorem dataOut_effects (bytes : List Byte) : Effects i s { s with dataOut := bytes } := .one (.link s.link bytes s.answers fun _ h => .inl h)

/-- A byte of fill makes the reset of a RESTART, or has the effects of NOTICE_BLOCK_SENT at most. -/
theorem clock_outcome (s : State) : s.link.restartDue = true ∧ s.ResetTo s.clock ∨ Effects (.noticeBlockSent 0) s s.clock := by
  have wait : ∀ w w' rest rest' next bytes, s.link = .responding w rest next →
      Effects (.noticeBlockSent 0) s { s with link := .responding w' rest' next, dataOut := bytes } := by
    intro w w' rest rest' next bytes h
    refine .one (.link _ _ s.answers fun ref k => .inl ?_)
    rw [h]
    cases next <;> simp_all [Link.heard, Follow.link?]
  have out : ∀ l bytes, (∀ ref, l.heard.2 ≠ .awaitingBlock ref) → Effects (.noticeBlockSent 0) s { s with link := l, dataOut := bytes } :=
    fun l bytes h => link_effects l bytes s.answers h
  unfold State.clock
  split
  · exact .inr (.refl s)
  · exact .inr (.refl s)
  · exact .inr (dataOut_effects _)
  · next w rest next h => exact .inr (wait _ _ _ _ _ _ h)
  · next b b' rest next h => exact .inr (wait _ _ _ _ _ _ h)
  · next rest next _ h =>
    cases next with
    | restart => exact .inl ⟨by simp [h, Link.restartDue], s.powered, s.resetLine, rest, rfl⟩
    | nothing => exact .inr (out .awaitingFrame rest (by simp [Link.heard]))
    | send what => exact .inr (out (.sending what) rest (by simp [Link.heard]))
    | awaitBlock ref => exact .inr (.one (.link _ _ s.answers fun ref' k => .inl (by rw [h]; exact k)))
  · refine .inr ?_
    unfold State.sendByte
    split
    · exact out _ _ (by simp [Link.heard])
    · exact (blockEnds_effects _).trans (dataOut_effects _)
  · exact .inr (dataOut_effects _)
  · exact .inr (out _ _ (by simp [Link.heard]))
  · exact .inr (out _ _ (by simp [Link.heard]))

/-- What a step makes of the state: nothing but the queue and the time changes before the outcome of a command or of a byte of fill. -/
theorem step_outcome (h : step s = .next t) :
    ∃ i queue now, ({ s with pending := queue, now := now } : State).ResetTo t ∨ Effects i { s with pending := queue, now := now } t := by
  unfold step at h
  split at h
  · cases h
    rcases clock_outcome s with ⟨_, k⟩ | k
    · exact ⟨.noticeBlockSent 0, s.pending, s.now, .inl k⟩
    · exact ⟨.noticeBlockSent 0, s.pending, s.now, .inr k⟩
  · next i rest _ =>
    obtain ⟨t', ht, k⟩ := exec_outcome i { s with pending := rest }
    rw [ht] at h
    cases h
    exact ⟨i, rest, s.now + i.wait, k.imp And.right id⟩

/-- What holds whatever the queue and the time, and what a start-up reset and every effect of a command keep, every step keeps. -/
theorem step_keeps (P : State → Prop) (queue : ∀ s q n, P s → P { s with pending := q, now := n })
    (reset : ∀ s t, P s → s.ResetTo t → P t) (effect : ∀ i s t, Effect i s t → P s → P t) (hs : P s) (h : step s = .next t) : P t := by
  obtain ⟨i, q, n, k | k⟩ := step_outcome h
  · exact reset _ _ (queue s q n hs) k
  · exact k.induct P (effect i) (queue s q n hs)

/-- An outcome of a command that makes no start-up reset is a sequence of effects. -/
theorem exec_effects (h : exec i s = .next t) (hr : s.resetBy i = false) : Effects i (s.advance i.wait) t := by
  obtain ⟨t', ht, k⟩ := exec_outcome i s
  rw [ht] at h
  cases h
  refine k.resolve_left fun e => ?_
  have : s.resetBy i = true := by
    rw [← e.1]
    cases i <;> rfl
  rw [this] at hr
  cases hr

/-! ### Every command ends -/

theorem Effect.pending_now {a b : State} (h : Effect i a b) : b.pending = a.pending ∧ b.now = a.now := by
  cases h <;> exact ⟨rfl, rfl⟩

theorem Effects.pending_now {a b : State} (h : Effects i a b) : b.pending = a.pending ∧ b.now = a.now :=
  h.induct (fun r => r.pending = a.pending ∧ r.now = a.now)
    (fun _ _ k e => ⟨k.pending_now.1.trans e.1, k.pending_now.2.trans e.2⟩) ⟨rfl, rfl⟩

theorem blockEnds_notices (after : BlockEnd) (n : Notice) (h : (s.blockEnds after).ride.notice? n = true) : s.ride.notice? n = true := by
  cases after with
  | clearing snapshot =>
    simp only [State.blockEnds, Ride.notice?, BitVec.getLsbD_and, Bool.and_eq_true] at h
    exact h.1
  | _ => exact h

/-- A byte of fill raises no notice, a RESTART's reset included. -/
theorem clock_notices (n : Notice) (h : s.clock.ride.notice? n = true) : s.ride.notice? n = true := by
  have reset : (startUpReset s).ride.notice? n = true → s.ride.notice? n = true := by
    intro k
    simp [startUpReset, Ride.reset, Ride.notice?] at k
  unfold State.clock at h
  split at h
  case h_6 rest next _ _ =>
    cases next with
    | restart => exact reset h
    | _ => exact h
  case h_7 what _ =>
    unfold State.sendByte at h
    split at h
    · exact h
    · exact blockEnds_notices _ n h
  all_goals exact h

/-- Settles O3: every arm of `exec` is a next state, whose effects touch neither the queue nor the time base; and on an empty queue
the host clocks a byte of fill. -/
theorem everyCommandEnds : Obligations.EveryCommandEnds := by
  refine ⟨fun i s => ?_, fun s hs => ?_⟩
  · obtain ⟨t, ht, ⟨_, _, _, _, rfl⟩ | k⟩ := exec_outcome i s
    · exact ⟨_, ht, rfl, rfl⟩
    · exact ⟨t, ht, k.pending_now⟩
  · refine ⟨s.clock, by simp [step, hs], ?_⟩
    rcases clock_eq s with ⟨rest, hl, e⟩ | e
    · rw [e]
      exact ⟨hs, rfl, rfl, .inl (by simp [hl, Link.restartDue])⟩
    · refine ⟨by rw [e]; exact hs, by rw [e], by rw [e], .inr ⟨e, fun n => clock_notices n⟩⟩

end Sys2Proof.Machine
end

section
/-! PROOF. The claims about every command that its effects settle: which operations are sequences of small changes, and what
stays through those that are not. -/

namespace Sys2Proof.Machine

variable {i : Instr} {s t : State} {c : Ctx} {r : Ride}

/-! ### Which operations are small changes -/

theorem holdZones_changes (zones : List ZoneIx) (hold : Bool) : Changes true true true r (holdZones c zones hold r) :=
  foldl_changes (fun r z => by
    split
    · exact addHold_changes z _ rfl
    · exact removeHold_changes z _ rfl) zones r

theorem grantChain_changes {w o q : Bool} (t : SlotIx) (before : ZoneIx) (chain : List ZoneIx) :
    Changes w o q r (grantChain c t before chain r) := by
  induction chain generalizing before r with
  | nil => exact .refl r
  | cons z zs ih =>
    unfold grantChain
    split
    · exact (grantStep_changes _ _ t).trans (ih _)
    · exact ih _

/-- What a STEP can reserve is the train's prospective chain (R74). -/
theorem stepChain_spec {t : SlotIx} {x : Train} {chain : List ZoneIx} (h : stepChain c r t x = some chain) :
    x.phase = .held ∧ readyToReserve c r x = true ∧ stationMeets c x.head c.stationProofs = true ∧
    prospectiveChain c r x = some chain ∧ chainAvailable c r t true x.head chain = true := by
  unfold stepChain at h
  split at h
  · next hc =>
    rw [Option.filter_eq_some_iff] at h
    simp only [Bool.and_eq_true, beq_iff_eq] at hc
    exact ⟨hc.1.1, hc.1.2, hc.2, h.1, h.2⟩
  · cases h

theorem takeStep_changes {t : SlotIx} {x : Train} {chain : List ZoneIx} (hx : r.train? t = some x)
    (h : stepChain c r t x = some chain) : Changes true true true r (takeStep c t x chain r) := by
  have h1 : Changes true true true r (r.putTrain t { x with stepping := true }) :=
    putTrain_changes hx rfl (.inl rfl) (fun s => s.1 t x hx) (fun a b => ⟨a, b⟩)
  exact (h1.trans (grantChain_changes t _ _)).trans
    (reserveChain_changes t chain true rfl (fun _ => prospectiveChain_length (stepChain_spec h).2.2.2.1) (.inl rfl))

/-! ### The operations that are more than small changes -/

theorem setClaim_wide (z : ZoneIx) (new : Claim) : Changes true true true r (setClaim c z new r) := setClaim_changes z new (.inl rfl)

/-- A lock or a close of a faulted record is its record put, and small changes. -/
theorem brakeBecomes_after (z : ZoneIx) (st : BrakeState) (cmd : ElementCommand) :
    Changes false false false (r.putElement z (.brake st cmd)) (brakeBecomes c z st cmd r) := by
  unfold brakeBecomes
  dsimp only
  split
  · exact provenOpen_changes z
  · exact provenClosed_changes z
  · exact (raise_changes _).trans (report_changes _)
  · exact .refl _

theorem admitAt_after (t : SlotIx) (z : ZoneIx) (label : Nat) :
    Changes true true true (r.putTrain t (admittedTrain (c.map.isSpur z) z label)) (admitAt c t z label r) := by
  unfold admitAt
  dsimp only
  split
  · exact setClaim_wide z _
  · exact (setClaim_wide z _).trans (zoneStationEvent_changes z _)

theorem clearZonesOf_changes (t : SlotIx) : Changes true true true r (clearZonesOf c t r) :=
  overAll_changes (fun z r => by
    split
    · exact setClaim_wide z _
    · exact .refl r) r

/-- The ride of a RETIRE before the slot is freed. -/
theorem retire_before (t : SlotIx) : Changes true true true r (withdrawSwitches t ((clearZonesOf c t r).putPresented t none)) :=
  ((clearZonesOf_changes t).trans (.one (.presented t none (by simp) (by simp)))).trans (withdrawSwitches_changes t)

theorem retire_after (t : SlotIx) : Changes true true true
    ((withdrawSwitches t ((clearZonesOf c t r).putPresented t none)).freeSlot t) (retireTrain c t r) := closeWhere_changes _

theorem withdrawSwitches_presented (t : SlotIx) : (withdrawSwitches t r).presented = r.presented :=
  overAll_induct (fun r' => r'.presented = r.presented) _ (fun w r' h => by
    split
    · exact h
    · exact h) r rfl

/-- A RETIRE has withdrawn the train's presentation as it frees the slot (R73). -/
theorem retire_absent (t : SlotIx) : (withdrawSwitches t ((clearZonesOf c t r).putPresented t none)).presented? t = none := by
  unfold Ride.presented?
  rw [withdrawSwitches_presented]
  exact tget_tput_same _ _ _

theorem freeIx_free {t : SlotIx} (h : r.freeIx = some t) : r.train? t = none := by
  simpa using List.find?_some h

theorem element_of_faulted {z : ZoneIx} (h : r.elementFaulted z = true) : ∃ e, r.element? z = some e := by
  cases he : r.element? z with
  | none => simp [Ride.elementFaulted, he] at h
  | some e => exact ⟨e, rfl⟩

/-- A change of one record that no small change makes: of RESUME, CLEAR_FAULT of three classes, ADMIT and RETIRE. -/
inductive Tweak (i : Instr) (r : Ride) : Ride → Prop
  | causes {dt f} (who : i = .resume dt f) : Tweak i r { r with causes := 0#11 }
  | zone {dt f} (who : i = .clearFaultZone dt f) (z : ZoneIx) (x : ZoneRec) (h : r.zone? z = some x) :
      Tweak i r (r.putZone z { x with fault := none })
  | element {dt obj} (who : i = .clearFaultElement dt obj) (z : ZoneIx) (e : Element) (h : r.element? z = some e) :
      Tweak i r (r.putElement z (.brake .closed .close))
  | switch {dt obj} (who : i = .clearFaultSwitch dt obj) (w : SwitchIx) (x y : SwitchRec) (h : r.switch? w = some x) :
      Tweak i r (r.putSwitch w y)
  | train {dt f} (who : i = .admitTrain dt f) (t : SlotIx) (spur : Bool) (z : ZoneIx) (label : Nat) (lo : 1 ≤ label) (hi : label ≤ 255)
      (fresh : r.labelUsed label = false) (free : r.train? t = none) : Tweak i r (r.putTrain t (admittedTrain spur z label))
  | free {dt f} (who : i = .retire dt f) (t : SlotIx) (absent : r.presented? t = none) : Tweak i r (r.freeSlot t)

theorem moveDue_sound {w : SwitchIx} {reached : Nat → Bool} (h : (r.switch? w).any (fun x => x.pos.moveDue.any reached) = true) :
    r.sound w := by
  intro x hx cause hp
  rw [hx] at h
  simp [hp, SwitchPos.moveDue] at h

/-- An operation on the ride is a sequence of small changes, or one with a tweak in it; outside LOADING and CONFIG where there is one. -/
theorem RideOp.shape (op : RideOp i s r) :
    Changes true true true s.ride r ∨ (s.mode ≠ .loading ∧ s.mode ≠ .config) ∧
      ∃ a b, Changes true true true s.ride a ∧ Tweak i a b ∧ Changes true true true b r := by
  cases op with
  | resume who inUse => exact .inr ⟨inUse, _, _, .refl _, .causes who, .refl _⟩
  | clearZone who inUse z =>
    unfold clearZoneFault
    split
    · next x hx => exact .inr ⟨inUse, _, _, .refl _, .zone who z x hx, .refl _⟩
    · exact .inl (.refl _)
  | clearElement who inUse z faulted =>
    obtain ⟨e, he⟩ := element_of_faulted faulted
    exact .inr ⟨inUse, _, _, .refl _, .element who z e he, (brakeBecomes_after z _ _).widen⟩
  | clearSwitch who inUse w side =>
    unfold lockSwitch
    split
    · next x hx => exact .inr ⟨inUse, _, _, .refl _, .switch who w x _ hx, .refl _⟩
    · exact .inl (.refl _)
  | admitted who mode t z d label lo hi _ fresh _ free =>
    exact .inr ⟨by simp [mode], _, _, .refl _, .train who t _ z label lo hi fresh (freeIx_free free), admitAt_after t z label⟩
  | retire who mode t x =>
    exact .inr ⟨by simp [mode], _, _, retire_before t, .free who t (retire_absent t), retire_after t⟩
  | hold who _ z => exact .inl (addHold_changes z _ rfl)
  | release who _ z src => exact .inl (removeHold_changes z _ rfl)
  | apply who _ zones hold => exact .inl (holdZones_changes zones hold)
  | stop who => exact .inl (report_changes _)
  | dispatch who st e => exact .inl (stationEvent_changes st e)
  | cancel who st => exact .inl (stationEvent_changes st _)
  | move who w side => exact .inl (requestMove_changes w side _)
  | step who _ t x chain train can => exact .inl (takeStep_changes train can)
  | event who b d stamp e => exact .inl (handEvent_changes b d stamp e)
  | berth who z => exact .inl (onBerth_changes z)
  | derive who levels =>
    refine .inl (overAll_changes (fun b r => ?_) _)
    split
    · split
      · exact boundaryFaulted_changes _
      · exact .refl r
    · exact .refl r
  | stall who d dir => exact .inl (onStall_changes d dir)
  | journey who => exact .inl (onJourneyExpiry_changes _)
  | stopping who => exact .inl (onStopExpiry_changes _)
  | proof who => exact .inl (proofTaken_changes _)
  | proofTimer who => exact .inl (proofExpiry_changes _)
  | moveTimer who due => exact .inl (faultSwitch_changes _ _ (moveDue_sound due))
  | drive who => exact .inl (channelStep_changes _)
  | input who f on => exact .inl (functionChange_changes f on)
  | levels who =>
    exact .inl ((overAll_changes (fun j r => inputFound_changes j) _).trans (overAll_changes (fun st r => stationFound_changes st) _))
  | wait who => exact .inl (stationEvent_changes _ _)

theorem conclude_widen {w : Bool} {before after : Ride} : Changes w true true after (conclude c before after) :=
  conclude_narrow.mono (by simp) (by simp) (by simp)

/-! ### Notices and causes -/

/-- Every cause and notice of `a` is one of `b`. -/
def Ride.grows (a b : Ride) : Prop :=
  (∀ j, a.causes.getLsbD j = true → b.causes.getLsbD j = true) ∧ ∀ j, a.notices.getLsbD j = true → b.notices.getLsbD j = true

theorem Ride.grows.trans {a b d : Ride} (h : a.grows b) (k : b.grows d) : a.grows d :=
  ⟨fun j e => k.1 j (h.1 j e), fun j e => k.2 j (h.2 j e)⟩

theorem Ride.grows.refl (a : Ride) : a.grows a := ⟨fun _ h => h, fun _ h => h⟩

theorem Changes.grows {w o q : Bool} {a b : Ride} (h : Changes w o q a b) : a.grows b := ⟨h.causes_grow, h.notices_grow⟩

theorem bare_grows (r : Ride) : r.grows r.bare := ⟨fun _ h => h, fun _ h => h⟩

/-- Every operation lets causes and notices grow, but for the causes in RESUME's. -/
theorem RideOp.grows (op : RideOp i s r) :
    ((∀ dt f, i ≠ .resume dt f) → ∀ j, s.ride.causes.getLsbD j = true → r.causes.getLsbD j = true) ∧
    ∀ j, s.ride.notices.getLsbD j = true → r.notices.getLsbD j = true := by
  rcases op.shape with k | ⟨-, a, b, h, k, h'⟩
  · exact ⟨fun _ => k.grows.1, k.grows.2⟩
  · have tweak : ((∀ dt f, i ≠ .resume dt f) → b.causes = a.causes) ∧ b.notices = a.notices := by
      cases k with
      | causes who => exact ⟨fun hi => absurd who (hi _ _), rfl⟩
      | _ => exact ⟨fun _ => rfl, rfl⟩
    exact ⟨fun hi j hj => h'.grows.1 j (by rw [tweak.1 hi]; exact h.grows.1 j hj),
      fun j hj => h'.grows.2 j (by rw [tweak.2]; exact h.grows.2 j hj)⟩

theorem reportFreshSwitch_changes {w o q : Bool} (k : SwitchIx) : Changes w o q r (reportFreshSwitch k r) := by
  unfold reportFreshSwitch
  split
  · exact (raise_changes _).trans (report_changes _)
  · exact .refl r

/-- The records a take-up builds, before the levels of the proofs are applied. -/
def builtRide (c : Ctx) (r : Ride) : Ride :=
  { zones := tgen fun z => (c.map.zone z).map fun _ => ZoneRec.fresh
    presented := Vector.replicate 16 none
    trains := Vector.replicate 16 none
    elements := tgen fun z => freshElement c z
    channels := tgen fun ch => (c.map.drive ch).map fun _ =>
      ({ code := 0, target := 0, stepDue := none, zone := c.map.driveZone ch } : Channel)
    switches := tgen fun w => (c.map.switch w).map fun d => freshSwitch c d
    stations := tgen fun st => (c.map.station st).map fun _ => ({ state := .empty, pairing := .spent } : StationRec)
    causes := r.causes
    notices := r.notices }

theorem takeUpRide_after : Changes false false false (builtRide c r) (takeUpRide c r) :=
  (overAll_changes (fun z _ => brakeProofChange_changes z) (builtRide c r)).trans
    (overAll_changes (fun w _ => reportFreshSwitch_changes w) _)

theorem cancelDemands_changes {w o q : Bool} : Changes w o q r (cancelDemands c r) :=
  overAll_changes (fun st _ => stationEvent_changes st _) r

theorem conclude_grows {before after : Ride} : after.grows (conclude c before after) := conclude_narrow.grows

/-- Causes and notices grow through every effect but the notices that are sent and RESUME's causes (R159, R177). -/
theorem Effect.grows {a b : State} (h : Effect i a b) :
    ((∀ dt f, i ≠ .resume dt f) → ∀ j, a.ride.causes.getLsbD j = true → b.ride.causes.getLsbD j = true) ∧
    ((∀ dt, i ≠ .noticeBlockSent dt) → ∀ j, a.ride.notices.getLsbD j = true → b.ride.notices.getLsbD j = true) := by
  have of {r : Ride} (k : a.ride.grows r) :
      ((∀ dt f, i ≠ .resume dt f) → ∀ j, a.ride.causes.getLsbD j = true → r.causes.getLsbD j = true) ∧
      ((∀ dt, i ≠ .noticeBlockSent dt) → ∀ j, a.ride.notices.getLsbD j = true → r.notices.getLsbD j = true) :=
    ⟨fun _ => k.1, fun _ => k.2⟩
  cases h with
  | raise n => exact of (raise_changes (w := false) (o := false) (q := false) n).grows
  | sent who => exact ⟨fun _ _ h => h, fun h => absurd who (h _)⟩
  | takeUp who => exact of (Ride.grows.trans (b := builtRide _ a.ride) (.refl a.ride) (takeUpRide_after.grows.trans conclude_grows))
  | putAway who => exact of ((bare_grows a.ride).trans (report_changes (w := false) (o := false) (q := false) .start).grows)
  | toAuto who => exact of conclude_grows
  | toMaintenance who => exact of ((cancelDemands_changes (w := false) (o := false) (q := false)).grows.trans conclude_grows)
  | ride r op =>
    exact ⟨fun hi j hj => conclude_grows.1 j (op.grows.1 hi j hj), fun _ j hj => conclude_grows.2 j (op.grows.2 j hj)⟩
  | window who => exact of (windowExpiry_changes (w := false) (o := false) (q := false) _).grows
  | _ => exact of (.refl _)

/-- Settles O17: the effects let notices and causes grow. -/
theorem noticesAndCausesStay : Obligations.NoticesAndCausesStay := by
  intro i s t h hr
  have k := exec_effects h hr
  refine ⟨fun n hn hs => ?_, fun cause hc hs => ?_⟩
  · exact k.induct (fun r => r.ride.notice? n = true) (fun _ _ e => e.grows.2 hn _) hs
  · exact k.induct (fun r => r.ride.cause? cause = true) (fun _ _ e => e.grows.1 hc _) hs

end Sys2Proof.Machine
end

section
/-! PROOF. The invariants and the frame claims that follow from the effects alone: the map put away, presentations, faults, mode,
image and map, and the slots of the train table. -/

namespace Sys2Proof.Machine

variable {i : Instr} {s t : State} {c : Ctx} {r : Ride} {w o q : Bool}

/-! ### The map put away (R157, R179) -/

/-- No block holds a record. -/
structure Ride.Empty (r : Ride) : Prop where
  zones : r.zones = Vector.replicate 48 none
  presented : r.presented = Vector.replicate 16 none
  trains : r.trains = Vector.replicate 16 none
  elements : r.elements = Vector.replicate 48 none
  channels : r.channels = Vector.replicate 8 none
  switches : r.switches = Vector.replicate 4 none
  stations : r.stations = Vector.replicate 4 none

theorem Ride.empty_iff (r : Ride) : r.Empty ↔ r = { Ride.reset with causes := r.causes, notices := r.notices } := by
  constructor
  · rintro ⟨h1, h2, h3, h4, h5, h6, h7⟩
    cases r
    simp_all [Ride.reset]
  · intro h
    rw [h]
    exact ⟨rfl, rfl, rfl, rfl, rfl, rfl, rfl⟩

/-- A small change finds no record to change in a ride without one. -/
theorem Change.empty {a b : Ride} (h : Change w o q a b) (k : a.Empty) : b.Empty := by
  cases h with
  | claim z x new h => simp [Ride.zone?, k.zones, tget_replicate] at h
  | zone z x y hw h => simp [Ride.zone?, k.zones, tget_replicate] at h
  | train u x y h => simp [Ride.train?, k.trains, tget_replicate] at h
  | presented u p short held =>
    have hp : p = none := by
      simpa [Ride.train?, k.trains, tget_replicate] using held
    subst hp
    refine ⟨k.zones, table_ext fun j => ?_, k.trains, k.elements, k.channels, k.switches, k.stations⟩
    change tget (tput a.presented u none) j = _
    rw [k.presented, tget_tput]
    split <;> simp [tget_replicate]
  | element z e e' h => simp [Ride.element?, k.elements, tget_replicate] at h
  | channel ch x y h => simp [Ride.channel?, k.channels, tget_replicate] at h
  | switch u x y h => simp [Ride.switch?, k.switches, tget_replicate] at h
  | station st x y h => simp [Ride.station?, k.stations, tget_replicate] at h
  | raise n => exact ⟨k.zones, k.presented, k.trains, k.elements, k.channels, k.switches, k.stations⟩
  | report cause =>
    unfold Ride.report
    split <;> exact ⟨k.zones, k.presented, k.trains, k.elements, k.channels, k.switches, k.stations⟩

theorem Changes.empty {a b : Ride} (h : Changes w o q a b) (k : a.Empty) : b.Empty :=
  h.induct Ride.Empty (fun _ _ k e => k.empty e) k

theorem withBit_self {n : Nat} (x : BitVec n) (j : Nat) (h : j < n) : (withBit x j).getLsbD j = true := by
  simp [withBit, h]

/-- A cause that has been reported is in the set (R159). -/
theorem report_cause (r : Ride) (cause : Cause) : (r.report cause).cause? cause = true := by
  unfold Ride.report
  split
  · next h => exact h
  · exact withBit_self _ _ (by cases cause <;> decide)

/-- The records of a put-away map, field by field. -/
theorem State.put_iff (s : State) : s.put ↔ s.ride.Empty ∧ s.ride.cause? .start = true ∧ s.sensors.phase = .off ∧
    s.inputs.phase = .off ∧ (∀ b, tget s.bounds b = none) ∧ s.selection = none := by
  unfold State.put
  rw [← Ride.empty_iff]
  refine and_congr_right fun _ => and_congr_right fun _ => and_congr_right fun _ => and_congr_right fun _ => and_congr_left fun _ => ?_
  constructor
  · intro h b
    rw [h]
    exact tget_replicate _ _
  · intro h
    exact table_ext fun b => (h b).trans (tget_replicate _ _).symm

/-- In a put-away state an operation on the ride changes causes and notices alone, and START stays. -/
theorem RideOp.put (op : RideOp i s r) (hm : s.mode = .loading ∨ s.mode = .config) (k : s.ride.Empty) (hs : s.ride.cause? .start = true) :
    (conclude s.ctx s.ride r).Empty ∧ (conclude s.ctx s.ride r).cause? .start = true := by
  have h1 : Changes true true true s.ride r := by
    rcases op.shape with h | ⟨hn, -⟩
    · exact h
    · exact absurd hm (by simp [hn])
  have h2 := h1.trans (conclude_widen (c := s.ctx) (before := s.ride))
  exact ⟨h2.empty k, h2.grows.1 _ hs⟩

theorem Effect.putAway_kept {a b : State} (h : Effect i a b) (k : a.putAwayInvariant) : b.putAwayInvariant := by
  have out : ∀ {p : Prop} {m : Mode}, m ≠ .loading ∧ m ≠ .config → (m = .loading ∨ m = .config) → p :=
    fun hm h => absurd h (by simp [hm])
  cases h with
  | selection sel ok =>
    intro hm
    obtain ⟨h1, h2, h3, h4, h5, h6⟩ := k hm
    refine ⟨h1, h2, h3, h4, h5, ?_⟩
    cases sel with
    | none => rfl
    | some sel => exact out (ok rfl).2 hm
  | raise n =>
    intro hm
    have h := (State.put_iff a).mp (k hm)
    exact (State.put_iff _).mpr ⟨(raise_changes (w := true) (o := true) (q := true) n).empty h.1, h.2⟩
  | sent who snapshot =>
    intro hm
    obtain ⟨⟨e1, e2, e3, e4, e5, e6, e7⟩, h⟩ := (State.put_iff a).mp (k hm)
    exact (State.put_iff _).mpr ⟨⟨e1, e2, e3, e4, e5, e6, e7⟩, h⟩
  | loadFails who mode => exact fun _ => k (.inl mode)
  | takeUp who => rintro (h | h) <;> cases h
  | toAuto who | toMaintenance who => rintro (h | h) <;> cases h
  | putAway who =>
    intro _
    refine (State.put_iff _).mpr ⟨(report_changes (w := true) (o := true) (q := true) .start).empty ⟨rfl, rfl, rfl, rfl, rfl, rfl, rfl⟩,
      ?_, rfl, rfl, tget_replicate _, rfl⟩
    exact report_cause _ _
  | sensors x ok =>
    intro hm
    obtain ⟨h1, h2, h3, h4⟩ := (State.put_iff a).mp (k hm)
    exact (State.put_iff _).mpr ⟨h1, h2, ok h3, h4⟩
  | inputs x ok =>
    intro hm
    obtain ⟨h1, h2, h3, h4, h5⟩ := (State.put_iff a).mp (k hm)
    exact (State.put_iff _).mpr ⟨h1, h2, h3, ok h4, h5⟩
  | bounds v absent fault =>
    intro hm
    obtain ⟨h1, h2, h3, h4, h5, h6⟩ := (State.put_iff a).mp (k hm)
    exact (State.put_iff _).mpr ⟨h1, h2, h3, h4, fun b => absent h3 b (h5 b), h6⟩
  | ride r op =>
    intro hm
    obtain ⟨h1, h2, h⟩ := (State.put_iff a).mp (k hm)
    obtain ⟨e1, e2⟩ := op.put hm h1 h2
    exact (State.put_iff _).mpr ⟨e1, e2, h⟩
  | window who =>
    intro hm
    obtain ⟨h1, h2, h⟩ := (State.put_iff a).mp (k hm)
    have e := windowExpiry_changes (w := true) (o := true) (q := true) (r := a.ride)
    exact (State.put_iff _).mpr ⟨(e _).empty h1, (e _).grows.1 _ h2, h⟩
  | direct who inUse => exact fun hm => out inUse hm
  | _ => exact k

/-- Settles O10: a start-up reset puts the map away, and every effect keeps it put away. -/
theorem mapStaysPutAway : Obligations.MapStaysPutAway := by
  intro s t hs h
  refine step_keeps State.putAwayInvariant (fun _ _ _ h => h) (fun s t _ h => ?_) (fun _ _ _ h => h.putAway_kept) hs h
  obtain ⟨_, _, _, rfl⟩ := h
  have start : Ride.reset.cause? .start = true := by decide
  exact fun _ => (State.put_iff _).mpr ⟨⟨rfl, rfl, rfl, rfl, rfl, rfl, rfl⟩, start, rfl, rfl, tget_replicate _, rfl⟩

/-! ### Presentations (R29, R32) -/

/-- Chains are presented only for trains on the table. -/
def Ride.attached (r : Ride) : Prop := ∀ t, (r.presented? t).isSome = true → (r.train? t).isSome = true

/-- No chain is presented. -/
def Ride.unpresented (r : Ride) : Prop := ∀ t, r.presented? t = none

theorem Change.attached {a b : Ride} (h : Change w o q a b) (k : a.attached) : b.attached := by
  intro t ht
  rw [h.train_isSome t]
  cases h with
  | presented u p short held =>
    change (tget (tput a.presented u p) t).isSome = true at ht
    rw [tget_tput] at ht
    split at ht
    · next e => exact e ▸ held ht
    · exact k t ht
  | report cause =>
    refine k t ?_
    unfold Ride.report at ht
    split at ht <;> exact ht
  | _ => exact k t ht

theorem Changes.attached {a b : Ride} (h : Changes w o q a b) (k : a.attached) : b.attached :=
  h.induct Ride.attached (fun _ _ k e => k.attached e) k

/-- What each pass of a fold establishes of its own index, and no other pass undoes, the fold establishes of every index. -/
theorem overAll_establish {σ : Type} {n : Nat} (I : σ → Prop) (Q : Fin n → σ → Prop) (f : Fin n → σ → σ)
    (inv : ∀ j r, I r → I (f j r)) (own : ∀ j r, I r → Q j (f j r)) (keep : ∀ j k r, I r → Q k r → Q k (f j r)) (r : σ) (h : I r) :
    ∀ k, Q k (overAll f r) := by
  have fold : ∀ (l : List (Fin n)) (r : σ), I r → ∀ k, (k ∈ l ∨ Q k r) → Q k (l.foldl (fun r j => f j r) r) := by
    intro l
    induction l with
    | nil => exact fun r _ k hk => hk.resolve_left (by simp)
    | cons j l ih =>
      intro r hr k hk
      refine ih (f j r) (inv j r hr) k ?_
      rcases hk with hk | hk
      · rcases List.mem_cons.mp hk with rfl | hk
        · exact .inr (own k r hr)
        · exact .inl hk
      · exact .inr (keep j k r hr hk)
  exact fun k => fold _ r h k (.inl (List.mem_finRange k))

theorem requestMove_presented (k : SwitchIx) (side : Side) (src : MoveSource) :
    (requestMove c k side src r).presented = r.presented := by
  unfold requestMove
  split <;> rfl

theorem arbitrate_presented (k : SwitchIx) : (arbitrate c k r).presented = r.presented := by
  unfold arbitrate
  split
  · split
    · split
      · rfl
      · dsimp only
        split
        · rfl
        · exact requestMove_presented _ _ _
    · rfl
  · rfl

/-- With no train eligible a train's presentation is withdrawn. -/
theorem reconsiderTrain_off (hm : c.mode ≠ .auto) (t : SlotIx) :
    (∀ u, r.presented? u = none → (reconsiderTrain c t r).presented? u = none) ∧
    ((r.train? t).isSome = true → (reconsiderTrain c t r).presented? t = none) := by
  unfold reconsiderTrain
  cases hx : r.train? t with
  | none => exact ⟨fun _ h => h, fun h => by cases h⟩
  | some x =>
    simp only [not_eligible (.inl hm) x, Bool.false_eq_true, if_false]
    split
    · next hp => exact ⟨fun _ h => h, fun _ => hp⟩
    · have put : ∀ u, (Ride.putPresented (if (r.presented? t).isSome = true then withdrawSwitches t r else r) t none).presented? u =
          if u = t then none else r.presented? u := by
        intro u
        change tget (tput _ t none) u = _
        rw [tget_tput]
        split
        · rfl
        · split
          · rw [withdrawSwitches_presented]; rfl
          · rfl
      refine ⟨fun u hu => ?_, fun _ => ?_⟩
      · rw [put, hu, ite_self]
      · rw [put, if_pos rfl]

theorem reserveIfAvailable_unpresented (t : SlotIx) (h : r.unpresented) : reserveIfAvailable c t r = r := by
  unfold reserveIfAvailable
  split
  · next hp => rw [h t] at hp; cases hp
  · rfl

/-- Outside AUTO the reconsideration withdraws every presentation (R29, R32). -/
theorem reconsider_off (hm : c.mode ≠ .auto) (k : r.attached) : (reconsider c r).unpresented := by
  unfold reconsider
  dsimp only
  have h1 : (overAll (fun (t : SlotIx) r => reconsiderTrain c t r) r).unpresented :=
    overAll_establish Ride.attached (fun t r => r.presented? t = none) _
      (fun t r h => (reconsiderTrain_changes (w := true) (o := true) (q := true) t).attached h)
      (fun t r h => by
        cases hp : r.presented? t with
        | none => exact (reconsiderTrain_off hm t).1 t hp
        | some p => exact (reconsiderTrain_off hm t).2 (h t (by rw [hp]; rfl)))
      (fun t u r _ hu => (reconsiderTrain_off hm t).1 u hu) r k
  have h2 : (overAll (fun (w : SwitchIx) r => arbitrate c w r) (overAll (fun (t : SlotIx) r => reconsiderTrain c t r) r)).unpresented :=
    overAll_induct Ride.unpresented _ (fun w r h t => by
      unfold Ride.presented?
      rw [arbitrate_presented]
      exact h t) _ h1
  exact overAll_induct Ride.unpresented _ (fun t r h => by rwa [reserveIfAvailable_unpresented t h]) _ h2

theorem conclude_off {before after : Ride} (hm : c.mode ≠ .auto) (k : after.attached) : (conclude c before after).unpresented := by
  have h1 := (tellLatched_changes (w := true) (o := true) (q := true) (c := c) (before := before)).attached k
  have h2 := (reconsider_changes (w := true) (o := true) (q := true) (c := c) (.inr rfl)).attached h1
  unfold conclude
  dsimp only
  split
  · exact reconsider_off hm ((stopRide_changes (w := true) (o := true) (q := true)).attached h2)
  · exact reconsider_off hm h1

theorem conclude_attached {before after : Ride} (k : after.attached) : (conclude c before after).attached :=
  (conclude_narrow (c := c)).attached k

theorem Tweak.attached {a b : Ride} (h : Tweak i a b) (k : a.attached) : b.attached := by
  intro t ht
  cases h with
  | train who u spur z label lo hi fresh free =>
    change (tget (tput a.trains u (some _)) t).isSome = true
    rw [tget_tput]
    split
    · rfl
    · exact k t ht
  | free who u absent =>
    change (tget (tput a.trains u none) t).isSome = true
    rw [tget_tput]
    split
    · next e =>
      subst e
      change (a.presented? t).isSome = true at ht
      rw [absent] at ht
      cases ht
    · exact k t ht
  | _ => exact k t ht

theorem RideOp.attached (op : RideOp i s r) (k : s.ride.attached) : r.attached := by
  rcases op.shape with h | ⟨-, a, b, h, tw, h'⟩
  · exact h.attached k
  · exact h'.attached (tw.attached (h.attached k))

theorem State.presentationInvariant_iff (s : State) :
    s.presentationInvariant ↔ s.ride.attached ∧ (s.mode ≠ .auto → s.ride.unpresented) := by
  constructor
  · intro h
    refine ⟨fun t ht => ?_, fun hm t => ?_⟩
    · obtain ⟨chain, hc⟩ := Option.isSome_iff_exists.mp ht
      exact (h t chain hc).2
    · cases hp : s.ride.presented? t with
      | none => rfl
      | some chain => exact absurd (h t chain hp).1 hm
  · rintro ⟨h1, h2⟩ t chain hc
    refine ⟨by_contra fun hm => ?_, h1 t (by rw [hc]; rfl)⟩
    rw [h2 hm t] at hc
    cases hc

/-- The end of a step leaves chains presented in AUTO alone, and for trains on the table (R29, R32). -/
theorem conclude_presentation {s : State} {before after : Ride} (k : after.attached) :
    ({ s with ride := conclude s.ctx before after } : State).presentationInvariant :=
  (State.presentationInvariant_iff _).mpr ⟨conclude_attached k, fun hm => conclude_off hm k⟩

theorem unpresented_attached (h : r.unpresented) : r.attached := fun t ht => by rw [h t] at ht; cases ht

theorem Effect.presentation_kept {a b : State} (h : Effect i a b) (k : a.presentationInvariant) : b.presentationInvariant := by
  have hk := (State.presentationInvariant_iff a).mp k
  cases h with
  | loadFails who mode => exact (State.presentationInvariant_iff _).mpr ⟨hk.1, fun _ => hk.2 (by simp [mode])⟩
  | takeUp who =>
    refine conclude_presentation (s := { a with mode := .maintenance, sensors := _, bounds := _, inputs := _, selection := _ })
      (takeUpRide_after.attached (unpresented_attached fun t => tget_replicate _ _))
  | putAway who =>
    refine (State.presentationInvariant_iff _).mpr ?_
    have h : (Machine.putAway a).ride.unpresented := by
      have e : (Machine.putAway a).ride.Empty :=
        (report_changes (w := true) (o := true) (q := true) .start).empty ⟨rfl, rfl, rfl, rfl, rfl, rfl, rfl⟩
      intro t
      unfold Ride.presented?
      rw [e.presented]
      exact tget_replicate _ _
    exact ⟨unpresented_attached h, fun _ => h⟩
  | toAuto who => exact conclude_presentation (s := { a with mode := .auto }) hk.1
  | toMaintenance who =>
    exact conclude_presentation (s := { a with mode := .maintenance })
      ((cancelDemands_changes (w := true) (o := true) (q := true)).attached hk.1)
  | ride r op => exact conclude_presentation (op.attached hk.1)
  | window who =>
    have e : ∀ st, (windowExpiry st a.ride).presented = a.ride.presented := by
      intro st
      unfold windowExpiry
      split <;> rfl
    refine (State.presentationInvariant_iff _).mpr
      ⟨(windowExpiry_changes (w := true) (o := true) (q := true) _).attached hk.1, fun hm t => ?_⟩
    unfold Ride.presented?
    rw [e]
    exact hk.2 hm t
  | direct who inUse t x d train =>
    exact (State.presentationInvariant_iff _).mpr
      ⟨(putTrain_changes (w := true) (o := true) (q := true) (y := { x with directive := d }) train rfl (.inl rfl) (fun s => s.1 t x train) (fun a b => ⟨a, b⟩)).attached hk.1,
        hk.2⟩
  | _ => exact k

/-- Settles O12: the end of a step withdraws every presentation outside AUTO, and every change presents for a train on the table. -/
theorem presentationsStayInAuto : Obligations.PresentationsStayInAuto := by
  intro s t hs h
  refine step_keeps State.presentationInvariant (fun _ _ _ h => h) (fun s t _ h => ?_) (fun _ _ _ h => h.presentation_kept) hs h
  obtain ⟨_, _, _, rfl⟩ := h
  have e : Ride.reset.unpresented := fun t => tget_replicate _ _
  exact (State.presentationInvariant_iff _).mpr ⟨unpresented_attached e, fun _ => e⟩

end Sys2Proof.Machine
end

section
/-! PROOF. Which commands change the mode, the image, the map, the slots of the train table and the faults. -/

namespace Sys2Proof.Machine

variable {i : Instr} {s t : State} {c : Ctx} {r : Ride} {w o q : Bool}

theorem vacant_inRange : CircuitMap.vacant.inRange := by
  simp [CircuitMap.inRange, CircuitMap.zone, CircuitMap.boundary, CircuitMap.switch, CircuitMap.station, CircuitMap.drive,
    CircuitMap.vacant, tget_replicate]

/-- Settles O2: every field of the state is as R179 gives it, and the invariants are read off the vacant records. -/
theorem resetState : Obligations.ResetState := by
  have train : ∀ t, State.reset.ride.train? t = none := tget_replicate _
  have zone : ∀ z, State.reset.ride.zone? z = none := tget_replicate _
  have element : ∀ z, State.reset.ride.element? z = none := tget_replicate _
  have channel : ∀ z, State.reset.ride.channel? z = none := tget_replicate _
  have switch : ∀ z, State.reset.ride.switch? z = none := tget_replicate _
  have presented : ∀ t, State.reset.ride.presented? t = none := tget_replicate _
  have claim : ∀ z, State.reset.ride.claim? z = none := fun z => by rw [Ride.claim?, zone]; rfl
  have speed : ∀ z, State.reset.ride.entrySpeed z = none := fun z => by rw [Ride.entrySpeed, zone]; rfl
  have output : ∀ z, State.reset.elementOutput z = false := fun z => by rw [State.elementOutput, element]
  have noTrains : State.reset.ride.trainsList = [] := by simp [Ride.trainsList, train]
  refine ⟨rfl, fun cause => by cases cause <;> decide, by decide, by decide, train, zone, tget_replicate _, switch, tget_replicate _,
    rfl, rfl, rfl, rfl, rfl, ⟨fun ch => ?_, output, fun line => ?_⟩, ⟨vacant_inRange, vacant_inRange, fun m h => by cases h⟩, fun _ => ?_,
    ⟨fun t x h => by simp [train] at h, fun t u x y h => by simp [train] at h, fun t chain h => by simp [presented] at h,
      fun z v h => by simp [speed] at h⟩,
    fun t chain h => by simp [presented] at h,
    ⟨fun z k h => by simp [claim] at h, fun z k h => by simp [claim] at h, fun k x h => by simp [train] at h,
      fun h => (by rcases h with h | h <;> cases h), fun ref h => by cases h⟩,
    fun z h => by simp [output] at h,
    ⟨fun k x dl h => by simp [train] at h, fun k x h => by simp [train] at h, fun k x h => by simp [train] at h,
      by simp [Ride.trainCount, noTrains], fun k chain h => by simp [presented] at h, fun h => by rcases h with h | h <;> cases h⟩⟩
  · simp [State.setpoint, State.enable, channel]
  · simp [State.switchOutput, switch]
  · exact (State.put_iff _).mpr ⟨⟨rfl, rfl, rfl, rfl, rfl, rfl, rfl⟩, by decide, rfl, rfl, tget_replicate _, rfl⟩

/-! ### Mode, image and map -/

theorem Effect.mode_eq {a b : State} (h : Effect i a b) (ht : takesUp i = false) : b.mode = a.mode := by
  cases h with
  | loadFails who | putAway who | toAuto who | toMaintenance who => subst who; cases ht
  | takeUp who => rcases who with ⟨⟨_, _, rfl⟩, _⟩ | ⟨⟨_, rfl⟩, _⟩ <;> cases ht
  | _ => rfl

/-- The image changes by a store alone: as it begins, or as one in progress completes (R183). -/
theorem Effect.image_eq {a b : State} (h : Effect i a b) (hi : ∀ dt f, i ≠ .storeMap dt f) :
    b.image = a.image ∧ b.storing = a.storing ∨ a.storing.isSome = true ∧ ∃ dt, i = .storeComplete dt := by
  cases h with
  | beginStore who => exact absurd who (hi _ _)
  | endStore who m hs => exact .inr ⟨by rw [hs]; rfl, _, who⟩
  | _ => exact .inl ⟨rfl, rfl⟩

/-- The map `m'` is `m` but for the kinds of its switches. -/
structure CircuitMap.SameButKinds (m m' : CircuitMap) : Prop where
  zones : m'.zones = m.zones
  boundaries : m'.boundaries = m.boundaries
  stations : m'.stations = m.stations
  drives : m'.drives = m.drives
  inputs : m'.inputs = m.inputs
  circuit : m'.circuit = m.circuit
  vacant : ∀ w, m.switch w = none → m'.switch w = none
  kinds : ∀ w d, m.switch w = some d → ∃ k, m'.switch w = some { d with kind := k }

theorem CircuitMap.SameButKinds.refl (m : CircuitMap) : m.SameButKinds m :=
  ⟨rfl, rfl, rfl, rfl, rfl, rfl, fun _ h => h, fun _ d h => ⟨d.kind, h⟩⟩

theorem CircuitMap.SameButKinds.trans {m m' m'' : CircuitMap} (h : m.SameButKinds m') (k : m'.SameButKinds m'') :
    m.SameButKinds m'' := by
  refine ⟨k.zones.trans h.zones, k.boundaries.trans h.boundaries, k.stations.trans h.stations, k.drives.trans h.drives,
    k.inputs.trans h.inputs, k.circuit.trans h.circuit, fun w e => k.vacant w (h.vacant w e), fun w d e => ?_⟩
  obtain ⟨a, ha⟩ := h.kinds w d e
  obtain ⟨b, hb⟩ := k.kinds w _ ha
  exact ⟨b, hb⟩

theorem sameButKinds_put {m : CircuitMap} {w : SwitchIx} {d : SwitchDesc} (h : m.switch w = some d) (k : SwitchKind) :
    m.SameButKinds { m with switches := tput m.switches w (some { d with kind := k }) } := by
  have put : ∀ v, ({ m with switches := tput m.switches w (some { d with kind := k }) } : CircuitMap).switch v =
      if v = w then some { d with kind := k } else m.switch v := fun v => tget_tput _ _ _ _
  refine ⟨rfl, rfl, rfl, rfl, rfl, rfl, fun v hv => ?_, fun v e hv => ?_⟩
  · rw [put, if_neg (fun e => by rw [e, h] at hv; cases hv), hv]
  · rw [put]
    split
    · next e' =>
      rw [e', h] at hv
      cases hv
      exact ⟨k, rfl⟩
    · exact ⟨e.kind, hv⟩

/-- The map of a part with a map in use: a command other than SET_MODE finds a map in use, awaits no host block, and has changed the
kinds of switches at most. -/
structure InUseFrom (i : Instr) (s a : State) : Prop where
  mode : (∃ dt f, i = .setMode dt f) ∨ (a.mode = .maintenance ∨ a.mode = .auto) ∧ ∀ ref, a.link.heard.2 ≠ .awaitingBlock ref
  route : (∀ dt f, i ≠ .setRouteMode dt f) → a.map = s.map
  kinds : s.map.SameButKinds a.map

theorem Effect.inUse {a b : State} (h : Effect i a b) (k : InUseFrom i s a) : InUseFrom i s b := by
  have same : ∀ {b : State}, b.map = a.map → b.mode = a.mode → (∀ ref, b.link.heard.2 = .awaitingBlock ref →
      a.link.heard.2 = .awaitingBlock ref ∨ a.mode = .config) → InUseFrom i s b := by
    intro b hm hmode hl
    refine ⟨k.mode.imp_right fun h => ⟨by rw [hmode]; exact h.1, fun ref e => ?_⟩, fun hr => hm.trans (k.route hr), hm ▸ k.kinds⟩
    rcases hl ref e with e | e
    · exact h.2 ref e
    · rcases h.1 with h | h <;> rw [h] at e <;> cases e
  have setMode : ∀ {b : State} {dt f}, i = .setMode dt f → b.map = a.map → InUseFrom i s b :=
    fun who hm => ⟨.inl ⟨_, _, who⟩, fun hr => hm.trans (k.route hr), hm ▸ k.kinds⟩
  have notUsed : ∀ {p : Prop}, (∀ dt f, i ≠ .setMode dt f) → a.mode ≠ .maintenance → a.mode ≠ .auto → p := by
    intro p hi h1 h2
    rcases k.mode with ⟨_, _, e⟩ | ⟨e | e, _⟩
    · exact absurd e (hi _ _)
    · exact absurd e h1
    · exact absurd e h2
  cases h with
  | link l bytes n ok => exact same rfl rfl ok
  | write who ref m awaited =>
    rcases k.mode with ⟨_, _, e⟩ | ⟨_, e⟩
    · rw [who] at e; cases e
    · exact absurd awaited (e ref)
  | reload who mode => exact notUsed (by rw [who]; simp) (by simp [mode]) (by simp [mode])
  | routeMode who w d old new h kind =>
    refine ⟨k.mode, fun hr => absurd who (hr _ _), k.kinds.trans (sameButKinds_put h _)⟩
  | install who mode | loadFails who mode => exact notUsed (by rw [who]; simp) (by simp [mode]) (by simp [mode])
  | takeUp who pass =>
    rcases who with ⟨⟨_, _, who⟩, _⟩ | ⟨⟨_, who⟩, mode⟩
    · exact setMode who rfl
    · exact notUsed (by rw [who]; simp) (by simp [mode]) (by simp [mode])
  | putAway who | toAuto who | toMaintenance who => exact setMode who rfl
  | _ => exact same rfl rfl fun _ e => .inl e

/-- Settles O20, on the outcome of each command: a start-up reset, or its effects. -/
theorem modeImageMapChangeOnlyBy : Obligations.ModeImageMapChangeOnlyBy := by
  intro i s t h
  cases hr : s.resetBy i with
  | true =>
    refine ⟨fun _ => .inr rfl, fun hne => ?_, fun _ hf => by cases hf⟩
    obtain ⟨t', ht, ⟨-, _, _, _, rfl⟩ | k⟩ := exec_outcome i s
    · rw [ht] at h
      cases h
      cases hs : s.storing with
      | none => exact absurd (by simp [startUpReset, State.imageAfterCut, hs]) hne
      | some m => exact .inr ⟨rfl, .inr rfl⟩
    · rw [ht] at h
      cases h
      refine absurd ?_ hne
      refine (k.induct (fun r => r.image = s.image ∧ r.storing = s.storing) (fun a b e h => ?_) ⟨rfl, rfl⟩).1
      rcases e.image_eq (fun dt f hi => by rw [hi] at hr; cases hr) with h' | ⟨_, _, hi⟩
      · exact ⟨h'.1.trans h.1, h'.2.trans h.2⟩
      · rw [hi] at hr; cases hr
  | false =>
    have k := exec_effects h hr
    refine ⟨fun hne => ?_, fun hne => ?_, fun hm _ hl => ?_⟩
    · cases ht : takesUp i with
      | true => exact .inl rfl
      | false => exact absurd (k.induct (fun r => r.mode = s.mode) (fun _ _ e h => (e.mode_eq ht).trans h) rfl) hne
    · by_cases hi : ∃ dt f, i = .storeMap dt f
      · exact .inl hi
      · have h' : t.image = s.image ∧ t.storing = s.storing ∨ s.storing.isSome = true ∧ ∃ dt, i = .storeComplete dt := by
          refine k.induct (fun r => r.image = s.image ∧ r.storing = s.storing ∨
            s.storing.isSome = true ∧ ∃ dt, i = .storeComplete dt) (fun a b e h => ?_) (.inl ⟨rfl, rfl⟩)
          rcases h with h | h
          · rcases e.image_eq (fun dt f e' => hi ⟨dt, f, e'⟩) with h' | ⟨h1, h2⟩
            · exact .inl ⟨h'.1.trans h.1, h'.2.trans h.2⟩
            · exact .inr ⟨h.2 ▸ h1, h2⟩
          · exact .inr h
        rcases h' with h' | ⟨hs, h'⟩
        · exact absurd h'.1 hne
        · exact .inr ⟨hs, .inl h'⟩
    · have u : InUseFrom i s t := k.induct (InUseFrom i s) (fun _ _ e => e.inUse) ⟨.inr ⟨hm, hl⟩, fun _ => rfl, .refl _⟩
      refine ⟨fun hne => ?_, u.kinds.zones, u.kinds.boundaries, u.kinds.stations, u.kinds.drives, u.kinds.inputs, u.kinds.circuit,
        fun w => ⟨u.kinds.vacant w, u.kinds.kinds w⟩⟩
      by_contra hc
      exact hne (u.route fun dt f e => hc ⟨dt, f, e⟩)

/-! ### The slots of the train table -/

/-- A train's label stays through every small change (R51). -/
theorem Change.label_kept {a b : Ride} (h : Change w o q a b) (k : SlotIx) (x : Train) (hx : a.train? k = some x) :
    ∃ y, b.train? k = some y ∧ y.label = x.label := by
  cases h with
  | train u x' y h label =>
    change ∃ y', tget (tput a.trains u (some y)) k = some y' ∧ _
    rw [tget_tput]
    split
    · next e =>
      subst e
      rw [hx] at h
      cases h
      exact ⟨y, rfl, label⟩
    · exact ⟨x, hx, rfl⟩
  | report cause => unfold Ride.report; split <;> exact ⟨x, hx, rfl⟩
  | _ => exact ⟨x, hx, rfl⟩

theorem Changes.label_kept {a b : Ride} (h : Changes w o q a b) (k : SlotIx) (x : Train) (hx : a.train? k = some x) :
    ∃ y, b.train? k = some y ∧ y.label = x.label := by
  refine h.induct (fun r => ∃ y, r.train? k = some y ∧ y.label = x.label) (fun a b e h => ?_) ⟨x, hx, rfl⟩
  obtain ⟨y, hy, hl⟩ := h
  obtain ⟨y', hy', hl'⟩ := e.label_kept k y hy
  exact ⟨y', hy', hl'.trans hl⟩

/-- A free slot stays free but by ADMIT; a record stays, with its label, but by RETIRE (R51). -/
structure SlotKept (i : Instr) (k : SlotIx) (a b : Ride) : Prop where
  free : (∀ dt f, i ≠ .admitTrain dt f) → a.train? k = none → b.train? k = none
  taken : (∀ dt f, i ≠ .retire dt f) → ∀ x, a.train? k = some x → ∃ y, b.train? k = some y ∧ y.label = x.label

theorem SlotKept.refl (i : Instr) (k : SlotIx) (a : Ride) : SlotKept i k a a := ⟨fun _ h => h, fun _ x h => ⟨x, h, rfl⟩⟩

theorem SlotKept.trans {k : SlotIx} {a b d : Ride} (h : SlotKept i k a b) (h' : SlotKept i k b d) : SlotKept i k a d := by
  refine ⟨fun hi e => h'.free hi (h.free hi e), fun hi x e => ?_⟩
  obtain ⟨y, hy, hl⟩ := h.taken hi x e
  obtain ⟨z, hz, hl'⟩ := h'.taken hi y hy
  exact ⟨z, hz, hl'.trans hl⟩

theorem Changes.slotKept {a b : Ride} (h : Changes w o q a b) (k : SlotIx) : SlotKept i k a b := by
  refine ⟨fun _ e => ?_, fun _ x e => h.label_kept k x e⟩
  have := h.train_isSome k
  rw [e] at this
  simpa using this

theorem Tweak.slotKept {a b : Ride} (h : Tweak i a b) (k : SlotIx) : SlotKept i k a b := by
  cases h with
  | train who u spur z label lo hi fresh free =>
    refine ⟨fun hi _ => absurd who (hi _ _), fun _ x e => ⟨x, ?_, rfl⟩⟩
    rw [putTrain_other _ _ _ _ (fun eq => by rw [eq, free] at e; cases e)]
    exact e
  | free who u absent =>
    refine ⟨fun _ e => ?_, fun hi => absurd who (hi _ _)⟩
    change tget (tput a.trains u none) k = none
    rw [tget_tput]
    split
    · rfl
    · exact e
  | _ => exact ⟨fun _ h => h, fun _ x h => ⟨x, h, rfl⟩⟩

theorem RideOp.slotKept (op : RideOp i s r) (k : SlotIx) : SlotKept i k s.ride r := by
  rcases op.shape with h | ⟨-, a, b, h, tw, h'⟩
  · exact h.slotKept k
  · exact (h.slotKept k).trans ((tw.slotKept k).trans (h'.slotKept k))

theorem Effect.slotKept {a b : State} (h : Effect i a b) (ht : takesUp i = false) (k : SlotIx) : SlotKept i k a.ride b.ride := by
  cases h with
  | loadFails who | putAway who | toAuto who | toMaintenance who => subst who; cases ht
  | takeUp who => rcases who with ⟨⟨_, _, rfl⟩, _⟩ | ⟨⟨_, rfl⟩, _⟩ <;> cases ht
  | ride r op => exact (op.slotKept k).trans ((conclude_narrow (c := a.ctx)).slotKept k)
  | window who => exact (windowExpiry_changes (w := true) (o := true) (q := true) _).slotKept k
  | direct who inUse t x d train =>
    exact (putTrain_changes (w := true) (o := true) (q := true) (y := { x with directive := d }) train rfl (.inl rfl)
      (fun s => s.1 t x train) (fun a b => ⟨a, b⟩)).slotKept k
  | _ => exact ⟨fun _ h => h, fun _ x h => ⟨x, h, rfl⟩⟩

/-- Settles O21: small changes keep a slot and its label; the two tweaks of the train table are ADMIT's and RETIRE's. -/
theorem slotsChangeOnlyBy : Obligations.SlotsChangeOnlyBy := by
  intro i s t k h hr ht
  have e : SlotKept i k s.ride t.ride := (exec_effects h hr).induct (fun r => SlotKept i k s.ride r.ride)
    (fun _ _ e h => h.trans (e.slotKept ht k)) (.refl i k _)
  exact ⟨e.free, e.taken⟩

/-! ### Faults -/

/-- Every fault of the ride stays with its cause, but for the class that the command clears (R48, R111, R131). -/
structure FaultsKept (i : Instr) (a b : Ride) : Prop where
  zone : ∀ z cause, (∀ dt f, i ≠ .clearFaultZone dt f) → a.zoneFault z = some cause → b.zoneFault z = some cause
  brake : ∀ z cause, (∀ dt obj, i ≠ .clearFaultElement dt obj) → (∃ cmd, a.element? z = some (.brake (.fault cause) cmd)) →
    ∃ cmd, b.element? z = some (.brake (.fault cause) cmd)
  switch : ∀ w cause, (∀ dt obj, i ≠ .clearFaultSwitch dt obj) → (∃ x, a.switch? w = some x ∧ x.pos = .fault cause) →
    ∃ y, b.switch? w = some y ∧ y.pos = .fault cause

theorem FaultsKept.refl (i : Instr) (a : Ride) : FaultsKept i a a := ⟨fun _ _ _ h => h, fun _ _ _ h => h, fun _ _ _ h => h⟩

theorem FaultsKept.trans {a b d : Ride} (h : FaultsKept i a b) (k : FaultsKept i b d) : FaultsKept i a d :=
  ⟨fun z cause hi e => k.zone z cause hi (h.zone z cause hi e), fun z cause hi e => k.brake z cause hi (h.brake z cause hi e),
    fun z cause hi e => k.switch z cause hi (h.switch z cause hi e)⟩

theorem Changes.faultsKept {a b : Ride} (h : Changes w o q a b) : FaultsKept i a b :=
  ⟨fun z cause _ => h.fault_kept z cause, fun z cause _ => h.brake_stuck z cause, fun z cause _ => h.switch_stuck z cause⟩

theorem Tweak.faultsKept {a b : Ride} (h : Tweak i a b) : FaultsKept i a b := by
  cases h with
  | zone who z x hx => exact ⟨fun _ _ hi => absurd who (hi _ _), fun _ _ _ h => h, fun _ _ _ h => h⟩
  | element who z e he => exact ⟨fun _ _ _ h => h, fun _ _ hi => absurd who (hi _ _), fun _ _ _ h => h⟩
  | switch who k x y hx => exact ⟨fun _ _ _ h => h, fun _ _ _ h => h, fun _ _ hi => absurd who (hi _ _)⟩
  | _ => exact ⟨fun _ _ _ h => h, fun _ _ _ h => h, fun _ _ _ h => h⟩

theorem RideOp.faultsKept (op : RideOp i s r) : FaultsKept i s.ride r := by
  rcases op.shape with h | ⟨-, a, b, h, tw, h'⟩
  · exact h.faultsKept
  · exact h.faultsKept.trans (tw.faultsKept.trans h'.faultsKept)

/-- Every fault of the state stays, a boundary's included (R89). -/
def AllFaultsKept (i : Instr) (s t : State) : Prop :=
  FaultsKept i s.ride t.ride ∧
  ∀ b x cause, (∀ dt obj, i ≠ .clearFaultBoundary dt obj) → (∀ dt, i ≠ .trackFilterStart dt) →
    tget s.bounds b = some x → x.passage = .fault cause → ∃ y, tget t.bounds b = some y ∧ y.passage = .fault cause

theorem AllFaultsKept.of_ride (h : FaultsKept i s.ride t.ride) (hb : t.bounds = s.bounds) : AllFaultsKept i s t :=
  ⟨h, fun _ x _ _ _ hx hp => ⟨x, by rw [hb]; exact hx, hp⟩⟩

theorem AllFaultsKept.trans {a b d : State} (h : AllFaultsKept i a b) (k : AllFaultsKept i b d) : AllFaultsKept i a d := by
  refine ⟨h.1.trans k.1, fun z x cause hi hj hx hp => ?_⟩
  obtain ⟨y, hy, hp'⟩ := h.2 z x cause hi hj hx hp
  exact k.2 z y cause hi hj hy hp'

/-- No effect but a take-up and a put-away ends a fault that its command does not clear. -/
theorem Effect.faultsKept {a b : State} (h : Effect i a b) (ht : takesUp i = false) : AllFaultsKept i a b := by
  cases h with
  | loadFails who | putAway who | toAuto who | toMaintenance who => subst who; cases ht
  | takeUp who => rcases who with ⟨⟨_, _, rfl⟩, _⟩ | ⟨⟨_, rfl⟩, _⟩ <;> cases ht
  | bounds v absent fault => exact ⟨.refl i _, fault⟩
  | raise n => exact .of_ride (raise_changes (w := true) (o := true) (q := true) n).faultsKept rfl
  | ride r op => exact .of_ride (op.faultsKept.trans (conclude_narrow (c := a.ctx)).faultsKept) rfl
  | window who => exact .of_ride (windowExpiry_changes (w := true) (o := true) (q := true) _).faultsKept rfl
  | direct who inUse t x d train =>
    exact .of_ride (putTrain_changes (w := true) (o := true) (q := true) (y := { x with directive := d }) train rfl (.inl rfl)
      (fun s => s.1 t x train) (fun a b => ⟨a, b⟩)).faultsKept rfl
  | _ => exact .of_ride ⟨fun _ _ _ h => h, fun _ _ _ h => h, fun _ _ _ h => h⟩ rfl

/-- A frame leaves the state, or the answer of its common handling, or that of its own rule. -/
theorem takeFrame_cases (s : State) (cls : FrameClass) (own : State → Result × State) (next : Follow) :
    s.link.takesFrame = none ∧ s.takeFrame cls own next = s ∨ ∃ res n,
      s.takeFrame cls own next = (s.beforeCommand cls).respond (!cls.keeps && s.selection.isSome) res n ∨
      ((s.beforeCommand cls).mode = .loading → cls.inLoading = true) ∧
        s.takeFrame cls own next = (own (s.beforeCommand cls)).2.respond (!cls.keeps && s.selection.isSome) res n := by
  have answer : ∀ cut, ((s.beforeCommand cls).answer cls cut own).2 = s.beforeCommand cls ∨
      ((s.beforeCommand cls).mode = .loading → cls.inLoading = true) ∧
      ((s.beforeCommand cls).answer cls cut own).2 = (own (s.beforeCommand cls)).2 := by
    intro cut
    unfold State.answer
    split
    · exact .inl rfl
    · split
      · exact .inl rfl
      · next h => exact .inr ⟨fun hl => by simpa [hl] using h, rfl⟩
  unfold State.takeFrame
  split
  · next h => exact .inl ⟨h, rfl⟩
  · next cut _ =>
    exact .inr ⟨((s.beforeCommand cls).answer cls cut own).1, ((s.beforeCommand cls).answer cls cut own).1.follow next,
      (answer cut).imp (fun e => congrArg (State.respond · _ _ _) e) fun e => ⟨e.1, congrArg (State.respond · _ _ _) e.2⟩⟩

/-- SET_MODE with a map in use changes the ride by small changes, if it does not put the map away. -/
theorem setModeRule_inUse {f : Frame} (hm : s.mode = .maintenance ∨ s.mode = .auto) (ht : (setModeRule f s).2.mode ≠ .config) :
    Changes true true true s.ride (setModeRule f s).2.ride ∧ (setModeRule f s).2.bounds = s.bounds := by
  have same : ∀ res, Changes true true true s.ride (s.refuse res).2.ride ∧ (s.refuse res).2.bounds = s.bounds :=
    fun _ => ⟨.refl _, rfl⟩
  unfold setModeRule at ht ⊢
  split
  · exact same _
  · split
    · exact same _
    · next h _ target hmode =>
      rw [if_neg (by assumption), hmode] at ht
      dsimp only at ht ⊢
      unfold changeMode at ht ⊢
      split
      · exact same .done
      · next hne =>
        rw [if_neg hne] at ht
        rcases hm with hm | hm <;> simp only [hm] at ht ⊢ <;> cases target <;> dsimp only at ht ⊢
        case inl.config =>
          split
          · exact same _
          · next hc => rw [if_neg hc] at ht; exact absurd rfl ht
        case inl.auto => exact ⟨conclude_widen, rfl⟩
        case inr.maintenance => exact ⟨cancelDemands_changes.trans conclude_widen, rfl⟩
        all_goals exact same _

/-- A frame's common handling leaves the boundaries, and the ride but for a notice. -/
theorem beforeCommand_faultsKept (cls : FrameClass) : AllFaultsKept i s (s.beforeCommand cls) := by
  unfold State.beforeCommand
  split
  · exact .of_ride (raise_changes (w := true) (o := true) (q := true) _).faultsKept rfl
  · exact .of_ride (.refl i _) rfl

theorem setMode_faultsKept {dt : Nat} {f : Frame} (h : exec (.setMode dt f) s = .next t)
    (hm : s.mode = .maintenance ∨ s.mode = .auto) (ht : t.mode ≠ .config) : AllFaultsKept (.setMode dt f) s t := by
  have h : t = (s.advance dt).takeFrame .ordinary (setModeRule f) .nothing := by cases h; rfl
  have hb := beforeCommand_faultsKept (i := .setMode dt f) (s := s.advance dt) .ordinary
  rcases takeFrame_cases (s.advance dt) .ordinary (setModeRule f) .nothing with ⟨-, e⟩ | ⟨res, n, e | ⟨-, e⟩⟩
  · rw [h, e]
    exact .of_ride (.refl _ _) rfl
  · rw [h, e]
    exact ⟨hb.1, hb.2⟩
  · rw [h, e] at ht ⊢
    have hm' : ((s.advance dt).beforeCommand .ordinary).mode = .maintenance ∨ ((s.advance dt).beforeCommand .ordinary).mode = .auto := by
      rw [beforeCommand_mode]
      exact hm
    obtain ⟨k1, k2⟩ := setModeRule_inUse hm' ht
    exact hb.trans (.of_ride k1.faultsKept k2)

/-- Settles O19: no small change ends a fault, and the tweaks of CLEAR_FAULT end their own class's alone. -/
theorem faultsStay : Obligations.FaultsStay := by
  intro i s t h hr hup
  have k : AllFaultsKept i s t := by
    rcases hup with ht | ⟨⟨dt, f, rfl⟩, hm, ht⟩
    · exact (exec_effects h hr).induct (AllFaultsKept i s) (fun _ _ e h => h.trans (e.faultsKept ht)) (.of_ride (.refl i _) rfl)
    · exact setMode_faultsKept h hm ht
  exact ⟨fun z cause => k.1.zone z cause, k.2, fun z cause cmd hi he => k.1.brake z cause hi ⟨cmd, he⟩,
    fun w x cause hi hx hp => k.1.switch w cause hi ⟨x, hx, hp⟩⟩

end Sys2Proof.Machine
end

section
/-! PROOF. The common handling of command frames, command by command: which are taken, which are turned away, and what becomes of an
open hold selection. -/

namespace Sys2Proof.Machine

variable {i : Instr} {s t : State} {dt : Nat} {f : Frame}

/-- What a command frame is to the link unit: the class of its common handling, its owner's rule, and what follows the answer. -/
structure CommandFrame (i : Instr) (cls : FrameClass) (own : State → Result × State) (next : Follow) : Prop where
  taken : ∀ s, exec i s = .next ((s.advance i.wait).takeFrame cls own next)
  keeps : cls.keeps = keepsSelection i
  cut : cls.afterCut = true → ∃ dt f, i = .stopStream dt f
  loading : cls.inLoading = true → (∃ dt f, i = .getCondition dt f) ∨ ∃ dt code f, i = .unknownCommand dt code f
  rule : ∀ a : State, (a.mode = .loading → cls.inLoading = true) → a.link = .awaitingFrame → Deeds i a (own a).2
  opened : keepsSelection i = true → (∀ dt f, i ≠ .applySelection dt f) → ∀ a : State, a.selection.isSome = true →
    (own a).2.selection.isSome = true

theorem CommandFrame.ordinary {own : State → Result × State} {next : Follow}
    (taken : ∀ s, exec i s = .next ((s.advance i.wait).takeFrame .ordinary own next)) (keeps : keepsSelection i = false)
    (rule : ∀ a : State, a.mode ≠ .loading → a.link = .awaitingFrame → Deeds i a (own a).2) : CommandFrame i .ordinary own next :=
  ⟨taken, keeps.symm, by simp [FrameClass.ordinary], by simp [FrameClass.ordinary],
    fun a hl => rule a fun e => (by simpa [FrameClass.ordinary] using hl e), fun h => by rw [keeps] at h; cases h⟩

theorem CommandFrame.keeping {own : State → Result × State} {next : Follow}
    (taken : ∀ s, exec i s = .next ((s.advance i.wait).takeFrame .keeping own next)) (keeps : keepsSelection i = true)
    (rule : ∀ a : State, a.mode ≠ .loading → a.link = .awaitingFrame → Deeds i a (own a).2)
    (opened : (∀ dt f, i ≠ .applySelection dt f) → ∀ a : State, a.selection.isSome = true → (own a).2.selection.isSome = true) : CommandFrame i .keeping own next :=
  ⟨taken, keeps.symm, by simp [FrameClass.keeping, FrameClass.ordinary], by simp [FrameClass.keeping, FrameClass.ordinary],
    fun a hl => rule a fun e => (by simpa [FrameClass.keeping, FrameClass.ordinary] using hl e), fun _ => opened⟩

theorem deeds_of_eq {a b : State} (h : b = a) : Deeds i a b := by
  rw [h]
  exact .refl a

theorem restartRule_unchanged (s : State) : (restartRule s).2 = s := by
  unfold restartRule
  split
  · rfl
  · split <;> rfl

theorem readMapRule_unchanged (s : State) : (readMapRule f s).2 = s := by
  unfold readMapRule
  split
  · rfl
  · split <;> rfl

theorem readLiveRule_unchanged (s : State) : (readLiveRule f s).2 = s := by
  unfold readLiveRule
  split
  · rfl
  · split <;> rfl

theorem streamRule_unchanged (s : State) : (streamRule f s).2 = s := by
  unfold streamRule
  split <;> rfl

/-- The commands that R47 excepts, but APPLY_SELECTION, leave an open selection open. -/
theorem zoneCommand_selection {ok : Bool} {own : ZoneIx → State → Result × State} (h : s.selection.isSome = true)
    (rule : ∀ z, (own z s).2.selection.isSome = true) : (zoneCommand f ok own s).2.selection.isSome = true := by
  unfold zoneCommand
  split
  · exact h
  · split
    · exact h
    · split
      · exact h
      · exact rule _

theorem selectionCommand_selection {own : Selection → State → Result × State} (h : s.selection.isSome = true)
    (rule : ∀ sel, (own sel s).2.selection.isSome = true) : (selectionCommand own s).2.selection.isSome = true := by
  unfold selectionCommand
  split
  · exact h
  · split
    · exact h
    · exact rule _

theorem selectLastRule_selection (h : s.selection.isSome = true) : (selectLastRule f s).2.selection.isSome = true := by
  refine selectionCommand_selection h fun sel => zoneCommand_selection h fun z => ?_
  unfold extendSelection
  split
  · exact h
  · rfl

/-- Every command frame of the table is taken by the common handling, for its own rule. -/
theorem command_frame (hw : i.wf = true) (hc : i.command.isSome = true) : ∃ cls own next, CommandFrame i cls own next := by
  cases i with
  | getCondition dt f =>
    exact ⟨_, _, _, fun _ => rfl, rfl, fun h => (by cases h), fun _ => .inl ⟨_, _, rfl⟩, fun a _ _ => .refl a, fun _ _ _ h => by exact h⟩
  | stopStream dt f => exact ⟨_, _, _, fun _ => rfl, rfl, fun _ => ⟨_, _, rfl⟩, fun h => (by cases h), fun a _ _ => .refl a, fun _ _ _ h => by exact h⟩
  | unknownCommand dt code f =>
    have hcode : commandCodes.contains code.toNat = false := by simpa [Instr.wf] using hw
    refine ⟨unknownClass, fun s => s.refuse .unknown, .nothing, fun s => ?_, rfl, fun h => (by cases h), fun _ => .inr ⟨_, _, _, rfl⟩, fun a _ _ => .refl a,
      fun _ _ _ h => h⟩
    simp only [exec, execUnknownCommand, hcode]
    rfl
  | clearFaultZone dt f =>
    have harg : ¬(argumentOf f = 2 ∨ argumentOf f = 3 ∨ argumentOf f = 4) := by simpa [Instr.wf, argumentOf] using hw
    refine ⟨_, clearZoneRule f, .nothing, .ordinary (fun s => ?_) rfl fun _ hl _ => clearZoneRule_deeds hl⟩
    simp only [exec, execClearFaultZone, harg]
    rfl
  | setMode dt f => exact ⟨_, _, _, .ordinary (fun _ => rfl) rfl fun _ _ ha => setModeRule_deeds ha⟩
  | restart dt f => exact ⟨_, _, _, .ordinary (fun _ => rfl) rfl fun _ _ _ => deeds_of_eq (restartRule_unchanged _)⟩
  | storeMap dt f => exact ⟨_, _, _, .ordinary (fun _ => rfl) rfl fun _ _ _ => storeRule_deeds⟩
  | reloadMap dt f => exact ⟨_, _, _, .ordinary (fun _ => rfl) rfl fun _ _ _ => reloadRule_deeds⟩
  | writeMapRecord dt f => exact ⟨_, _, _, .ordinary (fun _ => rfl) rfl fun _ _ _ => deeds_of_eq (writeRule_unchanged _)⟩
  | readMapRecord dt f => exact ⟨_, _, _, .keeping (fun _ => rfl) rfl (fun _ _ _ => deeds_of_eq (readMapRule_unchanged _))
      fun _ a h => by rw [readMapRule_unchanged]; exact h⟩
  | checkMap dt f => exact ⟨_, _, _, .ordinary (fun _ => rfl) rfl fun _ _ _ => .one (.report _) rfl⟩
  | readLive dt f => exact ⟨_, _, _, .keeping (fun _ => rfl) rfl (fun _ _ _ => deeds_of_eq (readLiveRule_unchanged _))
      fun _ a h => by rw [readLiveRule_unchanged]; exact h⟩
  | streamLive dt f => exact ⟨_, _, _, .keeping (fun _ => rfl) rfl (fun _ _ _ => deeds_of_eq (streamRule_unchanged _))
      fun _ a h => by rw [streamRule_unchanged]; exact h⟩
  | admitTrain dt f => exact ⟨_, _, _, .ordinary (fun _ => rfl) rfl fun _ _ _ => admitRule_deeds⟩
  | retire dt f => exact ⟨_, _, _, .ordinary (fun _ => rfl) rfl fun _ _ _ => retireRule_deeds⟩
  | stepTrain dt f => exact ⟨_, _, _, .ordinary (fun _ => rfl) rfl fun _ _ _ => stepRule_deeds⟩
  | direct dt f => exact ⟨_, _, _, .ordinary (fun _ => rfl) rfl fun _ hl _ => directRule_deeds hl⟩
  | hold dt f => exact ⟨_, _, _, .ordinary (fun _ => rfl) rfl fun _ hl _ => holdRule_deeds hl⟩
  | releaseHold dt f => exact ⟨_, _, _, .ordinary (fun _ => rfl) rfl fun _ hl _ => releaseRule_deeds hl⟩
  | selectFirst dt f => exact ⟨_, _, _, .keeping (fun _ => rfl) rfl (fun _ hl _ => selectFirstRule_deeds hl)
      fun _ _ h => zoneCommand_selection h fun _ => rfl⟩
  | selectLast dt f => exact ⟨_, _, _, .keeping (fun _ => rfl) rfl (fun _ hl _ => selectLastRule_deeds hl)
      fun _ _ => selectLastRule_selection⟩
  | deselect dt f => exact ⟨_, _, _, .keeping (fun _ => rfl) rfl (fun _ hl _ => deselectRule_deeds hl)
      fun _ _ h => selectionCommand_selection h fun _ => zoneCommand_selection h fun _ => rfl⟩
  | applySelection dt f => exact ⟨_, _, _, .keeping (fun _ => rfl) rfl (fun _ hl _ => applyRule_deeds hl)
      fun h => absurd rfl (h dt f)⟩
  | rideStop dt f => exact ⟨_, _, _, .ordinary (fun _ => rfl) rfl fun _ _ _ => rideStopRule_deeds⟩
  | resume dt f => exact ⟨_, _, _, .ordinary (fun _ => rfl) rfl fun _ hl _ => resumeRule_deeds hl⟩
  | clearFaultBoundary dt obj => exact ⟨_, _, _, .ordinary (fun _ => rfl) rfl fun _ _ _ => clearBoundaryRule_deeds⟩
  | clearFaultElement dt obj => exact ⟨_, _, _, .ordinary (fun _ => rfl) rfl fun _ hl _ => clearElementRule_deeds hl⟩
  | clearFaultSwitch dt obj => exact ⟨_, _, _, .ordinary (fun _ => rfl) rfl fun _ hl _ => clearSwitchRule_deeds hl⟩
  | dispatch dt f => exact ⟨_, _, _, .ordinary (fun _ => rfl) rfl fun _ _ _ => dispatchRule_deeds⟩
  | cancelDispatch dt f => exact ⟨_, _, _, .ordinary (fun _ => rfl) rfl fun _ _ _ => cancelRule_deeds⟩
  | setRouteMode dt f => exact ⟨_, _, _, .ordinary (fun _ => rfl) rfl fun _ _ _ => routeModeRule_deeds⟩
  | moveSwitch dt f => exact ⟨_, _, _, .ordinary (fun _ => rfl) rfl fun _ _ _ => moveSwitchRule_deeds⟩
  | _ => cases hc

/-! ### Frames turned away -/

/-- The answer of the common handling alone turns the command away (Table 10-2, R47). -/
theorem turnedAway_of {cls : FrameClass} {res : Result} (hk : cls.keeps = keepsSelection i)
    (h : t = ((s.advance i.wait).beforeCommand cls).respond (!cls.keeps && s.selection.isSome) res .nothing) :
    s.turnedAway i res t := by
  have ha : t.answered (!keepsSelection i && s.selection.isSome) res := by
    rw [h, hk]
    exact respond_answered _ _ _ _
  rw [respond_eq] at h
  cases hi : keepsSelection i with
  | false =>
    rw [beforeCommand_ordinary (hk.trans hi)] at h
    rw [hi] at ha
    refine ⟨?_, ?_, ?_, by rw [hi]; exact ha⟩
    · rw [h]
      exact ⟨rfl, rfl, ⟨rfl, rfl, rfl, rfl⟩, ⟨rfl, rfl, rfl, rfl, rfl, rfl⟩, rfl⟩
    · rw [h, hi]
      rfl
    · rw [h, hi]
      rfl
  | true =>
    rw [beforeCommand_keeping (hk.trans hi)] at h
    rw [hi] at ha
    refine ⟨?_, ?_, ?_, by rw [hi]; exact ha⟩
    · rw [h]
      exact ⟨rfl, rfl, ⟨rfl, rfl, rfl, rfl⟩, ⟨rfl, rfl, rfl, rfl, rfl, rfl⟩, rfl⟩
    · rw [h, hi]
      rfl
    · rw [h, hi]
      rfl

/-- Settles O24, on the three lines of Table 10-2 before the owner's rule. -/
theorem commandsTurnedAway : Obligations.CommandsTurnedAway := by
  intro i s hw hc
  obtain ⟨cls, own, next, k⟩ := command_frame hw hc
  refine ⟨fun hl hi => ?_, fun hl hm hi hj => ?_, fun hl => ?_⟩
  · have hcut : cls.afterCut = false := by
      by_contra h
      obtain ⟨dt, f, e⟩ := k.cut (by simpa using h)
      exact hi dt f e
    exact ⟨_, k.taken s, turnedAway_of k.keeps (takeFrame_cut (s := s.advance i.wait) hl hcut own next)⟩
  · have hload : cls.inLoading = false := by
      by_contra h
      rcases k.loading (by simpa using h) with ⟨dt, f, e⟩ | ⟨dt, code, f, e⟩
      · exact hi dt f e
      · exact hj dt code f e
    exact ⟨_, k.taken s, turnedAway_of k.keeps (takeFrame_loading (s := s.advance i.wait) hl hm hload own next)⟩
  · rw [k.taken s, takeFrame_outside (s := s.advance i.wait) hl]

/-! ### The open hold selection -/

/-- No effect opens a selection but those of the commands that R47 excepts. -/
theorem Effect.selection_none {a b : State} (h : Effect i a b) (hi : keepsSelection i = false) (k : a.selection = none) :
    b.selection = none := by
  cases h with
  | selection sel ok =>
    cases sel with
    | none => rfl
    | some sel => rw [hi] at ok; cases (ok rfl).1
  | takeUp | putAway => rfl
  | beginStore | endStore | toAuto | toMaintenance => exact k
  | _ => exact k

theorem raise_notice (r : Ride) (n : Notice) : (r.raise n).notice? n = true := withBit_self _ _ (by cases n <;> decide)

/-- Settles O23: the common handling closes the selection and raises the notice, and no rule opens one or takes the notice away. -/
theorem selectionIsDiscarded : Obligations.SelectionIsDiscarded := by
  intro i s t hw hc hl hs h
  obtain ⟨cls, own, next, k⟩ := command_frame hw hc
  rw [k.taken s] at h
  cases h
  have hadv : ((s.advance i.wait).selection).isSome = true := hs
  rcases takeFrame_cases (s.advance i.wait) cls own next with ⟨hl', -⟩ | ⟨res, n, e⟩
  · rw [show s.link.takesFrame = none from hl'] at hl
    cases hl
  have hans : ((s.advance i.wait).takeFrame cls own next).answered (!keepsSelection i) res n := by
    rw [hadv, Bool.and_true, k.keeps] at e
    rcases e with e | ⟨-, e⟩ <;> rw [e] <;> exact respond_answered _ _ _ _
  refine ⟨fun hk => ?_, fun hk => ?_⟩
  · rw [hk] at hans
    have hb := beforeCommand_ordinary (s := s.advance i.wait) (k.keeps.trans hk)
    have hnone : ((s.advance i.wait).beforeCommand cls).selection = none := by rw [hb]
    have hnotice : ((s.advance i.wait).beforeCommand cls).ride.notice? .selectionDiscarded = true := by
      rw [hb]
      simp only [State.told, hadv, if_true]
      exact raise_notice _ _
    rcases e with e | ⟨hm, e⟩
    · rw [e]
      exact ⟨hnone, hnotice, _, _, e ▸ hans⟩
    · have heff := (k.rule _ hm (beforeCommand_link cls)).effects
      have closed := heff.induct (fun r => r.selection = none) (fun _ _ h => h.selection_none hk) hnone
      have told := heff.induct (fun r => r.ride.notice? .selectionDiscarded = true)
        (fun _ _ h => h.grows.2 (fun dt e => by rw [e] at hc; cases hc) _) hnotice
      rw [e]
      exact ⟨closed, told, _, _, e ▸ hans⟩
  · rw [hk] at hans
    refine ⟨⟨_, _, hans⟩, fun hi => ?_⟩
    have hb : ((s.advance i.wait).beforeCommand cls).selection.isSome = true := by
      rw [beforeCommand_keeping (k.keeps.trans hk)]
      exact hs
    rcases e with e | ⟨-, e⟩
    · rw [e]
      exact hb
    · rw [e]
      exact k.opened hk hi _ hb

end Sys2Proof.Machine
end

section
/-! PROOF. The link unit's and the map store's commands: what each leaves, as its own rule after the common handling of frames. -/

namespace Sys2Proof.Machine

variable {i : Instr} {s t : State} {dt : Nat} {f : Frame}

/-! ### A frame taken by its owner -/

/-- The state in which its owner finds a command that R47 does not except. -/
def State.asked (s : State) (dt : Nat) : State :=
  { s with now := s.now + dt, link := .awaitingFrame, dataOut := (s.advance dt).frameBytes, selection := none, ride := s.told }

/-- The state in which its owner finds a command that R47 excepts. -/
def State.queried (s : State) (dt : Nat) : State :=
  { s with now := s.now + dt, link := .awaitingFrame, dataOut := (s.advance dt).frameBytes }

theorem asked_eq (s : State) (dt : Nat) : (s.advance dt).beforeCommand .ordinary = s.asked dt := beforeCommand_ordinary rfl

theorem queried_eq {cls : FrameClass} (h : cls.keeps = true) (s : State) (dt : Nat) :
    (s.advance dt).beforeCommand cls = s.queried dt := beforeCommand_keeping h

/-- What is left of a state that a response has been prepared in: all but the link. -/
def State.Answers (t0 t : State) (discarded : Bool) (res : Result) (next : Follow) : Prop :=
  t.answered discarded res next ∧ t = { t0 with link := t.link, dataOut := t.dataOut, answers := t.answers }

theorem respond_answers (t0 : State) (discarded : Bool) (res : Result) (next : Follow) :
    t0.Answers (t0.respond discarded res next) discarded res next :=
  ⟨respond_answered _ _ _ _, by rw [respond_eq]⟩

/-- A command that R47 does not except, taken and answered with its rule's result, after its rule's effect. -/
theorem ordinary_answers {own : State → Result × State} {next : Follow} {res : Result} {t0 : State} (h : s.takes)
    (rule : own (s.asked dt) = (res, t0)) :
    t0.Answers ((s.advance dt).takeFrame .ordinary own next) s.selection.isSome res (res.follow next) := by
  rw [takeFrame_taken (s := s.advance dt) h, asked_eq, rule]
  exact respond_answers t0 _ _ _

/-- The same for a command that R47 excepts. -/
theorem keeping_answers {own : State → Result × State} {next : Follow} {res : Result} {t0 : State} (h : s.takes)
    (rule : own (s.queried dt) = (res, t0)) :
    t0.Answers ((s.advance dt).takeFrame .keeping own next) false res (res.follow next) := by
  rw [takeFrame_taken (s := s.advance dt) h, queried_eq rfl, rule]
  exact respond_answers t0 _ _ _

/-- A rule without effect turns the command away. -/
theorem ordinary_turnedAway {own : State → Result × State} {next : Follow} {res : Result} (h : s.takes) (hk : keepsSelection i = false)
    (rule : own (s.asked i.wait) = (res, s.asked i.wait)) (hres : res.follow next = .nothing) :
    s.turnedAway i res ((s.advance i.wait).takeFrame .ordinary own next) := by
  refine turnedAway_of (cls := .ordinary) hk.symm ?_
  rw [takeFrame_taken (s := s.advance i.wait) h, asked_eq, rule, hres]
  rfl

theorem keeping_turnedAway {own : State → Result × State} {next : Follow} {res : Result} (h : s.takes) (hk : keepsSelection i = true)
    (rule : own (s.queried i.wait) = (res, s.queried i.wait)) (hres : res.follow next = .nothing) :
    s.turnedAway i res ((s.advance i.wait).takeFrame .keeping own next) := by
  refine turnedAway_of (cls := .keeping) hk.symm ?_
  rw [takeFrame_taken (s := s.advance i.wait) h, queried_eq rfl, rule, hres]
  rfl

/-! ### Frames that are no command, and select -/

/-- Settles O27. -/
theorem framesAndSelect : Obligations.FramesAndSelect := by
  refine ⟨fun s dt code f hw hl => ?_, fun s dt code f check hw hl => ?_, fun s dt hl hp => ?_, fun s dt hr => ?_⟩
  · obtain ⟨cls, own, next, k⟩ := command_frame hw rfl
    have hcode : commandCodes.contains code.toNat = false := by simpa [Instr.wf] using hw
    refine ⟨_, rfl, turnedAway_of (i := .unknownCommand dt code f) (cls := unknownClass) rfl ?_⟩
    rw [if_neg (by simpa using hcode), takeFrame_always (s := s.advance dt) hl rfl]
    rfl
  · have hcheck : check ≠ crc8 (frameHead code f) := by simpa [Instr.wf] using hw
    refine ⟨_, rfl, ?_⟩
    rw [if_neg hcheck, failFrame_taken (s := s.advance dt) hl]
    exact respond_answers _ _ _ _
  · change Host.Outcome.next (s.advance dt).select = _
    simp [State.select, hl, hp, State.advance]
  · change Host.Outcome.next (s.advance dt).deselect = _
    unfold State.deselect
    split
    · next h =>
      rw [show s.link = _ from h] at hr
      cases hr
    · rfl

/-! ### The map store -/

/-- Settles O29. -/
theorem checkMap : Obligations.CheckMap := by
  intro s dt f hl
  refine ⟨rfl, _, rfl, ?_⟩
  split
  · next hm =>
    have k : s.turnedAway (.checkMap dt f) .busy _ :=
      turnedAway_of (cls := .ordinary) rfl (takeFrame_loading (s := s.advance dt) hl hm rfl (fun s => (.done, s.validated)) .nothing)
    exact ⟨k.2.2.2, k.1⟩
  · next hm => exact ordinary_answers (own := fun s => (.done, s.validated)) (next := .nothing) ⟨hl, hm⟩ rfl

theorem image_written_sound (m : CircuitMap) : (Image.written m).sound = true := by simp [Image.sound, Image.written]

theorem storeRule_stores (hs : s.storing = none) (hm : s.mode ≠ .auto) (hv : s.map.validate.outcome = .pass) :
    storeRule s = (.done, s.validated.beginStore) := by
  simp [storeRule, hs, hm, hv]

theorem storeRule_fails (hs : s.storing = none) (hm : s.mode ≠ .auto) (hv : s.map.validate.outcome ≠ .pass) :
    storeRule s = (.conflict, s.validated) := by
  simp [storeRule, hs, hm, hv, State.refuse]

theorem reloadRule_sound (hs : s.storing = none) (hm : s.mode = .config) (hi : s.image.sound = true) :
    reloadRule s = (.done, { s with map := s.image.content }) := by
  simp [reloadRule, hs, hm, hi]

theorem reloadRule_unsound (hs : s.storing = none) (hm : s.mode = .config) (hi : s.image.sound = false) :
    reloadRule s = (.conflict, { s with ride := s.ride.raise .loadFailed }) := by
  simp [reloadRule, hs, hm, hi]

/-- Settles O31. -/
theorem storesAndReloads : Obligations.StoresAndReloads := by
  refine ⟨fun s dt f ht hs hm hv => ⟨_, rfl, ordinary_answers ht (storeRule_stores hs hm hv)⟩,
    fun s dt f ht hs hm hv => ⟨_, rfl, ordinary_answers ht (storeRule_fails hs hm hv)⟩, fun s dt m hs => ?_, fun s dt f hl hs hm => ?_⟩
  · refine ⟨(s.advance dt).finishStore, rfl, ?_⟩
    have hfin : (s.advance dt).finishStore =
        { s with now := s.now + dt, storing := none, image := Image.written m, ride := s.ride.raise .storeDone } := by
      simp only [State.finishStore, State.advance_storing, hs]
      rfl
    rw [hfin]
    exact ⟨rfl, rfl, rfl, rfl, image_written_sound m, rfl⟩
  · have ht : s.takes := ⟨hl, by simp [hm]⟩
    refine ⟨_, rfl, ?_⟩
    split
    · next hi => exact ordinary_answers ht (reloadRule_sound hs hm hi)
    · next hi => exact ordinary_answers ht (reloadRule_unsound hs hm (Bool.eq_false_iff.mpr hi))

/-! ### Start-up resets -/

theorem restartRule_done (hs : s.storing = none) (hm : s.mode ≠ .auto) : restartRule s = (.done, s) := by
  simp [restartRule, hs, hm]

/-- A part whose blocks hold no record asserts no output (Table 11-2). -/
theorem outputs_released (h : s.ride = Ride.reset) : s.outputsReleased := by
  refine ⟨fun ch => ?_, fun z => ?_, fun line => ?_⟩
  · have hc : s.ride.channel? ch = none := by rw [h]; exact tget_replicate _ _
    simp [State.setpoint, State.enable, hc]
  · have he : s.ride.element? z = none := by rw [h]; exact tget_replicate _ _
    simp [State.elementOutput, he]
  · have hw : ∀ w, s.ride.switch? w = none := by rw [h]; exact tget_replicate _
    simp [State.switchOutput, hw]

theorem takeRestart_eq {wait : Nat} {rest : List Byte} (h : s.link = .responding wait rest .restart) :
    s.takeRestart = { startUpReset s with dataOut := List.replicate wait Config.waitByte ++ rest } := by
  simp only [State.takeRestart, h]

theorem deselect_restart {wait : Nat} {rest : List Byte} (h : s.link = .responding wait rest .restart) :
    s.deselect = startUpReset s := by
  simp only [State.deselect, h]

/-- The command that makes a start-up reset leaves the reset state, but for the supply, the reset line and the data output. -/
theorem exec_reset (h : s.resetBy i = true) : ∃ powered line bytes,
    exec i s = .next { startUpReset (s.advance i.wait) with powered := powered, resetLine := line, dataOut := bytes } ∧
      (∀ dt, i = .powerFail dt → powered = false) ∧ (∀ dt, i = .powerOn dt → powered = true) ∧
      (∀ dt, i = .resetAsserted dt → powered = true ∧ line = true) ∧
      ∀ dt wait rest, i = .restartTakesEffect dt → s.link = .responding wait rest .restart →
        bytes = List.replicate wait 0xFF#8 ++ rest := by
  have due : s.link.restartDue = true → ∃ wait rest, s.link = .responding wait rest .restart := by
    intro h
    unfold Link.restartDue at h
    split at h
    · next e => exact ⟨_, _, e⟩
    · cases h
  cases i with
  | restartTakesEffect dt =>
    obtain ⟨wait, rest, hl⟩ := due h
    refine ⟨s.powered, s.resetLine, List.replicate wait 0xFF#8 ++ rest, ?_, by simp, by simp, by simp, fun _ _ _ _ h' => ?_⟩
    · exact congrArg Host.Outcome.next (takeRestart_eq (s := s.advance dt) hl)
    · rw [hl] at h'
      cases h'
      rfl
  | selectReleased dt =>
    obtain ⟨wait, rest, hl⟩ := due h
    refine ⟨s.powered, s.resetLine, [], ?_, by simp, by simp, by simp, by simp⟩
    exact congrArg Host.Outcome.next (deselect_restart (s := s.advance dt) hl)
  | powerOn dt =>
    have hp : s.powered = false := by simpa [State.resetBy] using h
    refine ⟨true, false, [], ?_, by simp, by simp, by simp, by simp⟩
    exact congrArg Host.Outcome.next (if_neg (by simp [hp]))
  | powerFail dt => exact ⟨false, false, [], rfl, by simp, by simp, by simp, by simp⟩
  | resetAsserted dt =>
    have hp : s.powered = true := h
    refine ⟨s.powered, true, [], ?_, by simp, by simp, by simp [hp], by simp⟩
    exact congrArg Host.Outcome.next (if_pos hp)
  | _ => cases h

/-- Settles O32. -/
theorem resetsDiscardLiveState : Obligations.ResetsDiscardLiveState := by
  refine ⟨fun s dt f ht hs hm => ⟨_, rfl, ordinary_answers ht (restartRule_done hs hm)⟩, fun i s h => ?_⟩
  obtain ⟨powered, line, bytes, he, h1, h2, h3, h4⟩ := exec_reset h
  refine ⟨_, he, rfl, rfl, rfl, rfl, rfl, rfl, rfl, outputs_released rfl, rfl, rfl, rfl, rfl, fun hs => ?_, fun hs => ?_, h1, h2, h3, h4⟩
  · simp [startUpReset, State.imageAfterCut, hs]
  · simp [startUpReset, State.imageAfterCut, hs]

end Sys2Proof.Machine
end

section
/-! PROOF. The codec of map descriptors: the bytes of each field and the field of its bytes, and from them every descriptor's round
trip in both directions; the ranges of the map. -/

namespace Sys2Proof.Machine

/-! ### The fields of a body -/

theorem toNat_byteOf (n : Nat) (h : n < 256) : (byteOf n).toNat = n := by simp [byteOf]; omega

theorem byteOf_toNat (b : Byte) : byteOf b.toNat = b := by simp [byteOf]

theorem rd1_lt (bs : List Byte) (k : Nat) : rd1 bs k < 256 := (bs.getD k 0#8).isLt

@[simp] theorem rd1_zero (b : Byte) (bs : List Byte) : rd1 (b :: bs) 0 = b.toNat := rfl

@[simp] theorem rd1_succ (b : Byte) (bs : List Byte) (k : Nat) : rd1 (b :: bs) (k + 1) = rd1 bs k := rfl

/-- A body is the list of its bytes. -/
theorem body_eq_map (bs : List Byte) : bs = (List.range bs.length).map fun k => byteOf (rd1 bs k) := by
  refine List.ext_getElem (by simp) fun k h1 h2 => ?_
  simp [rd1, byteOf_toNat, List.getElem?_eq_getElem h1]

theorem be2_rd2 (bs : List Byte) (k : Nat) : be2 (rd2 bs k) = [byteOf (rd1 bs k), byteOf (rd1 bs (k + 1))] := by
  have h1 := rd1_lt bs k
  have h2 := rd1_lt bs (k + 1)
  simp only [be2, rd2, List.cons.injEq, and_true, byteOf]
  exact ⟨by congr 1; omega, BitVec.eq_of_toNat_eq (by simp)⟩

theorem be3_rd3 (bs : List Byte) (k : Nat) :
    be3 (rd3 bs k) = [byteOf (rd1 bs k), byteOf (rd1 bs (k + 1)), byteOf (rd1 bs (k + 2))] := by
  have h1 := rd1_lt bs k
  have h2 := rd1_lt bs (k + 1)
  have h3 := rd1_lt bs (k + 2)
  simp only [be3, rd3, List.cons.injEq, and_true, byteOf]
  exact ⟨by congr 1; omega, BitVec.eq_of_toNat_eq (by simp; omega), BitVec.eq_of_toNat_eq (by simp; omega)⟩

theorem rd2_be2 (n : Nat) (h : n ≤ 65535) : (byteOf (n / 256)).toNat * 256 + (byteOf n).toNat = n := by
  simp [byteOf]
  omega

theorem rd3_be3 (n : Nat) (h : n < 16777216) :
    (byteOf (n / 65536)).toNat * 65536 + (byteOf (n / 256)).toNat * 256 + (byteOf n).toNat = n := by
  simp [byteOf]
  omega

theorem rd4_be4 (n : Nat) (h : n < 4294967296) :
    ((byteOf (n / 16777216)).toNat * 256 + (byteOf (n / 65536)).toNat) * 65536 + ((byteOf (n / 256)).toNat * 256 + (byteOf n).toNat) =
      n := by
  simp [byteOf]
  omega

theorem be4_rd (bs : List Byte) (k : Nat) : be4 (rd2 bs k * 65536 + rd2 bs (k + 2)) =
    [byteOf (rd1 bs k), byteOf (rd1 bs (k + 1)), byteOf (rd1 bs (k + 2)), byteOf (rd1 bs (k + 3))] := by
  have h1 := rd1_lt bs k
  have h2 := rd1_lt bs (k + 1)
  have h3 := rd1_lt bs (k + 2)
  have h4 := rd1_lt bs (k + 3)
  simp only [be4, rd2, show k + 2 + 1 = k + 3 from rfl, List.cons.injEq, and_true, byteOf]
  exact ⟨by congr 1; omega, BitVec.eq_of_toNat_eq (by simp; omega), BitVec.eq_of_toNat_eq (by simp; omega),
    BitVec.eq_of_toNat_eq (by simp; omega)⟩

/-! ### Indices, lengths and codes -/

section
variable {n v : Nat}

theorem ixOf_byte (i : Fin n) (hn : n ≤ 256) : ixOf n (byteOf i.val).toNat = some i := by
  rw [toNat_byteOf _ (by omega), ixOf_self]

theorem byte_of_ixOf {i : Fin n} (h : ixOf n v = some i) : byteOf i.val = byteOf v := by rw [ixOf_val h]

theorem optIx_byte (o : Option (Fin n)) (hn : n ≤ 255) : optIx n (optByte o).toNat = some o := by
  cases o with
  | none => rfl
  | some i =>
    change optIx n (byteOf i.val).toNat = _
    rw [toNat_byteOf _ (by omega), optIx, if_neg (by omega), ixOf_self]
    rfl

theorem byte_of_optIx {o : Option (Fin n)} (h : optIx n v = some o) : optByte o = byteOf v := by
  unfold optIx at h
  split at h
  · next e => cases h; rw [e]; rfl
  · obtain ⟨i, hi, rfl⟩ := Option.map_eq_some_iff.mp h
    exact byte_of_ixOf hi

theorem lenOpt_optLen (o : Option Nat) (h : ∀ p, o = some p → p ≠ 0) : lenOpt (optLen o) = o := by
  cases o with
  | none => rfl
  | some p => simp [lenOpt, optLen, h p rfl]

theorem optLen_lenOpt (v : Nat) : optLen (lenOpt v) = v := by
  unfold lenOpt optLen
  split
  · next e => exact e.symm
  · rfl

theorem zoneKindOf_iff {k : ZoneKind} : zoneKindOf v = some k ↔ v = k.code := by
  unfold zoneKindOf
  split <;> cases k <;> simp_all [ZoneKind.code]

theorem transitOf_iff {k : TransitMode} : transitOf v = some k ↔ v = k.code := by
  unfold transitOf
  split <;> cases k <;> simp_all [TransitMode.code]

theorem severityOf_iff {k : Severity} : severityOf v = some k ↔ v = k.code := by
  unfold severityOf
  split <;> cases k <;> simp_all [Severity.code]

theorem flagOf_iff {k : Bool} : flagOf v = some k ↔ v = (flagByte k).toNat := by
  unfold flagOf
  split <;> cases k <;> simp_all [flagByte]

theorem routeModeOf_iff {k : RouteMode} : routeModeOf v = some k ↔ v = k.code := by
  unfold routeModeOf
  split <;> cases k <;> simp_all [RouteMode.code]

theorem authorityOf_iff {k : Authority} : authorityOf v = some k ↔ v = k.code := by
  unfold authorityOf
  split <;> cases k <;> simp_all [Authority.code]

theorem profileOf_iff {k : StopProfile} : profileOf v = some k ↔ v = k.code := by
  unfold profileOf
  split <;> cases k <;> simp_all [StopProfile.code]

end

theorem ZoneKind.code_byte (k : ZoneKind) : (byteOf k.code).toNat = k.code := by cases k <;> rfl
theorem TransitMode.code_byte (k : TransitMode) : (byteOf k.code).toNat = k.code := by cases k <;> rfl
theorem Severity.code_byte (k : Severity) : (byteOf k.code).toNat = k.code := by cases k <;> rfl
theorem RouteMode.code_byte (k : RouteMode) : (byteOf k.code).toNat = k.code := by cases k <;> rfl
theorem Authority.code_byte (k : Authority) : (byteOf k.code).toNat = k.code := by cases k <;> rfl
theorem StopProfile.code_byte (k : StopProfile) : (byteOf k.code).toNat = k.code := by cases k <;> rfl

theorem byte_of_flagOf {v : Nat} {k : Bool} (h : flagOf v = some k) : flagByte k = byteOf v := by
  rw [flagOf_iff.mp h, byteOf_toNat]

/-! ### The fields that depend on a kind -/

theorem elementOf_fields (e : ElementDesc) (h : e.inRange = true) :
    elementOf e.fields.1.toNat e.fields.2.1.toNat e.fields.2.2.1.toNat e.fields.2.2.2.1 e.fields.2.2.2.2.toNat = some e := by
  cases e with
  | none => rfl
  | brake o c t =>
    change elementOf 1 (byteOf o.val).toNat (byteOf c.val).toNat t 255 = _
    simp only [elementOf, if_true, ixOf_byte o (by omega), ixOf_byte c (by omega)]
  | drive ch =>
    change elementOf 2 255 255 0 (byteOf ch.val).toNat = _
    simp [elementOf, ixOf_byte ch (by omega)]

theorem fields_of_elementOf {kind o c t ch : Nat} {e : ElementDesc} (h : elementOf kind o c t ch = some e) :
    e.fields = (byteOf kind, byteOf o, byteOf c, t, byteOf ch) := by
  unfold elementOf at h
  split at h
  · split at h
    · next k => obtain ⟨rfl, rfl, rfl, rfl⟩ := k; cases h; rfl
    · cases h
  · split at h
    · next k =>
      subst k
      split at h
      · next _ _ h1 h2 => cases h; rw [ElementDesc.fields, byte_of_ixOf h1, byte_of_ixOf h2]; rfl
      · cases h
    · cases h
  · split at h
    · next k =>
      obtain ⟨rfl, rfl, rfl⟩ := k
      obtain ⟨i, hi, rfl⟩ := Option.map_eq_some_iff.mp h
      rw [ElementDesc.fields, byte_of_ixOf hi]
      rfl
    · cases h
  · cases h

theorem switchKindOf_fields (k : SwitchKind) : switchKindOf (byteOf k.code).toNat k.modeByte.toNat = some k := by
  cases k with
  | merge => rfl
  | diverge m => cases m <;> rfl

theorem fields_of_switchKindOf {kind mode : Nat} {k : SwitchKind} (h : switchKindOf kind mode = some k) :
    byteOf k.code = byteOf kind ∧ k.modeByte = byteOf mode := by
  unfold switchKindOf at h
  split at h
  · obtain ⟨m, hm, rfl⟩ := Option.map_eq_some_iff.mp h
    rw [routeModeOf_iff.mp hm]
    exact ⟨rfl, rfl⟩
  · split at h
    · next e => cases h; rw [e]; exact ⟨rfl, rfl⟩
    · cases h
  · cases h

theorem functionOf_fields (g : InputFunction) : functionOf g.fields.1.toNat g.fields.2.toNat = some g := by
  cases g with
  | none => rfl
  | estop => rfl
  | zoneHold z =>
    change (ixOf 48 (byteOf z.val).toNat).map _ = _
    rw [ixOf_byte z (by omega)]
    rfl
  | dispatchA st | dispatchB st | restraint st | gate st =>
    change (ixOf 4 (byteOf st.val).toNat).map _ = _
    rw [ixOf_byte st (by omega)]
    rfl

theorem fields_of_functionOf {function target : Nat} {g : InputFunction} (h : functionOf function target = some g) :
    g.fields = (byteOf function, byteOf target) := by
  have ix : ∀ {n : Nat} {mk : Fin n → InputFunction} {code : Nat}, (ixOf n target).map mk = some g →
      (∀ i, (mk i).fields = (byteOf code, byteOf i.val)) → g.fields = (byteOf code, byteOf target) := by
    intro n mk code h hf
    obtain ⟨i, hi, rfl⟩ := Option.map_eq_some_iff.mp h
    rw [hf, byte_of_ixOf hi]
  unfold functionOf at h
  split at h
  · split at h
    · next e => cases h; rw [e]; rfl
    · cases h
  · split at h
    · next e => cases h; rw [e]; rfl
    · cases h
  · exact ix h fun _ => rfl
  · exact ix h fun _ => rfl
  · exact ix h fun _ => rfl
  · exact ix h fun _ => rfl
  · exact ix h fun _ => rfl
  · cases h

/-! ### Every descriptor's round trip -/

theorem decodeZone_encode (d : ZoneDesc) (h : d.inRange = true) : decodeZone (encodeZone d) = some d := by
  have hr := h
  simp only [ZoneDesc.inRange, Bool.and_eq_true, within_eq_true_iff, decide_eq_true_eq] at h
  obtain ⟨⟨⟨⟨⟨⟨⟨⟨⟨⟨⟨⟨hel, hrunA⟩, hrunB⟩, hmin⟩, hmax⟩, hslack⟩, hmargin⟩, htmin⟩, htmax⟩, hrel⟩, hstop⟩, -⟩, -⟩ := h
  have htimeout : d.element.fields.2.2.2.1 ≤ 65535 := by
    cases he : d.element with
    | brake o c t =>
      rw [he] at hel
      simp only [ElementDesc.inRange, within_eq_true_iff] at hel
      exact hel.2.trans (by decide)
    | _ => exact Nat.zero_le _
  have hlen : optLen d.runB < 16777216 ∧ ∀ p, d.runB = some p → p ≠ 0 := by
    cases hb : d.runB with
    | none => exact ⟨by decide, fun p h => by cases h⟩
    | some p =>
      rw [hb] at hrunB
      simp only [within_eq_true_iff] at hrunB
      exact ⟨show p < _ by omega, fun q h => by cases h; omega⟩
  have hbytes : encodeZone d = [byteOf d.kind.code, d.element.fields.1, d.element.fields.2.1, d.element.fields.2.2.1,
      byteOf (d.element.fields.2.2.2.1 / 256), byteOf d.element.fields.2.2.2.1,
      d.element.fields.2.2.2.2, optByte d.succA, optByte d.succB, byteOf d.entryA.val, optByte d.entryB, optByte d.switch,
      byteOf (d.runA / 65536), byteOf (d.runA / 256), byteOf d.runA, byteOf (optLen d.runB / 65536), byteOf (optLen d.runB / 256),
      byteOf (optLen d.runB), optByte d.berth, byteOf (d.minSpeed / 256), byteOf d.minSpeed, byteOf (d.maxSpeed / 256),
      byteOf d.maxSpeed, byteOf d.transit.code, byteOf d.slack, byteOf (d.margin / 256), byteOf d.margin, byteOf (d.tmin / 65536),
      byteOf (d.tmin / 256), byteOf d.tmin, byteOf (d.tmax / 65536), byteOf (d.tmax / 256), byteOf d.tmax, byteOf (d.release / 65536),
      byteOf (d.release / 256), byteOf d.release, byteOf (d.stop / 65536), byteOf (d.stop / 256), byteOf d.stop,
      byteOf d.severity.code, optByte d.station] := rfl
  rw [hbytes]
  simp [decodeZone, rd2, rd3, zoneKindOf_iff.mpr (ZoneKind.code_byte _), rd2_be2, rd3_be3, htimeout, elementOf_fields _ hel,
    optIx_byte, ixOf_byte, transitOf_iff.mpr (TransitMode.code_byte _), severityOf_iff.mpr (Severity.code_byte _), hlen.1,
    lenOpt_optLen _ hlen.2, rd2_be2 _ hmin.2, rd2_be2 _ hmax.2, rd2_be2 _ hmargin.2,
    rd3_be3 d.runA (by omega), rd3_be3 d.tmin (by omega), rd3_be3 d.tmax (by omega), rd3_be3 d.release (by omega),
    rd3_be3 d.stop (by omega), toNat_byteOf d.slack (by omega), hr]

theorem decodeBoundary_encode (d : BoundaryDesc) (h : d.inRange = true) : decodeBoundary (encodeBoundary d) = some d := by
  have hgate := (within_eq_true_iff.mp h).2
  change decodeBoundary [byteOf d.up.val, byteOf d.down.val, byteOf d.uLine.val, byteOf d.dLine.val, byteOf (d.gate / 256),
    byteOf d.gate, flagByte d.rollback] = _
  simp [decodeBoundary, rd2, ixOf_byte, flagOf_iff.mpr rfl, rd2_be2 d.gate (by omega), h]

theorem decodeSwitch_encode (d : SwitchDesc) (h : d.inRange = true) : decodeSwitch (encodeSwitch d) = some d := by
  have htimeout := (within_eq_true_iff.mp h).2
  change decodeSwitch [byteOf d.kind.code, byteOf d.zone.val, byteOf d.outA.val, byteOf d.outB.val, byteOf d.proofA.val,
    byteOf d.proofB.val, byteOf (d.timeout / 256), byteOf d.timeout, d.kind.modeByte] = _
  simp [decodeSwitch, rd2, ixOf_byte, switchKindOf_fields, rd2_be2 d.timeout (by omega), h]

theorem decodeStation_encode (d : StationDesc) (h : d.inRange = true) : decodeStation (encodeStation d) = some d := by
  have hr := h
  simp only [StationDesc.inRange, Bool.and_eq_true, within_eq_true_iff] at h
  obtain ⟨⟨-, hpair⟩, -, hwait⟩ := h
  change decodeStation [byteOf d.zone.val, byteOf d.restraint.val, byteOf d.gate.val, byteOf d.dispatchA.val, byteOf d.dispatchB.val,
    byteOf d.authority.code, byteOf (d.pairWindow / 256), byteOf d.pairWindow, byteOf (d.dispatchWait / 16777216),
    byteOf (d.dispatchWait / 65536), byteOf (d.dispatchWait / 256), byteOf d.dispatchWait] = _
  simp [decodeStation, rd2, ixOf_byte, authorityOf_iff.mpr (Authority.code_byte _), rd2_be2 d.pairWindow (by omega),
    rd4_be4 d.dispatchWait (by omega), hr]

theorem decodeDrive_encode (d : DriveDesc) (h : d.inRange = true) : decodeDrive (encodeDrive d) = some d := by
  have hr := h
  simp only [DriveDesc.inRange, Bool.and_eq_true, within_eq_true_iff, decide_eq_true_eq] at h
  obtain ⟨⟨⟨⟨⟨hrun, hcreep⟩, hstep⟩, hstop⟩, hint⟩, -⟩ := h
  change decodeDrive [byteOf (d.run / 256), byteOf d.run, byteOf (d.creep / 256), byteOf d.creep, byteOf d.step,
    byteOf (d.stopStep / 256), byteOf d.stopStep, byteOf d.interval, byteOf d.profile.code] = _
  simp [decodeDrive, rd2, profileOf_iff.mpr (StopProfile.code_byte _), rd2_be2 d.run (by omega), rd2_be2 d.creep (by omega),
    rd2_be2 d.stopStep (by omega), toNat_byteOf d.step (by omega), toNat_byteOf d.interval (by omega), hr]

theorem decodeInput_encode (d : InputDesc) : decodeInput (encodeInput d) = some d := by
  simp [decodeInput, encodeInput, functionOf_fields, flagOf_iff.mpr rfl]

theorem decodeCircuit_encode (d : CircuitDesc) (h : d.inRange = true) : decodeCircuit (encodeCircuit d) = some d := by
  have hr := h
  simp only [CircuitDesc.inRange, Bool.and_eq_true, within_eq_true_iff] at h
  obtain ⟨⟨-, hlen⟩, -, hfilter⟩ := h
  change decodeCircuit [byteOf (d.trainLength / 256), byteOf d.trainLength, byteOf d.filterTime] = _
  simp [decodeCircuit, rd2, rd2_be2 d.trainLength (by omega), toNat_byteOf d.filterTime (by omega), hr]

/-- Settles O7. -/
theorem descriptorRoundTrip : Obligations.DescriptorRoundTrip :=
  ⟨fun d h => ⟨decodeZone_encode d h, rfl⟩, fun d h => ⟨decodeBoundary_encode d h, rfl⟩, fun d h => ⟨decodeSwitch_encode d h, rfl⟩,
    fun d h => ⟨decodeStation_encode d h, rfl⟩, fun d h => ⟨decodeDrive_encode d h, rfl⟩, fun d => ⟨decodeInput_encode d, rfl⟩,
    fun d h => ⟨decodeCircuit_encode d h, rfl⟩⟩

/-! ### Every body that decodes -/

theorem encode_decodeZone {bs : List Byte} {d : ZoneDesc} (h : decodeZone bs = some d) : d.inRange = true ∧ encodeZone d = bs := by
  unfold decodeZone at h
  split at h
  · cases h
  · next hl =>
    simp only [Option.bind_eq_bind, Option.bind_eq_some_iff] at h
    obtain ⟨kind, hkind, element, helement, succA, hsuccA, succB, hsuccB, entryA, hentryA, entryB, hentryB, switch, hswitch, berth,
      hberth, transit, htransit, severity, hseverity, station, hstation, h⟩ := h
    split at h
    · next hr =>
      cases h
      refine ⟨hr, ?_⟩
      conv_rhs => rw [body_eq_map bs, show bs.length = 41 by simpa using hl]
      simp only [encodeZone, ← zoneKindOf_iff.mp hkind, fields_of_elementOf helement, byte_of_optIx hsuccA, byte_of_optIx hsuccB,
        byte_of_ixOf hentryA, byte_of_optIx hentryB, byte_of_optIx hswitch, byte_of_optIx hberth, ← transitOf_iff.mp htransit,
        ← severityOf_iff.mp hseverity, byte_of_optIx hstation, be2_rd2, be3_rd3, optLen_lenOpt]
      rfl
    · cases h

theorem encode_decodeBoundary {bs : List Byte} {d : BoundaryDesc} (h : decodeBoundary bs = some d) :
    d.inRange = true ∧ encodeBoundary d = bs := by
  unfold decodeBoundary at h
  split at h
  · cases h
  · next hl =>
    simp only [Option.bind_eq_bind, Option.bind_eq_some_iff] at h
    obtain ⟨up, hup, down, hdown, uLine, huLine, dLine, hdLine, rollback, hrollback, h⟩ := h
    split at h
    · next hr =>
      cases h
      refine ⟨hr, ?_⟩
      conv_rhs => rw [body_eq_map bs, show bs.length = 7 by simpa using hl]
      simp only [encodeBoundary, byte_of_ixOf hup, byte_of_ixOf hdown, byte_of_ixOf huLine, byte_of_ixOf hdLine, be2_rd2,
        byte_of_flagOf hrollback]
      rfl
    · cases h

theorem encode_decodeSwitch {bs : List Byte} {d : SwitchDesc} (h : decodeSwitch bs = some d) : d.inRange = true ∧ encodeSwitch d = bs := by
  unfold decodeSwitch at h
  split at h
  · cases h
  · next hl =>
    simp only [Option.bind_eq_bind, Option.bind_eq_some_iff] at h
    obtain ⟨kind, hkind, zone, hzone, outA, houtA, outB, houtB, proofA, hproofA, proofB, hproofB, h⟩ := h
    split at h
    · next hr =>
      cases h
      refine ⟨hr, ?_⟩
      conv_rhs => rw [body_eq_map bs, show bs.length = 9 by simpa using hl]
      simp only [encodeSwitch, (fields_of_switchKindOf hkind).1, (fields_of_switchKindOf hkind).2, byte_of_ixOf hzone,
        byte_of_ixOf houtA, byte_of_ixOf houtB, byte_of_ixOf hproofA, byte_of_ixOf hproofB, be2_rd2]
      rfl
    · cases h

theorem encode_decodeStation {bs : List Byte} {d : StationDesc} (h : decodeStation bs = some d) :
    d.inRange = true ∧ encodeStation d = bs := by
  unfold decodeStation at h
  split at h
  · cases h
  · next hl =>
    simp only [Option.bind_eq_bind, Option.bind_eq_some_iff] at h
    obtain ⟨zone, hzone, restraint, hrestraint, gate, hgate, dispatchA, hdispatchA, dispatchB, hdispatchB, authority, hauthority, h⟩ := h
    split at h
    · next hr =>
      cases h
      refine ⟨hr, ?_⟩
      conv_rhs => rw [body_eq_map bs, show bs.length = 12 by simpa using hl]
      simp only [encodeStation, byte_of_ixOf hzone, byte_of_ixOf hrestraint, byte_of_ixOf hgate, byte_of_ixOf hdispatchA,
        byte_of_ixOf hdispatchB, ← authorityOf_iff.mp hauthority, be2_rd2, be4_rd]
      rfl
    · cases h

theorem encode_decodeDrive {bs : List Byte} {d : DriveDesc} (h : decodeDrive bs = some d) : d.inRange = true ∧ encodeDrive d = bs := by
  unfold decodeDrive at h
  split at h
  · cases h
  · next hl =>
    simp only [Option.bind_eq_bind, Option.bind_eq_some_iff] at h
    obtain ⟨profile, hprofile, h⟩ := h
    split at h
    · next hr =>
      cases h
      refine ⟨hr, ?_⟩
      conv_rhs => rw [body_eq_map bs, show bs.length = 9 by simpa using hl]
      simp only [encodeDrive, be2_rd2, ← profileOf_iff.mp hprofile]
      rfl
    · cases h

theorem encode_decodeInput {bs : List Byte} {d : InputDesc} (h : decodeInput bs = some d) : encodeInput d = bs := by
  unfold decodeInput at h
  split at h
  · cases h
  · next hl =>
    simp only [Option.bind_eq_bind, Option.bind_eq_some_iff] at h
    obtain ⟨function, hfunction, activeHigh, hactive, filtered, hfiltered, h⟩ := h
    cases h
    conv_rhs => rw [body_eq_map bs, show bs.length = 4 by simpa using hl]
    simp only [encodeInput, fields_of_functionOf hfunction, byte_of_flagOf hactive, byte_of_flagOf hfiltered]
    rfl

theorem encode_decodeCircuit {bs : List Byte} {d : CircuitDesc} (h : decodeCircuit bs = some d) :
    d.inRange = true ∧ encodeCircuit d = bs := by
  unfold decodeCircuit at h
  split at h
  · cases h
  · next hl =>
    dsimp only at h
    split at h
    · next hr =>
      cases h
      refine ⟨hr, ?_⟩
      conv_rhs => rw [body_eq_map bs, show bs.length = 3 by simpa using hl]
      simp only [encodeCircuit, be2_rd2]
      rfl
    · cases h

/-- Settles O8. -/
theorem decodedDescriptorsEncode : Obligations.DecodedDescriptorsEncode :=
  ⟨fun _ _ => encode_decodeZone, fun _ _ => encode_decodeBoundary, fun _ _ => encode_decodeSwitch, fun _ _ => encode_decodeStation,
    fun _ _ => encode_decodeDrive, fun _ _ => encode_decodeInput, fun _ _ => encode_decodeCircuit⟩

end Sys2Proof.Machine
end

section
/-! PROOF. What a write leaves in its slot, the ranges of the maps, and the bytes that the part sends. -/

namespace Sys2Proof.Machine

variable {i : Instr} {s t : State} {dt : Nat} {f : Frame}

/-! ### A slot's content replaced -/

/-- The map with a slot's content the descriptor that a body spells; vacant where it spells none, as the vacating form does. -/
def CircuitMap.spell (m : CircuitMap) (ref : SlotRef) (body : List Byte) : CircuitMap :=
  match ref with
  | .zone z => { m with zones := tput m.zones z (decodeZone body) }
  | .boundary b => { m with boundaries := tput m.boundaries b (decodeBoundary body) }
  | .switch w => { m with switches := tput m.switches w (decodeSwitch body) }
  | .station st => { m with stations := tput m.stations st (decodeStation body) }
  | .drive ch => { m with drives := tput m.drives ch (decodeDrive body) }
  | .input i => { m with inputs := tput m.inputs i (decodeInput body) }
  | .circuit => { m with circuit := decodeCircuit body }

theorem map_some_eq_if {α β : Type} (o : Option α) (g : Option α → β) :
    (o.map fun d => g (some d)) = if o.isSome = true then some (g o) else none := by
  cases o <;> rfl

theorem replace_eq (m : CircuitMap) (ref : SlotRef) (body : List Byte) :
    m.replace ref body = if ref.spelled body = true then some (m.spell ref body) else none := by
  cases ref with
  | zone z => exact map_some_eq_if (decodeZone body) fun d => { m with zones := tput m.zones z d }
  | boundary b => exact map_some_eq_if (decodeBoundary body) fun d => { m with boundaries := tput m.boundaries b d }
  | switch w => exact map_some_eq_if (decodeSwitch body) fun d => { m with switches := tput m.switches w d }
  | station st => exact map_some_eq_if (decodeStation body) fun d => { m with stations := tput m.stations st d }
  | drive ch => exact map_some_eq_if (decodeDrive body) fun d => { m with drives := tput m.drives ch d }
  | input i => exact map_some_eq_if (decodeInput body) fun d => { m with inputs := tput m.inputs i d }
  | circuit => exact map_some_eq_if (decodeCircuit body) fun d => { m with circuit := d }

theorem vacate_eq (m : CircuitMap) (ref : SlotRef) : m.vacate ref = m.spell ref vacantBody := by cases ref <;> rfl

/-- A write succeeds on a block of the slot's kind that vacates it or spells its descriptor (R13, R14). -/
theorem write_eq (m : CircuitMap) (ref : SlotRef) (kind : Nat) (body : List Byte) : m.write ref kind body =
    if kind = ref.kindCode ∧ (body = vacantBody ∨ ref.spelled body = true) then some (m.spell ref body) else none := by
  unfold CircuitMap.write
  by_cases hk : kind = ref.kindCode
  · by_cases hb : body = vacantBody
    · simp [hk, hb, vacate_eq]
    · simp [hk, hb, replace_eq]
  · simp [hk]

theorem spell_holds (m : CircuitMap) (ref : SlotRef) (body : List Byte) : (m.spell ref body).holds ref body := by
  cases ref with
  | circuit => rfl
  | _ => exact tget_tput_same _ _ _

theorem spell_body (m : CircuitMap) (ref : SlotRef) (body : List Byte) (h : body = vacantBody ∨ ref.spelled body = true) :
    (m.spell ref body).body ref = body := by
  have sent : ∀ {α : Type} {o : Option α} {enc : α → List Byte}, (∀ d, o = some d → enc d = body) →
      (body = vacantBody ∨ o.isSome = true) → (o.map enc).getD vacantBody = body := by
    intro α o enc henc h
    cases o with
    | none => exact (h.resolve_right (by simp)).symm
    | some d => exact henc d rfl
  have same := spell_holds m ref body
  cases ref with
  | zone z => exact (congrArg (fun o => (o.map encodeZone).getD vacantBody) same).trans (sent (fun _ h => (encode_decodeZone h).2) h)
  | boundary b =>
    exact (congrArg (fun o => (o.map encodeBoundary).getD vacantBody) same).trans (sent (fun _ h => (encode_decodeBoundary h).2) h)
  | switch w =>
    exact (congrArg (fun o => (o.map encodeSwitch).getD vacantBody) same).trans (sent (fun _ h => (encode_decodeSwitch h).2) h)
  | station st =>
    exact (congrArg (fun o => (o.map encodeStation).getD vacantBody) same).trans (sent (fun _ h => (encode_decodeStation h).2) h)
  | drive ch => exact (congrArg (fun o => (o.map encodeDrive).getD vacantBody) same).trans (sent (fun _ h => (encode_decodeDrive h).2) h)
  | input i => exact (congrArg (fun o => (o.map encodeInput).getD vacantBody) same).trans (sent (fun _ h => encode_decodeInput h) h)
  | circuit =>
    exact (congrArg (fun o => (o.map encodeCircuit).getD vacantBody) same).trans (sent (fun _ h => (encode_decodeCircuit h).2) h)

theorem spell_other (m : CircuitMap) (ref other : SlotRef) (body : List Byte) (h : other ≠ ref) :
    (m.spell ref body).body other = m.body other := by
  have slot : ∀ {α : Type} {n : Nat} (v : Vector (Option α) n) (i j : Fin n) (x : Option α) (enc : α → List Byte), j ≠ i →
      ((tget (tput v i x) j).map enc).getD vacantBody = ((tget v j).map enc).getD vacantBody := by
    intro α n v i j x enc h
    rw [tget_tput_other _ _ _ _ h]
  cases ref with
  | zone z =>
    cases other with
    | zone y => exact slot _ _ _ _ _ fun e => h (congrArg _ e)
    | _ => rfl
  | boundary b =>
    cases other with
    | boundary y => exact slot _ _ _ _ _ fun e => h (congrArg _ e)
    | _ => rfl
  | switch w =>
    cases other with
    | switch y => exact slot _ _ _ _ _ fun e => h (congrArg _ e)
    | _ => rfl
  | station st =>
    cases other with
    | station y => exact slot _ _ _ _ _ fun e => h (congrArg _ e)
    | _ => rfl
  | drive ch =>
    cases other with
    | drive y => exact slot _ _ _ _ _ fun e => h (congrArg _ e)
    | _ => rfl
  | input i =>
    cases other with
    | input y => exact slot _ _ _ _ _ fun e => h (congrArg _ e)
    | _ => rfl
  | circuit =>
    cases other with
    | circuit => exact absurd rfl h
    | _ => rfl

/-- A slot's content put into a table keeps what holds of every content. -/
theorem tput_all {α : Type} {n : Nat} {v : Vector (Option α) n} {i : Fin n} {x : Option α} {P : α → Prop}
    (h : ∀ j d, tget v j = some d → P d) (hx : ∀ d, x = some d → P d) : ∀ j d, tget (tput v i x) j = some d → P d := by
  intro j d hd
  rw [tget_tput] at hd
  split at hd
  · exact hx d hd
  · exact h j d hd

theorem spell_inRange {m : CircuitMap} (h : m.inRange) (ref : SlotRef) (body : List Byte) : (m.spell ref body).inRange := by
  obtain ⟨hz, hb, hw, hst, hch, hc⟩ := h
  cases ref with
  | zone z => exact ⟨tput_all hz fun _ h => (encode_decodeZone h).1, hb, hw, hst, hch, hc⟩
  | boundary b => exact ⟨hz, tput_all hb fun _ h => (encode_decodeBoundary h).1, hw, hst, hch, hc⟩
  | switch w => exact ⟨hz, hb, tput_all hw fun _ h => (encode_decodeSwitch h).1, hst, hch, hc⟩
  | station st => exact ⟨hz, hb, hw, tput_all hst fun _ h => (encode_decodeStation h).1, hch, hc⟩
  | drive ch => exact ⟨hz, hb, hw, hst, tput_all hch fun _ h => (encode_decodeDrive h).1, hc⟩
  | input i => exact ⟨hz, hb, hw, hst, hch, hc⟩
  | circuit => exact ⟨hz, hb, hw, hst, hch, fun _ h => (encode_decodeCircuit h).1⟩

theorem write_inRange {m m' : CircuitMap} (h : m.inRange) {ref : SlotRef} {kind : Nat} {body : List Byte}
    (hw : m.write ref kind body = some m') : m'.inRange := by
  rw [write_eq] at hw
  split at hw
  · cases hw
    exact spell_inRange h ref body
  · cases hw

/-! ### The ranges of the maps -/

theorem Effect.mapsInRange {a b : State} (h : Effect i a b) (k : a.mapsInRange) : b.mapsInRange := by
  obtain ⟨hm, hi, hs⟩ := k
  cases h with
  | beginStore who => exact ⟨hm, hi, fun m e => by cases e; exact hm⟩
  | endStore who m h => exact ⟨hm, hs m h, fun m e => by cases e⟩
  | write who ref m awaited hw => exact ⟨write_inRange hm hw, hi, hs⟩
  | reload who mode => exact ⟨hi, hi, hs⟩
  | install who mode => exact ⟨hi, hi, hs⟩
  | loadFails who mode => exact ⟨vacant_inRange, hi, hs⟩
  | routeMode who w d old new h kind =>
    obtain ⟨hz, hb, hw, hst, hch, hc⟩ := hm
    have hd : ({ d with kind := .diverge new } : SwitchDesc).inRange = true := hw w d h
    exact ⟨⟨hz, hb, tput_all hw fun _ e => by cases e; exact hd, hst, hch, hc⟩, hi, hs⟩
  | takeUp | putAway | toAuto | toMaintenance => exact ⟨hm, hi, hs⟩
  | _ => exact ⟨hm, hi, hs⟩

theorem imageAfterCut_content (s : State) : s.imageAfterCut.content = s.image.content := by
  unfold State.imageAfterCut
  split <;> rfl

/-- Settles O9. -/
theorem mapsStayInRange : Obligations.MapsStayInRange := by
  intro s t hs h
  refine step_keeps State.mapsInRange (fun _ _ _ h => h) (fun s t k h => ?_) (fun _ _ _ h => h.mapsInRange) hs h
  obtain ⟨_, _, _, rfl⟩ := h
  exact ⟨vacant_inRange, (imageAfterCut_content s).symm ▸ k.2.1, fun m e => by cases e⟩

/-! ### WRITE_MAP_RECORD and its block -/

theorem slotOf_kind {kind index : Nat} {ref : SlotRef} (h : slotOf kind index = some ref) : 1 ≤ kind ∧ kind ≤ 7 := by
  unfold slotOf at h
  split at h <;> first | omega | cases h

theorem writeRule_waits {ref : SlotRef} (hs : s.storing = none) (hm : s.mode = .config)
    (hr : slotOf (argumentOf f) (objectOf f) = some ref) : writeRule f s = (.done, s) := by
  have hk := slotOf_kind hr
  simp only [writeRule, hs, Option.isSome_none, Bool.false_eq_true, if_false, hm, ne_eq, not_true, hr]
  rw [if_neg (by omega)]

theorem slotWrite_slot {ref : SlotRef} (hr : slotOf (argumentOf f) (objectOf f) = some ref) : slotWrite f = .awaitBlock ref := by
  simp only [slotWrite, hr]

/-- What a whole host block does where one is awaited for slot `ref` (R171). -/
theorem takeBlock_awaited {ref : SlotRef} {kind len : Byte} {body : List Byte} {crc : BitVec 16}
    (h : s.link.heard.2 = .awaitingBlock ref) : s.takeBlock kind len body crc =
      if len.toNat = 0 ∨ 64 < len.toNat then (s.blockTaken s.link.heard.1 3).blockFails
      else if body.length ≠ len.toNat then s
      else if crc ≠ crc16 (kind :: len :: body) then (s.blockTaken s.link.heard.1 (5 + len.toNat)).blockFails
      else (s.blockTaken s.link.heard.1 (5 + len.toNat)).writeSlot ref kind body := by
  unfold State.takeBlock
  split
  · next owed ref' hl =>
    rw [hl] at h
    cases h
    rw [hl]
  · next hl => exact (hl s.link.heard.1 ref (Prod.ext rfl h)).elim

/-- Settles O30. -/
theorem writesReplaceSlots : Obligations.WritesReplaceSlots := by
  refine ⟨fun s dt f ref ht hs hm hr => ?_, fun s dt ref kind len body crc hl hw => ?_, fun s dt ref hl => ?_,
    fun m m' ref kind body h => ?_, fun m ref kind body => ?_⟩
  · have k := ordinary_answers (dt := dt) (next := slotWrite f) ht (writeRule_waits (f := f) (s := s.asked dt) hs hm hr)
    exact ⟨_, rfl, slotWrite_slot hr ▸ k.1, k.2⟩
  · have hlen : ¬(len.toNat = 0 ∨ 64 < len.toNat) → body.length = len.toNat := fun h => by simpa [Instr.wf, h] using hw
    refine ⟨_, rfl, ?_, ?_⟩
    · rintro ⟨h0, h64, hcrc⟩
      have hrange : ¬(len.toNat = 0 ∨ 64 < len.toNat) := by omega
      have he : (s.advance dt).takeBlock kind len body crc =
          ((s.advance dt).blockTaken s.link.heard.1 (5 + len.toNat)).writeSlot ref kind body := by
        rw [takeBlock_awaited (s := s.advance dt) hl, if_neg hrange, if_neg (by simp [hlen hrange]), if_neg (by simp [hcrc])]
        rfl
      rw [he]
      unfold State.writeSlot
      refine ⟨?_, fun m hm => ?_, fun hm => ?_⟩
      · split <;> rfl
      · rw [show ((s.advance dt).blockTaken s.link.heard.1 (5 + len.toNat)).map.write ref kind.toNat body = some m from hm]
        exact ⟨accept_accepting _ _, rfl⟩
      · rw [show ((s.advance dt).blockTaken s.link.heard.1 (5 + len.toNat)).map.write ref kind.toNat body = none from hm]
        exact ⟨accept_accepting _ _, rfl⟩
    · intro hbad
      have he : ∃ n, (s.advance dt).takeBlock kind len body crc = ((s.advance dt).blockTaken s.link.heard.1 n).blockFails := by
        rw [takeBlock_awaited (s := s.advance dt) hl]
        by_cases hrange : len.toNat = 0 ∨ 64 < len.toNat
        · exact ⟨3, by rw [if_pos hrange]; rfl⟩
        · have hcrc : crc ≠ crc16 (kind :: len :: body) := by tauto
          exact ⟨_, by rw [if_neg hrange, if_neg (by simp [hlen hrange]), if_pos hcrc]; rfl⟩
      obtain ⟨n, he⟩ := he
      rw [he]
      exact ⟨accept_accepting _ _, rfl⟩
  · change Host.Outcome.next (s.advance dt).abandonWrite = _
    unfold State.abandonWrite
    split
    · next owed ref' hl' =>
      rw [show s.link.heard = (owed, .awaitingBlock ref') from hl']
      rfl
    · next hl' => exact (hl' s.link.heard.1 ref (Prod.ext rfl hl)).elim
  · rw [write_eq] at h
    split at h
    · next hok =>
      cases h
      exact ⟨spell_holds m ref body, spell_body m ref body hok.2, fun other ho => spell_other m ref other body ho⟩
    · cases h
  · rw [write_eq, ne_eq, ite_eq_right_iff, Classical.not_imp]
    simp [vacantBody]

end Sys2Proof.Machine
end

section
/-! PROOF. The bytes that the part sends: byte by byte of fill, with a command's frame, and in streams. -/

namespace Sys2Proof.Machine

variable {i : Instr} {s t : State} {dt : Nat} {f : Frame}

/-! ### One byte of fill -/

/-- On an empty queue a step clocks one byte of fill. -/
theorem step_clocks (h : s.pending = []) : step s = .next s.clock := by simp only [step, h]

theorem clock_released (h : s.link = .released) : s.clock = s := by simp only [State.clock, h]

theorem clock_awaitingFrame (h : s.link = .awaitingFrame) : s.clock = { s with dataOut := [s.idleByte] } := by
  simp only [State.clock, h]

theorem clock_receivingFrame {cut : Bool} (h : s.link = .receivingFrame cut) : s.clock = s := by simp only [State.clock, h]

theorem clock_preparing {wait : Nat} {rest : List Byte} {next : Follow} (h : s.link = .responding (wait + 1) rest next) :
    s.clock = { s with link := .responding wait rest next, dataOut := [Config.waitByte] } := by simp only [State.clock, h]

theorem clock_responding {b : Byte} {rest : List Byte} {next : Follow} (h : s.link = .responding 0 (b :: rest) next) (hr : rest ≠ []) :
    s.clock = { s with link := .responding 0 rest next, dataOut := [b] } := by
  cases rest with
  | nil => exact absurd rfl hr
  | cons c rest => simp only [State.clock, h]

theorem clock_responded {b : Byte} {next : Follow} (h : s.link = .responding 0 [b] next) :
    s.clock = { s.responseEnds next with dataOut := [b] } := by simp only [State.clock, h]

theorem clock_sending {what : Sending} {b : Byte} {rest : List Byte} {after : BlockEnd} (h : s.link = .sending what)
    (ho : s.opening what = (b :: rest, after)) (hr : rest ≠ []) :
    s.clock = { s with link := .sending (.begun rest after), dataOut := [b] } := by
  cases rest with
  | nil => exact absurd rfl hr
  | cons c rest => simp only [State.clock, h, State.sendByte, ho]

theorem clock_sent {what : Sending} {b : Byte} {after : BlockEnd} (h : s.link = .sending what) (ho : s.opening what = ([b], after)) :
    s.clock = { s.blockEnds after with dataOut := [b] } := by simp only [State.clock, h, State.sendByte, ho]

theorem clock_awaitingBlock {ref : SlotRef} (h : s.link = .awaitingBlock ref) : s.clock = { s with dataOut := [Config.waitByte] } := by
  simp only [State.clock, h]

theorem clock_accepting {wait : Nat} {answer : Byte} (h : s.link = .accepting (wait + 1) answer) :
    s.clock = { s with link := .accepting wait answer, dataOut := [Config.waitByte] } := by simp only [State.clock, h]

theorem clock_accepted {answer : Byte} (h : s.link = .accepting 0 answer) :
    s.clock = { s with link := .awaitingFrame, dataOut := [answer] } := by simp only [State.clock, h]

/-- A run from a state with an empty queue begins with a byte of fill. -/
theorem run_clocks (hp : s.pending = []) (n : Nat) : Sys2Proof.core.run (n + 1) s = Sys2Proof.core.run n s.clock := by
  have h : Sys2Proof.core.step s = .next s.clock := step_clocks hp
  exact (Host.Core.run.eq_2 Sys2Proof.core s n).trans (by rw [h])

/-- A response is read out byte by byte, after its bytes of 0xFF. -/
theorem response_readOut (k : Nat) (s : State) (wait : Nat) (rest : List Byte) (next : Follow) (b : Byte) (hp : s.pending = [])
    (hl : s.link = .responding wait rest next) (hb : (List.replicate wait 0xFF#8 ++ rest)[k]? = some b) :
    ∃ t, Sys2Proof.core.run (k + 1) s = .next t ∧ t.dataOut = [b] := by
  induction k generalizing s wait rest with
  | zero =>
    refine ⟨s.clock, run_clocks hp 0, ?_⟩
    cases wait with
    | succ wait =>
      cases hb
      rw [clock_preparing hl]
      rfl
    | zero =>
      cases rest with
      | nil => cases hb
      | cons c rest =>
        cases hb
        cases rest with
        | nil => rw [clock_responded hl]
        | cons d rest => rw [clock_responding hl (by simp)]
  | succ k ih =>
    rw [run_clocks hp]
    cases wait with
    | succ wait =>
      rw [clock_preparing hl]
      exact ih _ wait rest hp rfl hb
    | zero =>
      cases rest with
      | nil => cases hb
      | cons c rest =>
        have hr : rest ≠ [] := by rintro rfl; cases hb
        rw [clock_responding hl hr]
        exact ih _ 0 rest hp rfl hb

/-- Settles O4, on the clock's own cases. -/
theorem bytesClocked : Obligations.BytesClocked := by
  refine ⟨fun s hp => ?_, fun s rest after => rfl, fun s wait rest next k b hp hl hb => response_readOut k s wait rest next b hp hl hb⟩
  rw [step_clocks hp]
  refine ⟨fun h => ?_, fun h => ?_, fun cut h => ?_, fun wait rest next h => ?_, fun b rest next h hr => ?_, fun b h => ?_,
    fun b what h => ?_, fun b ref h => ?_, fun what b rest after h ho hr => ?_, fun what b h ho => ?_, fun what b kind next h ho => ?_,
    fun what b snapshot h ho => ?_, fun ref h => ?_, fun wait answer h => ?_, fun answer h => ?_⟩
  · rw [clock_released h]
  · rw [clock_awaitingFrame h]; rfl
  · rw [clock_receivingFrame h]
  · rw [clock_preparing h]; rfl
  · rw [clock_responding h hr]
  · rw [clock_responded h]; rfl
  · rw [clock_responded h]; rfl
  · rw [clock_responded h]; rfl
  · rw [clock_sending h ho hr]
  · rw [clock_sent h ho]; rfl
  · rw [clock_sent h ho]; rfl
  · rw [clock_sent h ho]; rfl
  · rw [clock_awaitingBlock h]; rfl
  · rw [clock_accepting h]; rfl
  · rw [clock_accepted h]

/-! ### The bytes up to a frame's end -/

/-- A command frame puts the frame's bytes on the data output, and its rule leaves them there. -/
theorem command_dataOut (hw : i.wf = true) (hc : i.command.isSome = true) (hl : s.link.takesFrame.isSome = true) (h : exec i s = .next t) :
    t.dataOut = (s.advance i.wait).frameBytes := by
  obtain ⟨cls, own, next, k⟩ := command_frame hw hc
  rw [k.taken s] at h
  cases h
  have hb : ((s.advance i.wait).beforeCommand cls).dataOut = (s.advance i.wait).frameBytes := by
    unfold State.beforeCommand
    split <;> rfl
  rcases takeFrame_cases (s.advance i.wait) cls own next with ⟨hl', -⟩ | ⟨res, n, e | ⟨hm, e⟩⟩
  · rw [show s.link.takesFrame = none from hl'] at hl
    cases hl
  · rw [e, State.respond_dataOut, hb]
  · rw [e, State.respond_dataOut, (k.rule _ hm (beforeCommand_link cls)).dataOut, hb]

/-- The bytes that go with a command frame in a link state that owes nothing. -/
def State.withFrame (s : State) : Link → List Byte
  | .sending what =>
    if what.isRead then (s.opening what).1 ++ List.replicate 8 s.idleByte
    else (s.opening what).1.take 1 ++ List.replicate 7 s.idleByte
  | .awaitingBlock _ => Config.waitByte :: List.replicate 7 s.idleByte
  | .receivingFrame _ => List.replicate 7 s.idleByte
  | _ => List.replicate 8 s.idleByte

theorem frameBytes_eq (s : State) : s.frameBytes = s.link.heard.1 ++ s.withFrame s.link.heard.2 := rfl

/-- The first byte of a stream is the start byte of its next block, or the end-of-stream byte where no record is left. -/
theorem stream_firstByte (s : State) (kind : LiveKind) (next : Nat) : (s.opening (.stream kind next)).1.take 1 =
    [if (s.nextLive kind next).isSome = true then Config.blockStart else Config.endOfStreamByte] := by
  simp only [State.opening]
  split
  · next h => rw [h]; rfl
  · next h => rw [h]; rfl

/-- Settles O5: the bytes of the state that the frame finds, once what is owed has been read out. -/
theorem framesAreClocked : Obligations.FramesAreClocked := by
  intro i s t owed l idle hw hc hl h howed hidle
  have hd := command_dataOut hw hc hl h
  have hbytes : t.dataOut = owed ++ (s.advance i.wait).withFrame l := by
    rw [hd, frameBytes_eq, State.advance_link, ← howed]
  have hidle : (s.advance i.wait).idleByte = idle := hidle.symm
  refine ⟨fun e => ?_, fun ref e => ?_, fun cut e => ?_, fun kind index body e hb => ?_, fun ref e => ?_, fun e => ?_, fun rest e => ?_,
    fun e => ?_, fun kind next e => ?_, fun b rest after e ha => ?_, fun wait rest e => ?_, fun wait rest what e => ?_,
    fun wait rest ref e => ?_, fun wait answer e => ?_⟩
  · rw [hbytes, e, ← hidle]
    rfl
  · rw [hbytes, e, ← hidle]
    rfl
  · rw [hbytes, e, ← hidle]
    rfl
  · have ho : ((s.advance i.wait).opening (.live kind index)).1 = dataBlock (byteOf kind.code) body := by
      simp only [State.opening, show (s.advance i.wait).liveBody kind index = some body from hb]
    rw [hbytes, e, ← hidle, ← ho, List.append_assoc]
    rfl
  · rw [hbytes, e, ← hidle, List.append_assoc]
    rfl
  · rw [hbytes, e, ← hidle, List.append_assoc]
    rfl
  · rw [hbytes, e, ← hidle, List.append_assoc]
    rfl
  · rw [hbytes, e, ← hidle]
    rfl
  · have ho := stream_firstByte (s.advance i.wait) kind next
    rw [hbytes, e, ← hidle]
    change owed ++ (((s.advance i.wait).opening (.stream kind next)).1.take 1 ++ _) = _
    rw [ho]
    rfl
  · rw [hbytes, e, ← hidle]
    cases after with
    | single => exact absurd rfl ha
    | _ => rfl
  · simp only [e, Link.heard, Follow.link?, Prod.mk.injEq] at howed
    exact howed
  · simp only [e, Link.heard, Follow.link?, Prod.mk.injEq] at howed
    exact howed
  · simp only [e, Link.heard, Follow.link?, Prod.mk.injEq] at howed
    exact howed
  · simp only [e, Link.heard, Prod.mk.injEq] at howed
    exact howed

end Sys2Proof.Machine
end

section
/-! PROOF. The frames' codec, streams and cuts, and the transit timer's bounds. -/

namespace Sys2Proof.Machine

variable {i : Instr} {s t : State} {dt : Nat} {f : Frame}

/-! ### Command frames and their bytes -/

theorem toNat_append4 (a b c d : Byte) :
    (a ++ b ++ c ++ d : BitVec 32).toNat = a.toNat * 16777216 + b.toNat * 65536 + c.toNat * 256 + d.toNat := by
  have ha := a.isLt
  have hb := b.isLt
  have hc := c.isLt
  have hd := d.isLt
  simp only [BitVec.toNat_append]
  rw [← Nat.shiftLeft_add_eq_or_of_lt hb, ← Nat.shiftLeft_add_eq_or_of_lt hc, ← Nat.shiftLeft_add_eq_or_of_lt hd]
  simp only [Nat.shiftLeft_eq]
  omega

theorem be4_append (a b c d : Byte) : be4 (a ++ b ++ c ++ d : BitVec 32).toNat = [a, b, c, d] := by
  have ha := a.isLt
  have hb := b.isLt
  have hc := c.isLt
  have hd := d.isLt
  rw [toNat_append4]
  simp only [be4, byteOf, List.cons.injEq, and_true]
  refine ⟨?_, ?_, ?_, ?_⟩ <;> refine BitVec.eq_of_toNat_eq ?_ <;> simp only [BitVec.toNat_ofNat] <;> omega

theorem append_be4 (x : BitVec 32) : byteOf (x.toNat / 16777216) ++ byteOf (x.toNat / 65536) ++ byteOf (x.toNat / 256) ++ byteOf x.toNat = x := by
  have hx := x.isLt
  refine BitVec.eq_of_toNat_eq ?_
  rw [toNat_append4]
  simp only [byteOf, BitVec.toNat_ofNat]
  omega

/-- Eight bytes with a sync byte first are a command, or a frame that fails its check. -/
theorem decodeFrame_bytes (dt : Nat) (code : Byte) (f : Frame) (check : Byte) : decodeFrame dt (frameHead code f ++ [check]) =
    if check = crc8 (frameHead code f) then some (commandOf dt code f) else some (.commandFrameCheckFailed dt code f check) := by
  change (if Config.syncByte ≠ Config.syncByte then none else
    if check = crc8 (frameHead code f) then some (commandOf dt code { obj := f.obj, arg := _ })
    else some (.commandFrameCheckFailed dt code { obj := f.obj, arg := _ } check)) = _
  rw [if_neg (by simp), append_be4]

/-- A frame's bytes are those of what decodes from them. -/
theorem decodeFrame_some {bs : List Byte} (h : decodeFrame dt bs = some i) : ∃ code f check, bs = frameHead code f ++ [check] := by
  unfold decodeFrame at h
  split at h
  · next sync code obj a3 a2 a1 a0 check =>
    split at h
    · cases h
    · next hs =>
      refine ⟨code, { obj, arg := a3 ++ a2 ++ a1 ++ a0 }, check, ?_⟩
      rw [frameHead, be4_append, show sync = Config.syncByte by simpa using hs]
      rfl
  · cases h

/-- The command of a code is well formed, and has that code and those fields. -/
theorem commandOf_spec (dt : Nat) (code : Byte) (f : Frame) :
    (commandOf dt code f).wf = true ∧ (commandOf dt code f).wait = dt ∧ (commandOf dt code f).command = some (code, f) := by
  have eq : ∀ {n : Nat} (hn : n < 256), code.toNat = n → code = BitVec.ofNat 8 n := fun hn h =>
    BitVec.eq_of_toNat_eq (by rw [h, BitVec.toNat_ofNat]; omega)
  unfold commandOf
  split
  case h_24 h =>
    have hc := eq (by decide) h
    have harg : ∀ {n : Nat} (hn : n < 4294967296), f.arg.toNat = n → f = { obj := f.obj, arg := BitVec.ofNat 32 n } := fun hn h => by
      cases f
      exact congrArg _ (BitVec.eq_of_toNat_eq (by rw [h, BitVec.toNat_ofNat]; omega))
    split
    · next h => exact ⟨rfl, rfl, by rw [hc]; exact congrArg (fun x => some (0x52#8, x)) (harg (by decide) h).symm⟩
    · next h => exact ⟨rfl, rfl, by rw [hc]; exact congrArg (fun x => some (0x52#8, x)) (harg (by decide) h).symm⟩
    · next h => exact ⟨rfl, rfl, by rw [hc]; exact congrArg (fun x => some (0x52#8, x)) (harg (by decide) h).symm⟩
    · next h2 h3 h4 => exact ⟨by simpa [Instr.wf] using (⟨h2, h3, h4⟩ : _ ∧ _ ∧ _), rfl, by rw [hc]; rfl⟩
  case h_29 => exact ⟨by simp_all [Instr.wf, commandCodes], rfl, rfl⟩
  all_goals
    next h => exact ⟨rfl, rfl, by rw [eq (by decide) h]; rfl⟩

/-- A well-formed command is the one its code and fields name. -/
theorem commandOf_command {code : Byte} (hw : i.wf = true) (hc : i.command = some (code, f)) : commandOf i.wait code f = i := by
  cases i with
  | unknownCommand dt code' f' =>
    cases hc
    have hcode : commandCodes.contains code.toNat = false := by simpa [Instr.wf] using hw
    unfold commandOf
    split
    case h_29 => rfl
    all_goals
      next h =>
        rw [h] at hcode
        cases hcode
  | clearFaultZone dt f' =>
    cases hc
    have harg : f.arg.toNat ≠ 2 ∧ f.arg.toNat ≠ 3 ∧ f.arg.toNat ≠ 4 := by simpa [Instr.wf] using hw
    change (match f.arg.toNat with
      | 2 => Instr.clearFaultBoundary dt f.obj
      | 3 => .clearFaultElement dt f.obj
      | 4 => .clearFaultSwitch dt f.obj
      | _ => .clearFaultZone dt f) = _
    split
    · next h => exact absurd h harg.1
    · next h => exact absurd h harg.2.1
    · next h => exact absurd h harg.2.2
    · rfl
  | _ => cases hc <;> rfl

/-- A frame that is not one that fails its check is encoded with its own check byte. -/
theorem encodeFrame_command {code : Byte} (hc : i.command = some (code, f)) :
    encodeFrame i = some (frameHead code f ++ [crc8 (frameHead code f)]) := by
  unfold encodeFrame
  split
  · cases hc
  · rw [hc]
    rfl

/-- Settles O6. -/
theorem frameRoundTrip : Obligations.FrameRoundTrip := by
  refine ⟨fun i bs hw h => ?_, fun dt bs i h => ?_⟩
  · by_cases hf : ∃ dt code f check, i = .commandFrameCheckFailed dt code f check
    · obtain ⟨dt, code, f, check, rfl⟩ := hf
      cases h
      have hcheck : check ≠ crc8 (frameHead code f) := by simpa [Instr.wf] using hw
      exact ⟨rfl, by rw [decodeFrame_bytes, if_neg hcheck]; rfl⟩
    · cases hc : i.command with
      | none =>
        unfold encodeFrame at h
        split at h
        · exact absurd ⟨_, _, _, _, rfl⟩ hf
        · rw [hc] at h
          cases h
      | some cf =>
        rw [encodeFrame_command hc] at h
        cases h
        exact ⟨rfl, by rw [decodeFrame_bytes, if_pos rfl, commandOf_command hw hc]⟩
  · obtain ⟨code, f, check, rfl⟩ := decodeFrame_some h
    rw [decodeFrame_bytes] at h
    split at h
    · next hcheck =>
      cases h
      obtain ⟨h1, h2, h3⟩ := commandOf_spec dt code f
      exact ⟨h1, h2, by rw [encodeFrame_command h3, hcheck]⟩
    · next hcheck =>
      cases h
      exact ⟨by simpa [Instr.wf] using hcheck, rfl, rfl⟩

/-! ### The transit timer's bounds -/

/-- Settles O60. -/
theorem speedsAndBounds : Obligations.SpeedsAndBounds := by
  refine ⟨fun start stamp => ?_, fun gate interval hg hg' hi hi' => ?_, fun d v hd => ?_, fun d run v => ⟨fun h => ?_, fun h => ?_⟩,
    fun transit slack hs => ?_⟩
  · simp only [gateInterval, Config.gateLimit]
    omega
  · have hdiv : gate * 1000000 / interval * interval ≤ gate * 1000000 := Nat.div_mul_le_self _ _
    have hlow : 11 ≤ gate * 1000000 / interval := (Nat.le_div_iff_mul_le (by omega)).mpr (by omega)
    have hnext : gate * 1000000 < (gate * 1000000 / interval + 1) * interval :=
      (Nat.lt_mul_div_succ _ (by omega)).trans_eq (Nat.mul_comm _ _)
    simp only [crossingSpeed, Config.speedLimit]
    obtain ⟨q, hq⟩ : ∃ q, gate * 1000000 / interval = q := ⟨_, rfl⟩
    rw [hq] at hdiv hlow hnext ⊢
    refine ⟨le_min (by omega) hlow, min_le_left _ _, (Nat.mul_le_mul_right _ (min_le_right _ _)).trans hdiv, fun h => ?_⟩
    rwa [min_eq_right (by omega)]
  · have horder : d.minSpeed ≤ d.maxSpeed ∧ d.maxSpeed ≤ 65535 := by
      simp only [ZoneDesc.inRange, Bool.and_eq_true, within_eq_true_iff, decide_eq_true_eq] at hd
      obtain ⟨⟨⟨⟨⟨⟨⟨⟨⟨-, hmax⟩, -⟩, -⟩, -⟩, -⟩, -⟩, -⟩, -⟩, horder⟩ := hd
      exact ⟨horder, hmax.2⟩
    have hlimit : Config.speedLimit = 65535 := rfl
    unfold ZoneDesc.window
    by_cases hover : d.maxSpeed ≠ Config.speedLimit ∧ d.maxSpeed < v
    · rw [if_pos hover]
      simp
      omega
    · rw [if_neg hover]
      by_cases hunder : d.minSpeed ≠ 0 ∧ v < d.minSpeed
      · rw [if_pos hunder]
        simp
        omega
      · rw [if_neg hunder]
        simp
        omega
  · simp [ZoneDesc.journey, h]
  · simp [ZoneDesc.journey, h]
  · have hdiv := Nat.div_mul_le_self (transit * (256 - slack)) 256
    have hnext := Nat.lt_mul_div_succ (transit * (256 - slack)) (show 0 < 256 by decide)
    simp only [earlyBound, Config.earlyLimit]
    omega

end Sys2Proof.Machine
end

section
/-! PROOF. What the bodies of the live records, the notice block and the condition byte show of the state, field by field; the reads
and the streams. -/

namespace Sys2Proof.Machine

variable {i : Instr} {s t : State} {dt : Nat} {f : Frame}

/-! ### Fields of a body -/

section
variable {body : List Byte} {k v : Nat}

theorem holds_byte (h : (body.drop k).take 1 = [byteOf v]) : Holds body k 1 v := by
  intro hv
  rw [h]
  change 256 * 0 + (byteOf v).toNat = v
  rw [toNat_byteOf _ (by omega)]
  omega

theorem holds_be2 (h : (body.drop k).take 2 = be2 v) : Holds body k 2 v := by
  intro hv
  rw [h]
  change 256 * (256 * 0 + (byteOf (v / 256)).toNat) + (byteOf v).toNat = v
  have := rd2_be2 v (by omega)
  omega

theorem holds_be3 (h : (body.drop k).take 3 = be3 v) : Holds body k 3 v := by
  intro hv
  rw [h]
  change 256 * (256 * (256 * 0 + (byteOf (v / 65536)).toNat) + (byteOf (v / 256)).toNat) + (byteOf v).toNat = v
  have := rd3_be3 v (by omega)
  omega

theorem holds_code {n : Nat} (h : (body.drop k).take 1 = [byteOf n]) (e : n = v) : Holds body k 1 v := e ▸ holds_byte h

theorem holds_code2 {n : Nat} (h : (body.drop k).take 2 = be2 n) (e : n = v) : Holds body k 2 v := e ▸ holds_be2 h

theorem holds_code3 {n : Nat} (h : (body.drop k).take 3 = be3 n) (e : n = v) : Holds body k 3 v := e ▸ holds_be3 h

theorem holds_optIx {n : Nat} {o : Option (Fin n)} (h : (body.drop k).take 1 = [optByte o]) (e : indexOr255 o = v) : Holds body k 1 v :=
  e ▸ holds_byte (h.trans (by cases o <;> rfl))

theorem holds_flag {b : Bool} (h : (body.drop k).take 1 = [flagByte b]) (e : b.toNat = v) : Holds body k 1 v :=
  e ▸ holds_byte (h.trans (by cases b <;> rfl))

theorem holds_side {o : Option Side} (h : (body.drop k).take 1 = [sideByte o]) (e : sideOr255 o = v) : Holds body k 1 v :=
  e ▸ holds_byte (h.trans (by
    cases o with
    | none => rfl
    | some side => cases side <;> rfl))

end
theorem msLeft_eq (now due : Nat) : msLeft now due = msTo now (some due) := rfl

theorem msTo_none (now : Nat) : msTo now none = 0 := by simp [msTo]

theorem msLeft_getD (now : Nat) (due : Option Nat) : (due.map (msLeft now)).getD 0 = msTo now due := by
  cases due with
  | none => exact (msTo_none now).symm
  | some due => rfl

/-! ### The live records -/

/-- The four hold sources of a zone as a number. -/
theorem toNat_four_bits (v : BitVec 4) :
    v.toNat = (v.getLsbD 0).toNat + 2 * (v.getLsbD 1).toNat + 4 * (v.getLsbD 2).toNat + 8 * (v.getLsbD 3).toNat := by
  revert v
  decide

theorem zoneBody_shown {z : ZoneIx} {x : ZoneRec} (h : s.ride.zone? z = some x) : ZoneShown s z x (zoneBody s.ride z x) where
  length := rfl
  zone := holds_byte rfl
  phase := holds_code rfl (by cases x.claim <;> rfl)
  occupant := holds_optIx rfl (by rw [Ride.occupant?, Ride.claim?, h]; rfl)
  holder := holds_optIx rfl rfl
  holds := holds_code rfl (toNat_four_bits x.holds)
  fault := holds_code rfl (by
    rcases x.fault with - | cause
    · rfl
    · cases cause <;> rfl)
  speed := holds_be2 rfl
  element := holds_code rfl (by
    rcases s.ride.element? z with - | ⟨st, cmd⟩ | ⟨st, cmd⟩
    · rfl
    · cases st <;> rfl
    · cases st <;> rfl)
  flags := holds_flag rfl rfl

theorem trainBody_shown (t : SlotIx) (x : Train) : TrainShown s t x (trainBody s.now t x) where
  length := rfl
  slot := holds_byte rfl
  label := holds_byte rfl
  phase := holds_code rfl (by cases x.phase <;> rfl)
  head := holds_byte rfl
  tail := holds_optIx rfl rfl
  dir := holds_code rfl (by cases x.dir <;> rfl)
  chainLength := holds_byte rfl
  chain := fun k hk => by
    rcases k with - | - | - | - | k
    · exact holds_optIx rfl rfl
    · exact holds_optIx rfl rfl
    · exact holds_optIx rfl rfl
    · exact holds_optIx rfl rfl
    · omega
  guardZone := holds_optIx rfl rfl
  guardBoundary := holds_optIx rfl rfl
  deadline := holds_code rfl (by
    rcases x.deadline with - | ⟨kind, start, duration, early⟩
    · rfl
    · cases kind <;> rfl)
  remaining := holds_code3 rfl (by
    rcases x.deadline with - | dl
    · exact (msTo_none _).symm
    · rfl)
  early := holds_be3 rfl
  speed := holds_be2 rfl
  awaited := holds_code rfl (by
    rcases x.awaited with - | aw
    · rfl
    · cases aw <;> rfl)
  earlyCount := holds_byte rfl
  overdueCount := holds_byte rfl
  directiveSwitch := holds_optIx rfl rfl
  directiveRoute := holds_side rfl rfl
  flags := holds_byte rfl

theorem boundaryBody_shown (b : BoundaryIx) (d : BoundaryDesc) (x : BoundaryRec) : BoundaryShown s b d x (boundaryBody s b d x) where
  length := rfl
  boundary := holds_byte rfl
  passage := holds_code rfl (by cases x.passage <;> rfl)
  dir := holds_code rfl (by
    rcases x.passage with - | ⟨dir, start⟩ | dir | dir | cause
    · rfl
    · cases dir <;> rfl
    · cases dir <;> rfl
    · cases dir <;> rfl
    · rfl)
  uLevel := holds_flag rfl rfl
  dLevel := holds_flag rfl rfl
  fault := holds_code rfl (by
    rcases x.passage with - | ⟨dir, start⟩ | dir | dir | cause
    · rfl
    · rfl
    · rfl
    · rfl
    · cases cause <;> rfl)
  gateTime := holds_code3 rfl (by cases x.passage <;> rfl)
  stalled := holds_flag rfl rfl
  interval := holds_code2 rfl (by cases x.lastInterval <;> rfl)

theorem switchBody_shown (w : SwitchIx) (d : SwitchDesc) (x : SwitchRec) : SwitchShown s w d x (switchBody s w d x) := by
  have role : ∀ n {bs}, (x.role.body.drop n).take 1 = bs → ((switchBody s w d x).drop (11 + n)).take 1 = bs := fun n bs h => by
    rw [← List.drop_drop, show (switchBody s w d x).drop 11 = x.role.body from rfl, h]
  exact {
    length := by
      have : x.role.body.length = 6 := by cases x.role <;> rfl
      change (x.role.body).length + 11 = 17
      rw [this]
    switch := holds_byte rfl
    kind := holds_code rfl (by cases d.kind <;> rfl)
    position := holds_code rfl (by
      rcases x.pos with side | ⟨side, due⟩ | cause
      · cases side <;> rfl
      · cases side <;> rfl
      · rfl)
    fault := holds_code rfl (by
      rcases x.pos with side | ⟨side, due⟩ | cause
      · rfl
      · rfl
      · cases cause <;> rfl)
    proofA := holds_flag rfl rfl
    proofB := holds_flag rfl rfl
    timer := holds_code2 rfl (by
      rcases x.pos with side | ⟨side, due⟩ | cause
      · exact (msTo_none _).symm
      · rfl
      · exact (msTo_none _).symm)
    pendingPosition := holds_side rfl rfl
    pendingSource := holds_code rfl (by
      rcases x.pending with - | ⟨side, src⟩
      · rfl
      · cases src <;> rfl)
    committed := holds_side rfl rfl
    history := by
      rcases hx : x.role with ⟨setting, last⟩ | ⟨reqA, reqB, arb, served⟩
      · exact holds_side (o := some last) (role 0 (by rw [hx]; rfl)) rfl
      · exact holds_side (o := some served) (role 0 (by rw [hx]; rfl)) rfl
    arbiter := by
      rcases hx : x.role with ⟨setting, last⟩ | ⟨reqA, reqB, arb, served⟩
      · exact holds_byte (role 1 (by rw [hx]; rfl))
      · exact holds_code (n := arb.code) (role 1 (by rw [hx]; rfl)) (by cases arb <;> rfl)
    selectedPosition := by
      rcases hx : x.role with ⟨setting, last⟩ | ⟨reqA, reqB, arb, served⟩
      · exact holds_side (role 2 (by rw [hx]; rfl)) rfl
      · exact holds_side (o := arb.side) (role 2 (by rw [hx]; rfl)) (by cases arb <;> rfl)
    selectedTrain := by
      rcases hx : x.role with ⟨setting, last⟩ | ⟨reqA, reqB, arb, served⟩
      · exact holds_optIx (role 3 (by rw [hx]; rfl)) rfl
      · exact holds_optIx (o := arb.train) (role 3 (by rw [hx]; rfl)) (by cases arb <;> rfl)
    waiting := by
      rcases hx : x.role with ⟨setting, last⟩ | ⟨reqA, reqB, arb, served⟩
      · exact holds_byte (role 4 (by rw [hx]; rfl))
      · refine holds_byte (role 4 ?_)
        rw [hx]
        rcases reqA with - | a <;> rcases reqB with - | b <;> rfl
    requests := by
      rcases hx : x.role with ⟨setting, last⟩ | ⟨reqA, reqB, arb, served⟩
      · exact holds_byte (role 5 (by rw [hx]; rfl))
      · exact holds_byte (role 5 (by rw [hx]; rfl)) }

theorem elementAt_of_zone {m : CircuitMap} {z : ZoneIx} {d : ZoneDesc} (h : m.zone z = some d) : m.elementAt z = d.element := by
  simp [CircuitMap.elementAt, h]

theorem elementBody_shown {z : ZoneIx} {d : ZoneDesc} {e : Element} (hd : s.map.zone z = some d) (he : s.ride.element? z = some e) :
    ElementShown s z d e (elementBody s z e) := by
  have hat : s.ctx.map.elementAt z = d.element := elementAt_of_zone hd
  rcases e with ⟨st, cmd⟩ | ⟨st, cmd⟩
  · exact {
      length := rfl
      zone := holds_byte rfl
      state := holds_code rfl (by cases st <;> rfl)
      command := holds_code rfl (by cases cmd <;> rfl)
      fault := holds_code rfl (by
        rcases st with - | - | - | - | cause
        · rfl
        · rfl
        · rfl
        · rfl
        · cases cause <;> rfl)
      timer := holds_code2 rfl (by
        cases st with
        | opening due | closing due => rfl
        | _ => exact (msTo_none _).symm)
      brake := fun st' cmd' h => by
        cases h
        refine ⟨holds_byte rfl, holds_flag rfl ?_, fun o c ms hb => ?_⟩
        · rw [State.elementOutput, he]
        · have hl : s.ctx.brakeLevels z = (tget s.proofs o, tget s.proofs c) := by
            rw [Ctx.brakeLevels, hat, hb]
            rfl
          exact ⟨holds_flag rfl (by rw [hl]), holds_flag rfl (by rw [hl])⟩
      drive := fun _ _ h => by cases h }
  · exact {
      length := rfl
      zone := holds_byte rfl
      state := holds_code rfl (by cases st <;> rfl)
      command := holds_code rfl (by cases cmd <;> rfl)
      fault := holds_byte rfl
      timer := holds_code2 (n := 0) rfl (msTo_none _).symm
      brake := fun _ _ h => by cases h
      drive := fun st' cmd' h => by
        refine ⟨holds_byte rfl, holds_byte rfl, holds_byte rfl, fun ch hch => holds_optIx rfl ?_⟩
        rw [Ctx.channelOf, hat, hch]
        rfl }

theorem driveBody_shown {ch : ChannelIx} {x : Channel} (h : s.ride.channel? ch = some x) :
    DriveShown s ch x (driveBody s.now ch x) where
  length := rfl
  channel := holds_byte rfl
  code := holds_be2 rfl
  target := holds_be2 rfl
  phase := holds_byte rfl
  timer := holds_code rfl (msLeft_getD _ _)
  enable := holds_flag rfl (by rw [State.enable, h]; rfl)
  zone := holds_optIx rfl rfl

theorem stationBody_shown (st : StationIx) (d : StationDesc) (x : StationRec) : StationShown s st d x (stationBody s st d x) where
  length := rfl
  station := holds_byte rfl
  zone := holds_byte rfl
  state := holds_code rfl (by cases x.state <;> rfl)
  occupant := holds_optIx rfl rfl
  restraint := holds_flag rfl rfl
  gate := holds_flag rfl rfl
  authority := holds_code rfl (by cases d.authority <;> rfl)
  pairing := holds_code rfl (by cases x.pairing <;> rfl)
  first := holds_side rfl (by cases x.pairing <;> rfl)
  window := holds_code2 rfl (by
    cases x.pairing with
    | timing first due => rfl
    | _ => exact (msTo_none _).symm)
  source := holds_code rfl (by
    cases x.state with
    | pending source due => cases source <;> rfl
    | _ => rfl)
  wait := holds_code3 rfl (by
    cases x.state with
    | pending source due => rfl
    | _ => exact (msTo_none _).symm)
  departing := holds_flag rfl (by
    cases x.state with
    | releasing departing => cases departing <;> rfl
    | _ => rfl)

/-! ### INPUTS, the notice block and the condition byte -/

theorem inputBits_eq (g : InputIx → Bool) : inputBits g = Nat.ofBits g := by
  simp [inputBits, Nat.ofBits, List.finRange, Fin.foldr_succ]
  omega

/-- Sixteen bits in two bytes: bit by bit what they were. -/
theorem holds_inputBits {body : List Byte} {k : Nat} (g : InputIx → Bool) (h : (body.drop k).take 2 = be2 (inputBits g)) :
    ∃ n, Holds body k 2 n ∧ n < 65536 ∧ ∀ i : InputIx, n.testBit i.val = g i := by
  refine ⟨inputBits g, holds_be2 h, ?_, fun i => ?_⟩
  · rw [inputBits_eq]
    exact Nat.ofBits_lt_two_pow g
  · rw [inputBits_eq, Nat.testBit_ofBits_lt g i.val i.isLt]

theorem inputsBody_shown (s : State) : InputsShown s (inputsBody s) where
  length := rfl
  active := holds_inputBits _ rfl
  filtered := holds_inputBits _ rfl
  estop := holds_flag rfl rfl

theorem noticeBody_shown (s : State) : NoticesShown s s.noticeBody where
  length := rfl
  notices := ⟨s.ride.notices.toNat, holds_be2 rfl, s.ride.notices.isLt, by
    simp [BitVec.testBit_toNat, Ride.notice?, Notice.bit]⟩
  causes := ⟨s.ride.causes.toNat, holds_be2 rfl, s.ride.causes.isLt, by
    simp [BitVec.testBit_toNat, Ride.cause?, Cause.bit]⟩
  mode := holds_code rfl (by cases s.mode <;> rfl)
  count := holds_code rfl (by
    rw [Ride.trainCount, Ride.trainsList, List.length_filterMap_eq_countP]
    simp)

/-- The fields of the condition byte (Table 10-8). -/
theorem condition_fields : ∀ (m : Fin 4) (a b c d e : Bool),
    let byte := byteOf (m.val + 4 * a.toNat + 8 * b.toNat + 16 * c.toNat + 32 * d.toNat + 64 * e.toNat)
    byte.toNat % 4 = m.val ∧ byte.getLsbD 2 = a ∧ byte.getLsbD 3 = b ∧ byte.getLsbD 4 = c ∧ byte.getLsbD 5 = d ∧
      byte.getLsbD 6 = e ∧ byte.getLsbD 7 = false := by
  decide

/-- The notice set is empty exactly where no notice is present. -/
theorem attention_iff (s : State) : s.attention = true ↔ ∃ n, s.ride.notice? n = true := by
  constructor
  · intro h
    by_contra hc
    have none : ∀ n, s.ride.notice? n = false := fun n => by
      by_contra hn
      exact hc ⟨n, by simpa using hn⟩
    have : s.ride.notices = 0#12 := by
      refine BitVec.eq_of_getLsbD_eq fun j hj => ?_
      rw [BitVec.getLsbD_zero]
      match j, hj with
      | 0, _ => exact none .rideStop
      | 1, _ => exact none .overdue
      | 2, _ => exact none .early
      | 3, _ => exact none .overrun
      | 4, _ => exact none .rollback
      | 5, _ => exact none .fault
      | 6, _ => exact none .dispatchCancelled
      | 7, _ => exact none .latePair
      | 8, _ => exact none .storeDone
      | 9, _ => exact none .loadFailed
      | 10, _ => exact none .checkError
      | 11, _ => exact none .selectionDiscarded
    simp [State.attention, this] at h
  · rintro ⟨n, hn⟩
    rw [State.attention, bne_iff_ne]
    intro h
    rw [Ride.notice?, h, BitVec.getLsbD_zero] at hn
    cases hn

theorem isStream_iff (what : Sending) : what.isStream = true ↔
    ∃ kind next left, what = .stream kind next ∨ what = .begun left (.streaming kind next) := by
  unfold Sending.isStream
  split
  · simp
  · simp
  · next h1 h2 =>
    simp only [Bool.false_eq_true, false_iff, not_exists, not_or]
    exact fun kind next left => ⟨h1 kind next, h2 left kind next⟩

theorem streamActive_iff (l : Link) : l.streamActive = true ↔
    ∃ what, what.isStream = true ∧ (l = .sending what ∨ ∃ wait rest, l = .responding wait rest (.send what)) := by
  unfold Link.streamActive
  split
  · simp
  · simp
  · next h1 h2 =>
    simp only [Bool.false_eq_true, false_iff, not_exists, not_and, not_or]
    exact fun what _ => ⟨h2 what, fun wait rest => h1 wait rest what⟩

theorem conditionByte_shown (s : State) : ConditionShown s s.conditionByte := by
  have hm : s.mode.code < 4 := by cases s.mode <;> decide
  obtain ⟨h0, h2, h3, h4, h5, h6, h7⟩ := condition_fields ⟨s.mode.code, hm⟩ s.ride.latched s.attention s.storing.isSome
    s.link.streamActive s.selection.isSome
  exact {
    mode := h0.trans (show s.mode.code = _ by cases s.mode <;> rfl)
    latched := h2
    attention := by
      rw [← attention_iff]
      exact Bool.eq_iff_iff.mp h3
    storing := h4
    stream := by
      rw [show s.conditionByte.getLsbD 5 = s.link.streamActive from h5, streamActive_iff]
      simp only [isStream_iff]
      constructor
      · rintro ⟨what, ⟨kind, next, left, hw⟩, hl⟩
        exact ⟨kind, next, left, what, hw, hl⟩
      · rintro ⟨kind, next, left, what, hw, hl⟩
        exact ⟨what, ⟨kind, next, left, hw⟩, hl⟩
    selection := h6
    clear := h7 }

/-- A record of a table named by its number. -/
theorem named_isSome {α : Type} {k n : Nat} (g : Fin k → Option α) :
    ((ixOf k n).bind g).isSome = true ↔ ∃ j : Fin k, j.val = n ∧ (g j).isSome = true := by
  unfold ixOf
  split
  · next h =>
    constructor
    · exact fun hg => ⟨_, rfl, hg⟩
    · rintro ⟨j, rfl, hj⟩
      exact hj
  · next h =>
    simp only [Option.bind_none, Option.isSome_none, Bool.false_eq_true, false_iff, not_exists, not_and]
    rintro j rfl
    exact absurd j.isLt h

/-- Every record, notice and condition byte is shown as the tables give it. -/
theorem recordsShown (s : State) : s.recordsShown := by
  refine ⟨fun z x h => ⟨_, ?_, zoneBody_shown h⟩, fun t x h => ⟨_, ?_, trainBody_shown t x⟩,
    fun b d x hd h => ⟨_, ?_, boundaryBody_shown b d x⟩, fun w d x hd h => ⟨_, ?_, switchBody_shown w d x⟩,
    fun z d e hd h => ⟨_, ?_, elementBody_shown hd h⟩, fun i x h => ⟨_, ?_, driveBody_shown h⟩,
    fun st d x hd h => ⟨_, ?_, stationBody_shown st d x⟩, fun hm => ⟨_, ?_, inputsBody_shown s⟩, fun n => ?_, fun n => ?_, fun n hn => ?_,
    fun n hn => ?_, fun n => ?_, fun n => ?_, fun n hn => ?_, fun n hn => ?_, noticeBody_shown s, conditionByte_shown s⟩
  · simp [State.liveBody, ixOf_self, h]
  · simp [State.liveBody, ixOf_self, h]
  · simp [State.liveBody, ixOf_self, h, hd]
  · simp [State.liveBody, ixOf_self, h, hd]
  · simp [State.liveBody, ixOf_self, h]
  · simp [State.liveBody, ixOf_self, h]
  · simp [State.liveBody, ixOf_self, h, hd]
  · rcases hm with hm | hm <;> simp [State.liveBody, State.mapInUse, hm]
  · exact (named_isSome _).trans (by simp)
  · exact (named_isSome _).trans (by simp)
  · obtain ⟨b, hb, h⟩ := (named_isSome _).mp hn
    refine ⟨b, hb, ?_⟩
    split at h
    · next hx _ => rw [hx]; rfl
    · cases h
  · obtain ⟨w, hw, h⟩ := (named_isSome _).mp hn
    refine ⟨w, hw, ?_⟩
    split at h
    · next hx _ => rw [hx]; rfl
    · cases h
  · exact (named_isSome _).trans (by simp)
  · exact (named_isSome _).trans (by simp)
  · obtain ⟨st, hst, h⟩ := (named_isSome _).mp hn
    refine ⟨st, hst, ?_⟩
    split at h
    · next hx _ => rw [hx]; rfl
    · cases h
  · unfold State.liveBody at hn
    dsimp only at hn
    split at hn
    · next h =>
      refine ⟨h.1, ?_⟩
      have := h.2
      unfold State.mapInUse at this
      split at this
      · next hm => exact .inl hm
      · next hm => exact .inr hm
      · cases this
    · cases hn

/-! ### The reads -/

theorem noticesSent_due (h : s.link.heard.2 = .sending .notices) : s.noticesSent =
    { s with
      link := .awaitingFrame, dataOut := s.link.heard.1 ++ dataBlock noticeKind s.noticeBody
      ride := { s.ride with notices := s.ride.notices &&& ~~~s.ride.notices } } := by
  rcases hh : s.link.heard with ⟨owed, l⟩
  rw [hh] at h
  cases h
  simp only [State.noticesSent, hh]
  rfl

theorem noticesSent_begun {rest : List Byte} {snapshot : BitVec 12} (h : s.link.heard.2 = .sending (.begun rest (.clearing snapshot))) :
    s.noticesSent = { s with
      link := .awaitingFrame, dataOut := s.link.heard.1 ++ rest
      ride := { s.ride with notices := s.ride.notices &&& ~~~snapshot } } := by
  rcases hh : s.link.heard with ⟨owed, l⟩
  rw [hh] at h
  cases h
  simp only [State.noticesSent, hh]
  rfl

theorem Notice.bit_lt (n : Notice) : n.bit < 12 := by cases n <;> decide

theorem notice_cleared (v snapshot : BitVec 12) (n : Notice) :
    (v &&& ~~~snapshot).getLsbD n.bit = (v.getLsbD n.bit && !snapshot.getLsbD n.bit) := by
  simp [n.bit_lt]

theorem liveBlock_kind {kind : LiveKind} (h : liveKindOf (argumentOf f) = some kind) : liveBlock f = .send (.live kind (objectOf f)) := by
  simp only [liveBlock, h]

theorem readLiveRule_done {kind : LiveKind} {body : List Byte} (h : liveKindOf (argumentOf f) = some kind)
    (hb : s.liveBody kind (objectOf f) = some body) : readLiveRule f s = (.done, s) := by
  simp only [readLiveRule, h, hb]
  rfl

theorem readLiveRule_badArgument (h : liveKindOf (argumentOf f) = none) : readLiveRule f s = (.badArgument, s) := by
  simp only [readLiveRule, h]
  rfl

theorem readLiveRule_noObject {kind : LiveKind} (h : liveKindOf (argumentOf f) = some kind) (hb : s.liveBody kind (objectOf f) = none) :
    readLiveRule f s = (.noObject, s) := by
  simp only [readLiveRule, h, hb]
  rfl

theorem readMapRule_done {obj : MapObject} (h1 : 1 ≤ argumentOf f) (h8 : argumentOf f ≤ 8)
    (h : mapObjectOf (argumentOf f) (objectOf f) = some obj) : readMapRule f s = (.done, s) := by
  unfold readMapRule
  rw [if_neg (by omega), h]

theorem mapBlock_object {obj : MapObject} (h : mapObjectOf (argumentOf f) (objectOf f) = some obj) : mapBlock f = .send (.mapRecord obj) := by
  simp only [mapBlock, h]

/-- Settles O25. -/
theorem readsSendBlocks : Obligations.ReadsSendBlocks := by
  refine ⟨fun s dt f hl => ⟨_, rfl, ?_⟩, fun s dt what hl => ⟨?_, ?_⟩, fun s dt f kind body ht hk hb => ⟨_, rfl, ?_⟩,
    fun s dt f ht => ⟨fun hk => ⟨_, rfl, ?_⟩, fun kind hk hb => ⟨_, rfl, ?_⟩⟩, fun s dt f obj ht h1 h8 hobj => ⟨_, rfl, ?_⟩,
    fun s => ⟨recordsShown s, rfl, fun kind index body h => ?_, fun ref => rfl, rfl⟩⟩
  · rw [takeFrame_always (s := s.advance dt) hl rfl, queried_eq rfl]
    exact respond_answers (s.queried dt) _ _ _
  · rintro rfl
    refine ⟨(s.advance dt).noticesSent, rfl, ?_⟩
    rw [noticesSent_due (s := s.advance dt) hl]
    exact ⟨rfl, by rw [BitVec.and_not_self]; rfl⟩
  · rintro rest snapshot rfl
    refine ⟨(s.advance dt).noticesSent, rfl, ?_⟩
    rw [noticesSent_begun (s := s.advance dt) hl]
    exact ⟨rfl, notice_cleared _ _⟩
  · have k := keeping_answers (dt := dt) (next := liveBlock f) ht (readLiveRule_done (f := f) (s := s.queried dt) hk hb)
    exact ⟨liveBlock_kind hk ▸ k.1, k.2⟩
  · exact keeping_turnedAway (i := .readLive dt f) ht rfl (readLiveRule_badArgument hk) rfl
  · exact keeping_turnedAway (i := .readLive dt f) ht rfl (readLiveRule_noObject hk hb) rfl
  · have k := keeping_answers (dt := dt) (next := mapBlock f) ht (readMapRule_done (f := f) (s := s.queried dt) h1 h8 hobj)
    exact ⟨mapBlock_object hobj ▸ k.1, k.2⟩
  · simp only [State.opening, h]

/-! ### Streams -/

theorem findSome?_range_some {α : Type} {g : Nat → Option α} {n i : Nat} {a : α} (hi : i < n) (h : g i = some a)
    (before : ∀ j, j < i → g j = none) : (List.range n).findSome? g = some a := by
  rw [List.findSome?_eq_some_iff]
  refine ⟨List.range i, i, (List.range' (i + 1) (n - i - 1)), ?_, h, fun j hj => before j (List.mem_range.mp hj)⟩
  rw [List.range_eq_range', List.range_eq_range', ← List.range'_succ]
  have := List.range'_append (s := 0) (m := i) (n := n - i - 1 + 1) (step := 1)
  rw [show i + (n - i - 1 + 1) = n by omega] at this
  simpa using this.symm

/-- The record a stream sends next is the one of the lowest index from there on (R174). -/
theorem nextLive_some {kind : LiveKind} {start j : Nat} {body : List Byte} (hj : start ≤ j) (h52 : j < 52)
    (h : s.liveBody kind j = some body) (before : ∀ n, start ≤ n → n < j → s.liveBody kind n = none) :
    s.nextLive kind start = some (j, body) := by
  refine findSome?_range_some h52 (by simp [hj, h]) fun n hn => ?_
  split
  · next hs => simp [before n hs hn]
  · rfl

theorem nextLive_none {kind : LiveKind} {start : Nat} (h : ∀ n, start ≤ n → n < 52 → s.liveBody kind n = none) :
    s.nextLive kind start = none := by
  refine List.findSome?_eq_none_iff.mpr fun n hn => ?_
  split
  · next hs => simp [h n hs (List.mem_range.mp hn)]
  · rfl

/-- A stream in SENDING, whatever of its block has been sent. -/
theorem stream?_eq {kind : LiveKind} {start : Nat} {owed rest : List Byte} {what : Sending} (hl : s.link.heard = (owed, .sending what))
    (hw : what = .stream kind start ∧ rest = [] ∨ what = .begun rest (.streaming kind start)) :
    s.link.stream? = some (owed ++ rest, kind, start) := by
  rcases hw with ⟨rfl, rfl⟩ | rfl
  · simp only [Link.stream?, hl, List.append_nil]
  · simp only [Link.stream?, hl]

theorem cutOff_eq {owed : List Byte} {what : Sending} (hl : s.link.heard = (owed, .sending what)) : s.cutOff =
    { s with link := .receivingFrame what.isStream, dataOut := owed ++ (s.opening what).1.take 1 } := by
  simp only [State.cutOff, hl]

theorem streamRule_done {kind : LiveKind} (h : liveKindOf (argumentOf f) = some kind) : streamRule f s = (.done, s) := by
  simp [streamRule, h]

theorem liveStream_kind {kind : LiveKind} (h : liveKindOf (argumentOf f) = some kind) : liveStream f = .send (.stream kind 0) := by
  simp only [liveStream, h]

/-- A link state that has a stream active shows it in the condition byte. -/
theorem conditionByte_stream {kind : LiveKind} {next wait : Nat} {rest : List Byte}
    (h : s.link = .responding wait rest (.send (.stream kind next))) : s.conditionByte.getLsbD 5 = true :=
  (conditionByte_shown s).stream.mpr ⟨kind, next, [], _, .inl rfl, .inr ⟨wait, rest, h⟩⟩

/-- Settles O26. -/
theorem streamsSendRecords : Obligations.StreamsSendRecords := by
  refine ⟨fun s dt f kind ht hk => ⟨_, rfl, ?_⟩, fun s dt kind start owed rest what hl hw => ⟨fun j body hj h52 h before => ?_, fun h => ?_⟩,
    fun s dt owed what hl => ⟨(s.advance dt).cutOff, rfl, ?_⟩, fun s dt f hl hm => ⟨_, rfl, ?_⟩⟩
  · have k := keeping_answers (dt := dt) (next := liveStream f) ht (streamRule_done (f := f) (s := s.queried dt) hk)
    rw [liveStream_kind hk] at k
    obtain ⟨wait, hwait, hlink⟩ := k.1
    rw [liveStream_kind hk]
    exact ⟨k.1, conditionByte_stream hlink, k.2⟩
  · change Host.Outcome.next (s.advance dt).sendStreamBlock = _
    rw [State.sendStreamBlock, stream?_eq (s := s.advance dt) hl hw]
    simp only [nextLive_some (s := s.advance dt) hj h52 h before]
    rfl
  · change Host.Outcome.next (s.advance dt).finishStream = _
    rw [State.finishStream, stream?_eq (s := s.advance dt) hl hw]
    simp only [nextLive_none (s := s.advance dt) h]
    rfl
  · rw [cutOff_eq (s := s.advance dt) hl]
    refine ⟨rfl, ?_, ?_, ?_, ?_, ?_⟩
    · rintro kind next rfl
      rw [stream_firstByte]
      refine ⟨rfl, fun h => ?_, fun h => ?_⟩
      · rw [show (s.advance dt).nextLive kind next = none from h]
        rfl
      · rw [show ((s.advance dt).nextLive kind next).isSome = true from h]
        rfl
    · rintro b rest kind next rfl
      exact ⟨rfl, rfl⟩
    · rintro b rest after rfl
      refine ⟨rfl, fun h => ?_⟩
      cases after with
      | streaming kind next => exact absurd rfl (h kind next)
      | _ => rfl
    · rintro kind index body rfl h
      refine ⟨rfl, ?_⟩
      have ho : (s.advance dt).opening (.live kind index) = (dataBlock (byteOf kind.code) body, .single) := by
        simp only [State.opening, show (s.advance dt).liveBody kind index = some body from h]
      rw [ho]
      rfl
    · rintro (rfl | ⟨obj, rfl⟩)
      · exact ⟨rfl, rfl⟩
      · exact ⟨rfl, rfl⟩
  · have taken : (s.advance dt).takeFrame stopClass (fun s => (.done, s)) = (s.queried dt).respond false .done .nothing := by
      obtain ⟨cut, hcut⟩ := Option.isSome_iff_exists.mp hl
      unfold State.takeFrame
      rw [show (s.advance dt).link.takesFrame = some cut from hcut]
      dsimp only
      rw [queried_eq rfl]
      have ha : (s.queried dt).answer stopClass cut (fun s => (.done, s)) = (.done, s.queried dt) := by
        unfold State.answer
        rw [if_neg (by simp [stopClass]), if_neg (fun h => hm h.1)]
      rw [ha]
      rfl
    rw [taken]
    exact respond_answers (s.queried dt) _ _ _

end Sys2Proof.Machine
end

section
/-! PROOF. Validation: the report names the first check that fails, and what each group of checks says of a map that passes. -/

namespace Sys2Proof.Machine

variable {m : CircuitMap}

/-! ### The first check that fails -/

theorem firstFail_none {cs : List (Nat × Bool)} : firstFail cs = none ↔ Passes cs := by
  simp [firstFail, Passes]

theorem firstFail_some {cs : List (Nat × Bool)} {code : Nat} (h : firstFail cs = some code) : FailsAt cs code := by
  obtain ⟨⟨n, bad⟩, hp, rfl⟩ := Option.map_eq_some_iff.mp h
  obtain ⟨hbad, before, rest, rfl, hb⟩ := List.find?_eq_some_iff_append.mp hp
  cases hbad
  exact ⟨before, rest, rfl, fun p hp => by simpa using hb p hp⟩

theorem firstOf_none {α : Type} {n group : Nat} {slot : Fin n → Option α} {checks : Fin n → α → List (Nat × Bool)} :
    firstOf group slot checks = none ↔ GroupPasses slot checks := by
  simp only [firstOf, List.findSome?_eq_none_iff, List.mem_finRange, forall_const, GroupPasses, Option.bind_eq_none_iff,
    Option.map_eq_none_iff, firstFail_none]

theorem firstOf_some {α : Type} {n group : Nat} {slot : Fin n → Option α} {checks : Fin n → α → List (Nat × Bool)} {r : Report}
    (h : firstOf group slot checks = some r) :
    ∃ index code, r = Report.failing group index code ∧ GroupFailsAt slot checks index code := by
  obtain ⟨before, i, rest, hl, hi, hbefore⟩ := List.findSome?_eq_some_iff.mp h
  obtain ⟨d, hd, hr⟩ := Option.bind_eq_some_iff.mp hi
  obtain ⟨code, hcode, rfl⟩ := Option.map_eq_some_iff.mp hr
  refine ⟨i.val, code, rfl, i, d, rfl, hd, firstFail_some hcode, fun j e hj he => ?_⟩
  have sorted : (before ++ i :: rest).Pairwise (· < ·) := hl ▸ List.pairwise_lt_finRange n
  have mem : j ∈ before ++ i :: rest := hl ▸ List.mem_finRange j
  rcases List.mem_append.mp mem with hm | hm
  · have := hbefore j hm
    rw [he, Option.bind_some, Option.map_eq_none_iff] at this
    exact firstFail_none.mp this
  · rcases List.mem_cons.mp hm with rfl | hm
    · exact absurd hj (lt_irrefl _)
    · have := (List.pairwise_append.mp sorted).2.1
      exact absurd hj (not_lt_of_gt ((List.pairwise_cons.mp this).1 j hm))

/-- What the report says of a map, group by group (R16). -/
theorem validate_cases (m : CircuitMap) :
    (m.validate = Report.pass ∧ Passes m.circuitChecks ∧ GroupPasses m.zone m.zoneChecks ∧
      GroupPasses m.boundary m.boundaryChecks ∧ GroupPasses m.switch m.switchChecks ∧ GroupPasses m.station m.stationChecks ∧
      GroupPasses m.drive (fun ch _ => m.driveChecks ch) ∧ GroupPasses m.input m.inputChecks) ∨
    ∃ group index code, m.validate = { outcome := .fail, group := group, index := index, code := code } ∧
      (group = 7 ∧ index = 0 ∧ FailsAt m.circuitChecks code ∨
        Passes m.circuitChecks ∧
          (group = 1 ∧ GroupFailsAt m.zone m.zoneChecks index code ∨
            GroupPasses m.zone m.zoneChecks ∧
              (group = 2 ∧ GroupFailsAt m.boundary m.boundaryChecks index code ∨
                GroupPasses m.boundary m.boundaryChecks ∧
                  (group = 3 ∧ GroupFailsAt m.switch m.switchChecks index code ∨
                    GroupPasses m.switch m.switchChecks ∧
                      (group = 4 ∧ GroupFailsAt m.station m.stationChecks index code ∨
                        GroupPasses m.station m.stationChecks ∧
                          (group = 5 ∧ GroupFailsAt m.drive (fun ch _ => m.driveChecks ch) index code ∨
                            GroupPasses m.drive (fun ch _ => m.driveChecks ch) ∧
                              group = 6 ∧ GroupFailsAt m.input m.inputChecks index code)))))) := by
  unfold CircuitMap.validate
  cases hc : (firstFail m.circuitChecks).map (Report.failing 7 0) with
  | some r =>
    obtain ⟨code, hcode, rfl⟩ := Option.map_eq_some_iff.mp hc
    exact .inr ⟨_, _, _, rfl, .inl ⟨rfl, rfl, firstFail_some hcode⟩⟩
  | none =>
  have pc := firstFail_none.mp (Option.map_eq_none_iff.mp hc)
  dsimp only
  cases hz : firstOf 1 m.zone m.zoneChecks with
  | some r =>
    obtain ⟨_, _, rfl, hf⟩ := firstOf_some hz
    exact .inr ⟨_, _, _, rfl, .inr ⟨pc, .inl ⟨rfl, hf⟩⟩⟩
  | none =>
  have pz := firstOf_none.mp hz
  dsimp only
  cases hb : firstOf 2 m.boundary m.boundaryChecks with
  | some r =>
    obtain ⟨_, _, rfl, hf⟩ := firstOf_some hb
    exact .inr ⟨_, _, _, rfl, .inr ⟨pc, .inr ⟨pz, .inl ⟨rfl, hf⟩⟩⟩⟩
  | none =>
  have pb := firstOf_none.mp hb
  dsimp only
  cases hw : firstOf 3 m.switch m.switchChecks with
  | some r =>
    obtain ⟨_, _, rfl, hf⟩ := firstOf_some hw
    exact .inr ⟨_, _, _, rfl, .inr ⟨pc, .inr ⟨pz, .inr ⟨pb, .inl ⟨rfl, hf⟩⟩⟩⟩⟩
  | none =>
  have pw := firstOf_none.mp hw
  dsimp only
  cases hst : firstOf 4 m.station m.stationChecks with
  | some r =>
    obtain ⟨_, _, rfl, hf⟩ := firstOf_some hst
    exact .inr ⟨_, _, _, rfl, .inr ⟨pc, .inr ⟨pz, .inr ⟨pb, .inr ⟨pw, .inl ⟨rfl, hf⟩⟩⟩⟩⟩⟩
  | none =>
  have pst := firstOf_none.mp hst
  dsimp only
  cases hch : firstOf 5 m.drive (fun ch _ => m.driveChecks ch) with
  | some r =>
    obtain ⟨_, _, rfl, hf⟩ := firstOf_some hch
    exact .inr ⟨_, _, _, rfl, .inr ⟨pc, .inr ⟨pz, .inr ⟨pb, .inr ⟨pw, .inr ⟨pst, .inl ⟨rfl, hf⟩⟩⟩⟩⟩⟩⟩
  | none =>
  have pch := firstOf_none.mp hch
  dsimp only
  cases hi : firstOf 6 m.input m.inputChecks with
  | some r =>
    obtain ⟨_, _, rfl, hf⟩ := firstOf_some hi
    exact .inr ⟨_, _, _, rfl, .inr ⟨pc, .inr ⟨pz, .inr ⟨pb, .inr ⟨pw, .inr ⟨pst, .inr ⟨pch, rfl, hf⟩⟩⟩⟩⟩⟩⟩
  | none => exact .inl ⟨rfl, pc, pz, pb, pw, pst, pch, firstOf_none.mp hi⟩

/-- Every group of checks passes. -/
structure CircuitMap.Passed (m : CircuitMap) : Prop where
  circuit : Passes m.circuitChecks
  zone : GroupPasses m.zone m.zoneChecks
  boundary : GroupPasses m.boundary m.boundaryChecks
  switch : GroupPasses m.switch m.switchChecks
  station : GroupPasses m.station m.stationChecks
  drive : GroupPasses m.drive (fun ch _ => m.driveChecks ch)
  input : GroupPasses m.input m.inputChecks

theorem validate_passed (h : m.validate.outcome = .pass) : m.Passed := by
  rcases validate_cases m with ⟨-, h1, h2, h3, h4, h5, h6, h7⟩ | ⟨group, index, code, e, -⟩
  · exact ⟨h1, h2, h3, h4, h5, h6, h7⟩
  · rw [e] at h
    cases h

/-! ### Walks -/

theorem mem_addZones {zs more : List ZoneIx} {z : ZoneIx} : z ∈ addZones zs more ↔ z ∈ zs ∨ z ∈ more := by
  induction more generalizing zs with
  | nil => simp [addZones]
  | cons y ys ih =>
    rw [addZones, List.foldl_cons]
    change z ∈ addZones _ ys ↔ _
    rw [ih]
    split
    · next h =>
      have hy : y ∈ zs := by simpa using h
      constructor
      · rintro (h | h)
        · exact .inl h
        · exact .inr (List.mem_cons_of_mem _ h)
      · rintro (h | h)
        · exact .inl h
        · rcases List.mem_cons.mp h with rfl | h
          · exact .inl hy
          · exact .inr h
    · simp only [List.mem_append, List.mem_cons, List.not_mem_nil, or_false, or_assoc]

theorem mem_successors {a b : ZoneIx} : b ∈ m.successors a ↔ ∃ route, m.successor a route = some b := by
  unfold CircuitMap.successors
  constructor
  · split
    · rw [List.mem_append, Option.mem_toList, Option.mem_toList]
      rintro (h | h)
      · exact ⟨.a, h⟩
      · exact ⟨.b, h⟩
    · rw [Option.mem_toList]
      exact fun h => ⟨.a, h⟩
  · rintro ⟨route, h⟩
    split
    · rw [List.mem_append, Option.mem_toList, Option.mem_toList]
      cases route with
      | a => exact .inl h
      | b => exact .inr h
    · next hd =>
      have same : m.successor a .b = m.successor a .a := by
        unfold CircuitMap.successor
        rw [hd]
      rw [Option.mem_toList]
      cases route with
      | a => exact h
      | b => exact same ▸ h

theorem spread_leadsTo {k : Nat} {seen : List ZoneIx} {a z : ZoneIx} (hseen : ∀ y ∈ seen, m.leadsTo a y) (h : z ∈ m.spread k seen) :
    m.leadsTo a z := by
  induction k generalizing seen with
  | zero => exact hseen z h
  | succ k ih =>
    unfold CircuitMap.spread at h
    dsimp only at h
    split at h
    · exact hseen z h
    · refine ih (fun y hy => ?_) h
      rcases mem_addZones.mp hy with hy | hy
      · exact hseen y hy
      · obtain ⟨x, hx, hxy⟩ := List.mem_flatMap.mp (List.mem_filter.mp hy).1
        obtain ⟨route, hr⟩ := mem_successors.mp hxy
        refine (hseen x hx).tail ?_
        cases route with
        | a => exact .inl hr
        | b => exact .inr hr

theorem reaches_leadsTo {a z : ZoneIx} (h : m.reaches a z = true) : m.leadsTo a z :=
  spread_leadsTo (seen := [a]) (fun y hy => by rw [List.mem_singleton.mp hy]; exact .refl) (by simpa [CircuitMap.reaches] using h)

/-! ### Zones that pass -/

/-- What the checks of R18 say of a zone that passes them. -/
structure CircuitMap.ZonePassed (m : CircuitMap) (z : ZoneIx) (d : ZoneDesc) : Prop where
  legs : d.succB = none ∨ d.entryB = none
  spur : d.kind = .spur → d.succA = none ∧ d.succB = none
  ahead : d.kind ≠ .spur → d.succA.isSome = true
  named : ∀ y ∈ d.named, m.hasZone y = true ∧ y ≠ z
  switched : ∀ w, d.switch = some w → ∃ sd, m.switch w = some sd ∧ sd.zone = z ∧
    (sd.kind = .merge → d.entryB.isSome = true) ∧ ∀ mode, sd.kind = .diverge mode → d.succB.isSome = true
  plain : d.switch = none → d.succB = none ∧ d.entryB = none
  entered : ∀ b ∈ d.entries, ∃ bd, m.boundary b = some bd ∧ bd.down = z
  exits : ∀ y ∈ d.named, ∃ b bd e, m.zone y = some e ∧ b ∈ e.entries ∧ m.boundary b = some bd ∧ bd.up = z ∧
    (d.kind = .launch → bd.rollback = true)
  holdsSwitch : d.switch.isSome = true → d.element ≠ .none
  holds : d.kind ≠ .run → d.element ≠ .none
  station : d.kind = .station → d.berth.isSome = true ∧ ∃ st sd, d.station = some st ∧ m.station st = some sd ∧ sd.zone = z
  noStation : d.kind ≠ .station → d.station = none
  drive : ∀ ch, d.element = .drive ch → (m.drive ch).isSome = true
  proofs : ∀ l ∈ d.proofLines, l ∉ m.zoneProofs z.val
  twoProofs : ∀ o c ms, d.element = .brake o c ms → o ≠ c
  berth : ∀ l, d.berth = some l → l ∉ m.berthLines z.val
  runB : d.runB.isSome = d.switch.isSome
  length : m.trainLength ≤ d.runA ∧ ∀ p, d.runB = some p → m.trainLength ≤ p
  reached : m.reaches 0 z = true
  returns : d.kind ≠ .spur → m.reaches z 0 = true
  runs : m.nonStoppingRun 4 z = false
  legEntries : ∀ eb, d.entryB = some eb → eb ≠ d.entryA ∧ (m.boundary eb).map (·.up) ≠ (m.boundary d.entryA).map (·.up)
  before : (m.divergeAt z).isSome = true ∨ (m.mergeAt z).isSome = true → ∀ y ∈ m.predecessors z, m.isNonStopping y = false

theorem option_any_some {α : Type} {o : Option α} {p : α → Bool} (h : o.any p = true) : ∃ x, o = some x ∧ p x = true := by
  cases o with
  | none => cases h
  | some x => exact ⟨x, rfl, h⟩

theorem exitTo_spec {z y : ZoneIx} {b : BoundaryIx} (h : m.exitTo z y = some b) :
    ∃ bd e, m.zone y = some e ∧ b ∈ e.entries ∧ m.boundary b = some bd ∧ bd.up = z := by
  unfold CircuitMap.exitTo at h
  split at h
  · cases h
  · next e he =>
    have h1 := List.mem_of_find?_eq_some h
    have h2 := List.find?_some h
    obtain ⟨bd, hbd, hup⟩ := option_any_some h2
    exact ⟨bd, e, he, h1, hbd, by simpa using hup⟩

theorem zone_passed {z : ZoneIx} {d : ZoneDesc} (h : Passes (m.zoneChecks z d)) : m.ZonePassed z d := by
  simp [Passes, CircuitMap.zoneChecks] at h
  obtain ⟨h10, ⟨⟨h11, hnamed⟩, -⟩, h12, ⟨h13, hlegs⟩, h14, h15, h16, h17, h18, ⟨⟨h19, htwo⟩, hberth⟩, h1A, ⟨⟨hrunB, hrunA⟩, hlen⟩,
    ⟨hto, hfrom⟩, h1D, h1E⟩ := h
  exact {
    legs := by
      cases hb : d.succB with
      | none => exact .inl rfl
      | some y => exact .inr (h10 (by rw [hb]; rfl))
    spur := fun hk => by
      rw [if_pos hk] at h11
      simpa [ZoneDesc.named] using h11
    ahead := fun hk => by rwa [if_neg hk] at h11
    named := hnamed
    switched := fun w hw => by
      rw [hw] at h12
      dsimp only at h12
      cases hsd : m.switch w with
      | none => rw [hsd] at h12; cases h12
      | some sd =>
        rw [hsd] at h12
        simp only [Bool.or_eq_false_iff, bne_eq_false_iff_eq] at h12
        refine ⟨sd, rfl, h12.1, fun hk => ?_, fun mode hk => ?_⟩
        · simpa [hk, Option.isSome_iff_ne_none] using h12.2
        · simpa [hk, Option.isSome_iff_ne_none] using h12.2
    plain := fun hw => by
      rw [hw] at h12
      simpa using h12
    entered := fun b hb => by
      have := h13 b hb
      cases hbd : m.boundary b with
      | none => rw [hbd] at this; cases this
      | some bd => exact ⟨bd, rfl, by simpa [hbd] using this⟩
    exits := fun y hy => by
      cases he : m.exitTo z y with
      | none => exact absurd he (h14 y hy)
      | some b =>
        obtain ⟨bd, e, hye, hbe, hbd, hup⟩ := exitTo_spec he
        refine ⟨b, bd, e, hye, hbe, hbd, hup, fun hk => ?_⟩
        have := h1A hk y hy
        rw [he] at this
        simpa [hbd] using this
    holdsSwitch := h15
    holds := h16
    station := fun hk => by
      rw [if_pos hk] at h17
      refine ⟨h17.1, ?_⟩
      have h := h17.2
      cases hst : d.station with
      | none => rw [hst] at h; cases h
      | some st =>
        rw [hst] at h
        dsimp only at h
        cases hsd : m.station st with
        | none => rw [hsd] at h; cases h
        | some sd => exact ⟨st, sd, rfl, hsd, by simpa [hsd] using h⟩
    noStation := fun hk => by rwa [if_neg hk] at h17
    drive := fun ch he => by
      rw [he] at h18
      simpa [Option.isSome_iff_ne_none] using h18
    proofs := h19
    twoProofs := fun o c ms he => by
      rw [he] at htwo
      simpa using htwo
    berth := fun l hl => by
      rw [hl] at hberth
      simpa using hberth
    runB := hrunB
    length := ⟨hrunA, fun p hp => by
      rw [hp] at hlen
      simpa using hlen⟩
    reached := hto
    returns := hfrom
    runs := h1D
    legEntries := fun eb he => by
      rw [he] at hlegs
      simpa using hlegs
    before := h1E }

/-! ### Lines already used -/

theorem mem_flatMap_below {α β : Type} {n k : Nat} {slot : Fin n → Option α} {lines : α → List β} {l : β} :
    (l ∈ (List.finRange n).flatMap fun z => if z.val < k then ((slot z).map lines).getD [] else []) ↔
      ∃ z d, z.val < k ∧ slot z = some d ∧ l ∈ lines d := by
  simp only [List.mem_flatMap, List.mem_finRange, true_and]
  constructor
  · rintro ⟨z, h⟩
    split at h
    · next hk =>
      cases hd : slot z with
      | none => rw [hd] at h; cases h
      | some d => exact ⟨z, d, hk, hd, by rwa [hd] at h⟩
    · cases h
  · rintro ⟨z, d, hk, hd, h⟩
    exact ⟨z, by rw [if_pos hk, hd]; exact h⟩

theorem mem_zoneProofs {n : Nat} {l : ProofLine} : l ∈ m.zoneProofs n ↔ ∃ z d, z.val < n ∧ m.zone z = some d ∧ l ∈ d.proofLines :=
  mem_flatMap_below

theorem mem_gateLines {n : Nat} {l : SensorLine} :
    l ∈ m.gateLines n ↔ ∃ b d, b.val < n ∧ m.boundary b = some d ∧ l ∈ [d.uLine, d.dLine] := mem_flatMap_below

theorem mem_switchProofs {n : Nat} {l : ProofLine} :
    l ∈ m.switchProofs n ↔ ∃ w d, w.val < n ∧ m.switch w = some d ∧ l ∈ [d.proofA, d.proofB] := mem_flatMap_below

theorem mem_switchOutputs {n : Nat} {l : OutputLine} :
    l ∈ m.switchOutputs n ↔ ∃ w d, w.val < n ∧ m.switch w = some d ∧ l ∈ [d.outA, d.outB] := mem_flatMap_below

theorem mem_berthLines {n : Nat} {l : SensorLine} : l ∈ m.berthLines n ↔ ∃ z d, z.val < n ∧ m.zone z = some d ∧ d.berth = some l := by
  have h : m.berthLines n = (List.finRange 48).flatMap fun z =>
      if z.val < n then ((m.zone z).map fun d => d.berth.toList).getD [] else [] := by
    unfold CircuitMap.berthLines
    congr 1
    funext z
    split
    · cases m.zone z <;> rfl
    · rfl
  rw [h, mem_flatMap_below]
  simp

/-- No line is named by two records of a group each of which names no line of those below it. -/
theorem line_unique {α β : Type} {n : Nat} {slot : Fin n → Option α} {lines : α → List β}
    (below : ∀ z d, slot z = some d → ∀ l ∈ lines d, ¬∃ y e, y.val < z.val ∧ slot y = some e ∧ l ∈ lines e)
    {y z : Fin n} {d e : α} (hd : slot z = some d) (he : slot y = some e) (hne : y ≠ z) {l : β} (hl : l ∈ lines d) : l ∉ lines e := by
  intro hl'
  rcases Nat.lt_or_gt_of_ne (Fin.val_ne_of_ne hne) with h | h
  · exact below z d hd l hl ⟨y, e, h, he, hl'⟩
  · exact below y e he l hl' ⟨z, d, h, hd, hl⟩

/-! ### The other groups -/

/-- What the checks of R19 say of a boundary that passes them. -/
structure CircuitMap.BoundaryPassed (m : CircuitMap) (b : BoundaryIx) (d : BoundaryDesc) : Prop where
  ends : d.up ≠ d.down
  entry : ∃ e, m.zone d.down = some e ∧ b ∈ e.entries
  exit : ∃ u, m.zone d.up = some u ∧ d.down ∈ u.named
  lines : ∀ l ∈ [d.uLine, d.dLine], l ∉ m.berthLines 48 ∧ l ∉ m.gateLines b.val
  twoLines : d.uLine ≠ d.dLine
  gate : d.gate < m.trainLength
  rollback : d.rollback = true → m.isNonStopping d.up = false

theorem boundary_passed {b : BoundaryIx} {d : BoundaryDesc} (h : Passes (m.boundaryChecks b d)) : m.BoundaryPassed b d := by
  simp [Passes, CircuitMap.boundaryChecks] at h
  obtain ⟨⟨-, hends⟩, ⟨hentry, hexit⟩, ⟨⟨⟨huB, huG⟩, hdB, hdG⟩, htwo⟩, hgate, hroll⟩ := h
  obtain ⟨e, he, hb⟩ := option_any_some hentry
  obtain ⟨u, hu, hy⟩ := option_any_some hexit
  exact {
    ends := hends
    entry := ⟨e, he, by simpa using hb⟩
    exit := ⟨u, hu, by simpa using hy⟩
    lines := fun l hl => by
      rcases List.mem_cons.mp hl with rfl | hl
      · exact ⟨huB, huG⟩
      · rw [List.mem_singleton.mp hl]
        exact ⟨hdB, hdG⟩
    twoLines := htwo
    gate := hgate
    rollback := hroll }

/-- What the checks of R20 say of a switch that passes them. -/
structure CircuitMap.SwitchPassed (m : CircuitMap) (w : SwitchIx) (d : SwitchDesc) : Prop where
  zone : ∃ zd, m.zone d.zone = some zd ∧ zd.switch = some w
  twoOutputs : d.outA ≠ d.outB
  twoProofs : d.proofA ≠ d.proofB
  outputs : ∀ l ∈ [d.outA, d.outB], l ∉ m.switchOutputs w.val
  proofs : ∀ l ∈ [d.proofA, d.proofB], l ∉ m.zoneProofs 48 ∧ l ∉ m.switchProofs w.val

theorem switch_passed {w : SwitchIx} {d : SwitchDesc} (h : Passes (m.switchChecks w d)) : m.SwitchPassed w d := by
  simp [Passes, CircuitMap.switchChecks] at h
  obtain ⟨hzone, ⟨⟨⟨⟨hoAB, hoA⟩, hoB⟩, hpAB⟩, hpAz, hpAs⟩, hpBz, hpBs⟩ := h
  obtain ⟨zd, hz, hw⟩ := option_any_some hzone
  exact {
    zone := ⟨zd, hz, by simpa using hw⟩
    twoOutputs := hoAB
    twoProofs := hpAB
    outputs := fun l hl => by
      rcases List.mem_cons.mp hl with rfl | hl
      · exact hoA
      · rw [List.mem_singleton.mp hl]
        exact hoB
    proofs := fun l hl => by
      rcases List.mem_cons.mp hl with rfl | hl
      · exact ⟨hpAz, hpAs⟩
      · rw [List.mem_singleton.mp hl]
        exact ⟨hpBz, hpBs⟩ }

theorem station_passed {st : StationIx} {d : StationDesc} (h : Passes (m.stationChecks st d)) :
    (∃ zd, m.zone d.zone = some zd ∧ zd.kind = .station ∧ zd.station = some st) ∧
    (∃ x, m.input d.restraint = some x ∧ x.function = .restraint st) ∧ (∃ x, m.input d.gate = some x ∧ x.function = .gate st) ∧
    (∃ x, m.input d.dispatchA = some x ∧ x.function = .dispatchA st) ∧
    ∃ x, m.input d.dispatchB = some x ∧ x.function = .dispatchB st := by
  simp [Passes, CircuitMap.stationChecks] at h
  obtain ⟨hzone, ⟨⟨hr, hg⟩, ha⟩, hb⟩ := h
  have carried : ∀ {i : InputIx} {f : InputFunction}, (m.input i).any (fun x => x.function == f) = true →
      ∃ x, m.input i = some x ∧ x.function = f := by
    intro i f h
    obtain ⟨x, hx, hf⟩ := option_any_some h
    exact ⟨x, hx, by simpa using hf⟩
  obtain ⟨zd, hz, hk⟩ := option_any_some hzone
  exact ⟨⟨zd, hz, by simpa using hk⟩, carried hr, carried hg, carried ha, carried hb⟩

theorem input_passed {i : InputIx} {x : InputDesc} (h : Passes (m.inputChecks i x)) :
    (∀ z, x.function = .zoneHold z → (m.zone z).isSome = true) ∧
    (∀ st, x.function = .restraint st → ∃ sd, m.station st = some sd ∧ sd.restraint = i) ∧
    (∀ st, x.function = .gate st → ∃ sd, m.station st = some sd ∧ sd.gate = i) ∧
    (∀ st, x.function = .dispatchA st → ∃ sd, m.station st = some sd ∧ sd.dispatchA = i) ∧
    ∀ st, x.function = .dispatchB st → ∃ sd, m.station st = some sd ∧ sd.dispatchB = i := by
  simp [Passes, CircuitMap.inputChecks] at h
  obtain ⟨hnamed, hback⟩ := h
  have placed : ∀ {st : StationIx} {f : StationDesc → InputIx}, (m.station st).any (fun sd => f sd == i) = true →
      ∃ sd, m.station st = some sd ∧ f sd = i := by
    intro st f h
    obtain ⟨sd, hsd, hf⟩ := option_any_some h
    exact ⟨sd, hsd, by simpa using hf⟩
  refine ⟨fun z hf => ?_, fun st hf => ?_, fun st hf => ?_, fun st hf => ?_, fun st hf => ?_⟩
  · rw [hf] at hnamed
    simpa [CircuitMap.hasZone] using hnamed
  all_goals
    rw [hf] at hback
    exact placed (by simpa using hback)

/-! ### A map that passes -/

variable {cd : CircuitDesc}

/-- The zones that name a drive's channel are at most one (check 0x50). -/
theorem drive_unique {ch : ChannelIx} (h : Passes (m.driveChecks ch)) {y z : ZoneIx} {d e : ZoneDesc} (hd : m.zone z = some d)
    (hde : d.element = .drive ch) (he : m.zone y = some e) (hee : e.element = .drive ch) : y = z := by
  by_contra hne
  simp [Passes, CircuitMap.driveChecks] at h
  rw [List.countP_eq_length_filter] at h
  have mem : ∀ {x f}, m.zone x = some f → f.element = .drive ch →
      x ∈ (List.finRange 48).filter fun z => (m.zone z).any fun zd => zd.element == .drive ch := fun {x f} hx hf =>
    List.mem_filter.mpr ⟨List.mem_finRange x, by rw [hx]; simp [hf]⟩
  have two : [y, z].Subperm ((List.finRange 48).filter fun z => (m.zone z).any fun zd => zd.element == .drive ch) :=
    (List.nodup_cons.mpr ⟨by simpa using hne, List.nodup_singleton z⟩).subperm fun x hx => by
      rcases List.mem_cons.mp hx with rfl | hx
      · exact mem he hee
      · rw [List.mem_singleton.mp hx]
        exact mem hd hde
  have := two.length_le
  simp at this
  omega

/-- Four zones in a row, none of which stops a train, are a run of four (check 0x1D). -/
theorem nonStoppingRun_four {z a b c : ZoneIx} (hz : m.isNonStopping z = true) (ha : m.isNonStopping a = true)
    (hb : m.isNonStopping b = true) (hc : m.isNonStopping c = true) (hza : ∃ r, m.successor z r = some a)
    (hab : ∃ r, m.successor a r = some b) (hbc : ∃ r, m.successor b r = some c) : m.nonStoppingRun 4 z = true := by
  have more : ∀ {k : Nat} {x y : ZoneIx}, m.isNonStopping x = true → (∃ r, m.successor x r = some y) →
      m.nonStoppingRun (k + 1) y = true → m.nonStoppingRun (k + 2) x = true := fun {k x y} hx hxy hy => by
    unfold CircuitMap.nonStoppingRun
    rw [hx, List.any_eq_true.mpr ⟨y, mem_successors.mpr hxy, hy⟩]
    simp
  refine more hz hza (more ha hab (more hb hbc ?_))
  simp [CircuitMap.nonStoppingRun, hc]

theorem mem_entries {d : ZoneDesc} {b : BoundaryIx} : b ∈ d.entries ↔ d.entryA = b ∨ d.entryB = some b := by
  simp [ZoneDesc.entries, eq_comm]

theorem mem_named {d : ZoneDesc} {y : ZoneIx} : y ∈ d.named ↔ d.succA = some y ∨ d.succB = some y := by
  simp [ZoneDesc.named]

theorem trainLength_of (h : m.circuit = some cd) : m.trainLength = cd.trainLength := by simp [CircuitMap.trainLength, h]

theorem hasZone_some {z : ZoneIx} (h : m.hasZone z = true) : ∃ d, m.zone z = some d := Option.isSome_iff_exists.mp h

/-- What R17 asks of a map, check by check. -/
theorem circuit_passed (h : Passes m.circuitChecks) :
    (∃ cd, m.circuit = some cd) ∧ 3 ≤ (List.finRange 48).countP (fun z => (m.zone z).isSome) ∧
      ∃ d, m.zone 0 = some d ∧ d.kind ≠ .spur := by
  simp [Passes, CircuitMap.circuitChecks] at h
  obtain ⟨hcircuit, hcount, hzone, hspur⟩ := h
  obtain ⟨d, hd⟩ := hasZone_some hzone
  refine ⟨Option.isSome_iff_exists.mp hcircuit, hcount, d, hd, fun hk => ?_⟩
  simp [CircuitMap.isSpur, hd, hk] at hspur

section Passed

variable (p : m.Passed) {z : ZoneIx} {d : ZoneDesc}
include p

/-- A zone that another names is entered from it by a boundary that has rollback detection behind a LAUNCH. -/
theorem Passed.exit (hz : m.zone z = some d) {y : ZoneIx} (hy : y ∈ d.named) :
    y ≠ z ∧ ∃ e b bd, m.zone y = some e ∧ (e.entryA = b ∨ e.entryB = some b) ∧ m.boundary b = some bd ∧ bd.up = z ∧
      bd.down = y ∧ (d.kind = .launch → bd.rollback = true) := by
  have q := zone_passed (p.zone z d hz)
  obtain ⟨b, bd, e, he, hb, hbd, hup, hlaunch⟩ := q.exits y hy
  obtain ⟨bd', hbd', hdown⟩ := (zone_passed (p.zone y e he)).entered b hb
  cases hbd.symm.trans hbd'
  exact ⟨(q.named y hy).2, e, b, bd, he, mem_entries.mp hb, hbd, hup, hdown, hlaunch⟩

theorem Passed.switched (hz : m.zone z = some d) {w : SwitchIx} (hw : d.switch = some w) :
    d.element ≠ .none ∧ d.runB.isSome = true ∧ ∃ sd, m.switch w = some sd ∧ sd.zone = z ∧
      (sd.kind = .merge → d.entryB.isSome = true) ∧ ∀ mode, sd.kind = .diverge mode → d.succB.isSome = true := by
  have q := zone_passed (p.zone z d hz)
  exact ⟨q.holdsSwitch (by rw [hw]; rfl), by rw [q.runB, hw]; rfl, q.switched w hw⟩

theorem Passed.plain (hz : m.zone z = some d) (hw : d.switch = none) : d.succB = none ∧ d.entryB = none ∧ d.runB = none := by
  have q := zone_passed (p.zone z d hz)
  have hrun : d.runB.isSome = false := by rw [q.runB, hw]; rfl
  exact ⟨(q.plain hw).1, (q.plain hw).2, by simpa using hrun⟩

/-- No proof line of a brake is another's or a switch's (checks 0x19, 0x31). -/
theorem Passed.brakeLines (hz : m.zone z = some d) {o c : ProofLine} {ms : Nat} (he : d.element = .brake o c ms) :
    o ≠ c ∧ (∀ y e, m.zone y = some e → y ≠ z → o ∉ e.proofLines ∧ c ∉ e.proofLines) ∧
      ∀ w sd, m.switch w = some sd → sd.proofA ≠ o ∧ sd.proofA ≠ c ∧ sd.proofB ≠ o ∧ sd.proofB ≠ c := by
  have own : d.proofLines = [o, c] := by simp [ZoneDesc.proofLines, he]
  have other : ∀ y e, m.zone y = some e → y ≠ z → ∀ l ∈ d.proofLines, l ∉ e.proofLines := fun y e hy hne l hl =>
    line_unique (fun x f hx l hl => mem_zoneProofs.not.mp ((zone_passed (p.zone x f hx)).proofs l hl)) hz hy hne hl
  have used : ∀ l ∈ d.proofLines, l ∈ m.zoneProofs 48 := fun l hl => mem_zoneProofs.mpr ⟨z, d, z.isLt, hz, hl⟩
  rw [own] at other used
  refine ⟨(zone_passed (p.zone z d hz)).twoProofs o c ms he,
    fun y e hy hne => ⟨other y e hy hne o (by simp), other y e hy hne c (by simp)⟩, fun w sd hw => ?_⟩
  have q := (switch_passed (p.switch w sd hw)).proofs
  have apart : ∀ l ∈ [sd.proofA, sd.proofB], l ≠ o ∧ l ≠ c := fun l hl =>
    ⟨fun h => (q l hl).1 (h ▸ used o (by simp)), fun h => (q l hl).1 (h ▸ used c (by simp))⟩
  obtain ⟨hAo, hAc⟩ := apart sd.proofA (by simp)
  obtain ⟨hBo, hBc⟩ := apart sd.proofB (by simp)
  exact ⟨hAo, hAc, hBo, hBc⟩

/-- No berth line is another's or a boundary's (checks 0x19, 0x22). -/
theorem Passed.berthLines (hz : m.zone z = some d) {line : SensorLine} (hl : d.berth = some line) :
    (∀ y e, m.zone y = some e → e.berth = some line → y = z) ∧
      ∀ b bd, m.boundary b = some bd → bd.uLine ≠ line ∧ bd.dLine ≠ line := by
  refine ⟨fun y e hy he => ?_, fun b bd hb => ?_⟩
  · by_contra hne
    exact line_unique (lines := fun d => d.berth.toList)
      (fun x f hx l hl => by
        simpa [mem_berthLines] using (zone_passed (p.zone x f hx)).berth l (by simpa using hl))
      hz hy hne (l := line) (by simp [hl]) (by simp [he])
  · have used : line ∈ m.berthLines 48 := mem_berthLines.mpr ⟨z, d, z.isLt, hz, hl⟩
    have q := (boundary_passed (p.boundary b bd hb)).lines
    exact ⟨fun h => (q _ (by simp)).1 (h ▸ used), fun h => (q _ (by simp)).1 (h ▸ used)⟩

theorem Passed.boundary_ends {b : BoundaryIx} {bd : BoundaryDesc} (hb : m.boundary b = some bd) :
    bd.up ≠ bd.down ∧ (∃ e, m.zone bd.down = some e ∧ (e.entryA = b ∨ e.entryB = some b)) ∧
      ∃ u, m.zone bd.up = some u ∧ (u.succA = some bd.down ∨ u.succB = some bd.down) ∧
        (bd.rollback = true → u.element ≠ .none) := by
  have q := boundary_passed (p.boundary b bd hb)
  obtain ⟨e, he, hbe⟩ := q.entry
  obtain ⟨u, hu, hdown⟩ := q.exit
  refine ⟨q.ends, ⟨e, he, mem_entries.mp hbe⟩, u, hu, mem_named.mp hdown, fun hr hnone => ?_⟩
  simpa [CircuitMap.isNonStopping, hu, hnone] using q.rollback hr

theorem Passed.boundary_lines {b b' : BoundaryIx} {bd bd' : BoundaryDesc} (hb : m.boundary b = some bd) (hb' : m.boundary b' = some bd')
    (hne : b' ≠ b) : bd.uLine ≠ bd'.uLine ∧ bd.uLine ≠ bd'.dLine ∧ bd.dLine ≠ bd'.uLine ∧ bd.dLine ≠ bd'.dLine := by
  have apart : ∀ l ∈ [bd.uLine, bd.dLine], l ∉ [bd'.uLine, bd'.dLine] := fun l hl =>
    line_unique (lines := fun d => [d.uLine, d.dLine])
      (fun x f hx l hl => mem_gateLines.not.mp ((boundary_passed (p.boundary x f hx)).lines l hl).2) hb hb' hne hl
  have hu := apart bd.uLine (by simp)
  have hd := apart bd.dLine (by simp)
  simp only [List.mem_cons, List.not_mem_nil, or_false, not_or] at hu hd
  exact ⟨hu.1, hu.2, hd.1, hd.2⟩

theorem Passed.switch_lines {w w' : SwitchIx} {sd sd' : SwitchDesc} (hw : m.switch w = some sd) (hw' : m.switch w' = some sd')
    (hne : w' ≠ w) : sd.outA ≠ sd'.outA ∧ sd.outA ≠ sd'.outB ∧ sd.outB ≠ sd'.outB ∧
      sd.proofA ≠ sd'.proofA ∧ sd.proofA ≠ sd'.proofB ∧ sd.proofB ≠ sd'.proofB := by
  have outs : ∀ l ∈ [sd.outA, sd.outB], l ∉ [sd'.outA, sd'.outB] := fun l hl =>
    line_unique (lines := fun d => [d.outA, d.outB])
      (fun x f hx l hl => mem_switchOutputs.not.mp ((switch_passed (p.switch x f hx)).outputs l hl)) hw hw' hne hl
  have proofs : ∀ l ∈ [sd.proofA, sd.proofB], l ∉ [sd'.proofA, sd'.proofB] := fun l hl =>
    line_unique (lines := fun d => [d.proofA, d.proofB])
      (fun x f hx l hl => mem_switchProofs.not.mp ((switch_passed (p.switch x f hx)).proofs l hl).2) hw hw' hne hl
  have oA := outs sd.outA (by simp)
  have oB := outs sd.outB (by simp)
  have pA := proofs sd.proofA (by simp)
  have pB := proofs sd.proofB (by simp)
  simp only [List.mem_cons, List.not_mem_nil, or_false, not_or] at oA oB pA pB
  exact ⟨oA.1, oA.2, oB.2, pA.1, pA.2, pB.2⟩

theorem Passed.drive (hz : m.zone z = some d) {ch : ChannelIx} (he : d.element = .drive ch) :
    (m.drive ch).isSome = true ∧ ∀ y e, m.zone y = some e → e.element = .drive ch → y = z := by
  have hsome := (zone_passed (p.zone z d hz)).drive ch he
  obtain ⟨dd, hdd⟩ := Option.isSome_iff_exists.mp hsome
  exact ⟨hsome, fun y e hy hye => drive_unique (p.drive ch dd hdd) hz he hy hye⟩

theorem Passed.runs (hz : m.zone z = some d) (a b c : ZoneIx) (hnz : m.isNonStopping z = true) (ha : m.isNonStopping a = true)
    (hb : m.isNonStopping b = true) (hc : m.isNonStopping c = true) :
    ¬((∃ r, m.successor z r = some a) ∧ (∃ r, m.successor a r = some b) ∧ ∃ r, m.successor b r = some c) := by
  rintro ⟨hza, hab, hbc⟩
  have := (zone_passed (p.zone z d hz)).runs
  rw [nonStoppingRun_four hnz ha hb hc hza hab hbc] at this
  cases this

end Passed

/-- Settles O28: the cases of `validate`, and group by group what a map that passes satisfies. -/
theorem validationChecks : Obligations.ValidationChecks := by
  unfold Obligations.ValidationChecks
  refine ⟨validate_cases, fun m hpass => ?_⟩
  have p := validate_passed hpass
  obtain ⟨hcircuit, hcount, hzero⟩ := circuit_passed p.circuit
  refine ⟨hcircuit, hcount, hzero, fun z d hz => ?_, fun b bd hb => ?_, fun w sd hw => ?_, fun st sd hst => station_passed (p.station st sd hst),
    fun i x hi => input_passed (p.input i x hi)⟩
  · have q := zone_passed (p.zone z d hz)
    exact ⟨reaches_leadsTo q.reached, fun hk => reaches_leadsTo (q.returns hk), q.spur, q.ahead, q.legs,
      fun y hy => Passed.exit p hz (mem_named.mpr hy), fun b hb => q.entered b (mem_entries.mpr hb), fun w => Passed.switched p hz,
      Passed.plain p hz, q.holds, q.station, q.noStation, fun ch => Passed.drive p hz, fun o c ms => Passed.brakeLines p hz,
      fun line => Passed.berthLines p hz, fun cd hcd => trainLength_of hcd ▸ q.length, Passed.runs p hz⟩
  · have q := boundary_passed (p.boundary b bd hb)
    obtain ⟨hends, hentry, hexit⟩ := Passed.boundary_ends p hb
    exact ⟨hends, hentry, hexit, q.twoLines, fun cd hcd => trainLength_of hcd ▸ q.gate, fun b' bd' hb' => Passed.boundary_lines p hb hb'⟩
  · have q := switch_passed (p.switch w sd hw)
    exact ⟨q.zone, q.twoOutputs, q.twoProofs, fun w' sd' hw' => Passed.switch_lines p hw hw'⟩

end Sys2Proof.Machine
end

section
/-! PROOF. SELECT_FIRST and SELECT_LAST (R43, R44): the walk along the primary route, and the set it extends. -/

namespace Sys2Proof.Machine

variable {m : CircuitMap}

/-- A walk along the primary route that meets its end first at its last zone is the one the model takes, where the steps suffice. -/
theorem primaryWalk_of_walk {target : ZoneIx} {k : Nat} {z : ZoneIx} {rest : List ZoneIx} (hlast : (z :: rest).getLast? = some target)
    (hlen : rest.length ≤ k) (hbefore : ∀ (n : Nat) a, (z :: rest)[n]? = some a → n < rest.length → a ≠ target)
    (hstep : ∀ (n : Nat) a b, (z :: rest)[n]? = some a → rest[n]? = some b → m.successor a .a = some b) :
    m.primaryWalk target k z = some (z :: rest) := by
  induction rest generalizing k z with
  | nil =>
    have hz : z = target := by simpa using hlast
    cases k <;> simp [CircuitMap.primaryWalk, hz]
  | cons y ys ih =>
    cases k with
    | zero => simp at hlen
    | succ k =>
      have hz : z ≠ target := hbefore 0 z rfl (by simp)
      have hy : m.successor z .a = some y := hstep 0 z y rfl rfl
      have tail : m.primaryWalk target k y = some (y :: ys) :=
        ih (by simpa using hlast) (by simpa using hlen) (fun n a h hn => hbefore (n + 1) a h (by simpa using hn))
          fun n a b ha hb => hstep (n + 1) a b ha hb
      simp [CircuitMap.primaryWalk, hz, hy, tail]

theorem nodup_addZones {zs more : List ZoneIx} (h : zs.Nodup) : (addZones zs more).Nodup :=
  foldl_induct (fun acc => acc.Nodup) _ (fun acc z hacc => by
    split
    · exact hacc
    · next hz => exact hacc.append (List.nodup_singleton z) (by simpa using hz)) more zs h

theorem selectLastRule_walk {s : State} {f : Frame} {z : ZoneIx} {d : ZoneDesc} {sel : Selection} (hm : s.mode ≠ .config)
    (hs : s.selection = some sel) (hz : s.map.zoneNamed f.obj.toNat = some (z, d)) :
    selectLastRule f s = match s.map.primaryWalk z Config.walkLimit sel.first with
      | none => (.badArgument, s)
      | some walk => (.done, { s with selection := some { sel with zones := addZones sel.zones walk } }) := by
  unfold selectLastRule
  rw [selectionCommand_open hm hs, zoneCommand_named hm hz]
  unfold extendSelection
  split <;> simp_all [State.refuse]

/-- Settles O39. -/
theorem selectFirstAndLast : Obligations.SelectFirstAndLast := by
  intro s dt f z d ht hm hz
  refine ⟨⟨_, rfl, ?_⟩, fun sel hs => ⟨fun walk hfirst hlast hlen hbefore hstep => ?_, fun hnone => ⟨_, rfl, ?_⟩⟩⟩
  · have hrule : selectFirstRule f (s.queried dt) = (.done, { s.queried dt with selection := some { first := z, zones := [z] } }) :=
      zoneCommand_named (s := s.queried dt) hm hz _
    exact keeping_answers ht hrule
  · cases walk with
    | nil => cases hfirst
    | cons y ys =>
      cases hfirst
      have hwalk : s.map.primaryWalk z Config.walkLimit sel.first = some (sel.first :: ys) :=
        primaryWalk_of_walk hlast (Nat.le_of_lt_succ hlen) (fun n a ha hn => hbefore n a ha (Nat.succ_lt_succ hn))
          fun n a b ha hb => hstep n a b ha hb
      have hrule := selectLastRule_walk (s := s.queried dt) hm hs hz
      rw [show (s.queried dt).map.primaryWalk z Config.walkLimit sel.first = _ from hwalk] at hrule
      obtain ⟨hans, heq⟩ := keeping_answers ht hrule
      exact ⟨_, addZones sel.zones (sel.first :: ys), rfl, hans, fun w => mem_addZones, nodup_addZones, heq⟩
  · have hrule := selectLastRule_walk (s := s.queried dt) hm hs hz
    rw [show (s.queried dt).map.primaryWalk z Config.walkLimit sel.first = none from hnone] at hrule
    exact keeping_turnedAway (i := .selectLast dt f) ht rfl hrule rfl

end Sys2Proof.Machine
end

section
/-! PROOF. The track sensor filter (R77, R78) and the passage machine, transition by transition (Table 4-2). -/

namespace Sys2Proof.Machine

variable {s : State} {dt : Nat} {line : SensorLine} {high : Bool}

theorem rawSensorChange_running (hh : tget s.sensors.high line ≠ high) (hp : s.sensors.phase = .running) :
    rawSensorChange line high s = filterChange line high s := by
  unfold rawSensorChange
  rw [if_neg hh, hp]

/-- With no map in use only the raw level is kept. -/
theorem rawSensorChange_stopped (hh : tget s.sensors.high line ≠ high) (hp : s.sensors.phase ≠ .running) :
    rawSensorChange line high s = { s with sensors := { s.sensors with high := tput s.sensors.high line high } } := by
  unfold rawSensorChange
  rw [if_neg hh]
  cases h : s.sensors.phase with
  | running => exact absurd h hp
  | _ => rfl

/-- The state in which a raw change has started its pending change. -/
def State.changeStarted (s : State) (line : SensorLine) (high : Bool) : State :=
  { s with sensors := { s.sensors with high := tput s.sensors.high line high, changes := s.sensors.changes ++ [(line, s.now)] } }

/-- A raw change away from the filtered level starts a pending change; with F at 0 it is an edge at once. -/
theorem filterChange_starts (hc : s.sensors.change? line = none) (hl : tget s.sensors.covered line = high) :
    filterChange line high s =
      if s.filterTime = 0 then produceEdge line s.now (s.changeStarted line high) else s.changeStarted line high := by
  have hne : tget s.sensors.covered line ≠ !high := by simp [hl]
  unfold filterChange
  simp only [hc]
  exact if_neg hne

/-- A raw change back to the filtered level discards the pending change. -/
theorem filterChange_discards {stamp : Nat} (hc : s.sensors.change? line = some stamp) (ht : s.now < stamp + s.filterTime)
    (hl : tget s.sensors.covered line = !high) :
    filterChange line high s = { s with sensors := { s.sensors with
      high := tput s.sensors.high line high, changes := s.sensors.changes.filter fun p => p.1 ≠ line } } := by
  have hlate : ¬stamp + s.filterTime ≤ s.now := Nat.not_le.mpr ht
  unfold filterChange
  simp only [hc, if_neg hlate]
  exact if_pos hl

theorem takeDueEdge_early {stamp : Nat} (hc : s.sensors.change? line = some stamp) (ht : s.now < stamp + s.filterTime) :
    takeDueEdge line s = s := by
  have h : dueEdge line s = none := by
    unfold dueEdge
    rw [hc]
    split
    · next he =>
      cases he
      exact if_neg fun h => absurd h.1 (Nat.not_le.mpr ht)
    · rfl
  rw [takeDueEdge, h]

/-- A pending change that is alone and has held for F is an edge. -/
theorem takeDueEdge_alone {stamp : Nat} (hp : s.sensors.phase = .running) (hc : s.sensors.changes = [(line, stamp)])
    (ht : stamp + s.filterTime ≤ s.now) : takeDueEdge line s = produceEdge line stamp s := by
  have h : dueEdge line s = some stamp := by
    simp [dueEdge, hp, Sensors.change?, hc, ht]
  rw [takeDueEdge, h]

/-- An edge on a boundary's line takes its passage machine one transition. -/
theorem produceEdge_gate {stamp : Nat} {b : BoundaryIx} {d : BoundaryDesc} {sensor : GateSensor} {x : BoundaryRec}
    (hg : s.map.gateOf line = some (b, d, sensor)) (hb : tget s.bounds b = some x) :
    ∃ r, produceEdge line stamp s = { s with
        sensors := { s.sensors with
          covered := tput s.sensors.covered line !tget s.sensors.covered line,
          changes := s.sensors.changes.filter fun p => p.1 ≠ line },
        bounds := tput s.bounds b (some (x.edge d.rollback sensor (!tget s.sensors.covered line) stamp).1),
        ride := r } ∧
      ((x.edge d.rollback sensor (!tget s.sensors.covered line) stamp).2 = none → r = s.ride) := by
  unfold produceEdge takeEdge
  dsimp only
  rw [hg]
  unfold takeGateEdge
  dsimp only
  rw [hb]
  dsimp only
  cases h : (x.edge d.rollback sensor (!tget s.sensors.covered line) stamp).2 with
  | none => exact ⟨s.ride, rfl, fun _ => rfl⟩
  | some e => exact ⟨_, rfl, fun h => by cases h⟩

theorem edge_first {dir : Direction} {sensor : GateSensor} (rollback : Bool) (stamp start : Nat) (h : sensor = dir.first) :
    Passage.edge (.entering dir start) rollback sensor false stamp = (.clear, some (.retreat dir)) ∧
    Passage.edge (.spanning dir) rollback sensor false stamp = (.leaving dir, none) ∧
    Passage.edge (.leaving dir) rollback sensor true stamp = (.spanning dir, some (.backing dir)) := by
  simp [Passage.edge, h]

theorem edge_second {dir : Direction} {sensor : GateSensor} (rollback : Bool) (stamp start : Nat) (h : sensor ≠ dir.first) :
    Passage.edge (.entering dir start) rollback sensor true stamp = (.spanning dir, some (.noseIn dir (gateInterval start stamp))) ∧
    Passage.edge (.spanning dir) rollback sensor false stamp = (.entering dir stamp, some (.noseBack dir)) ∧
    Passage.edge (.leaving dir) rollback sensor false stamp = (.clear, some (.tailClear dir)) := by
  simp [Passage.edge, h]

/-- Settles O47. -/
theorem sensorFilter : Obligations.SensorFilter := by
  refine ⟨fun s dt line => ⟨fun high hh hp hf hc hl => ?_, fun high hh hp hf hc hl => ?_, fun high stamp hh hp hc ht hl => ?_,
    fun high hh hp => ?_, fun stamp b d sensor x hdue hg hb => ?_, fun stamp ht hc => ?_⟩,
    fun rollback stamp start dir cause sensor rising => ⟨rfl, rfl, rfl, edge_first rollback stamp start, edge_second rollback stamp start, rfl⟩⟩
  · have h := (rawSensorChange_running (s := s.advance dt) hh hp).trans (filterChange_starts (s := s.advance dt) hc hl)
    exact congrArg Host.Outcome.next (h.trans (if_neg hf))
  · have hnone : (s.advance dt).sensors.change? line = none := by simp [Sensors.change?, hc]
    have h := (rawSensorChange_running (s := s.advance dt) hh hp).trans (filterChange_starts (s := s.advance dt) hnone hl)
    have alone : ((s.advance dt).changeStarted line high).sensors.changes = [(line, s.now + dt)] := by
      change s.sensors.changes ++ [(line, s.now + dt)] = _
      rw [hc]
      rfl
    have due := takeDueEdge_alone (s := (s.advance dt).changeStarted line high) hp alone
      (Nat.le_of_eq (congrArg (s.now + dt + ·) hf))
    have same : (s.advance dt).changeStarted line high = State.advance { s with
        now := s.now + dt, sensors := { s.sensors with high := tput s.sensors.high line high, changes := [(line, s.now + dt)] } } 0 := by
      unfold State.changeStarted State.advance
      dsimp only
      rw [hc]
      rfl
    exact congrArg Host.Outcome.next ((h.trans (if_pos hf)).trans (due.symm.trans (congrArg (takeDueEdge line) same)))
  · exact congrArg Host.Outcome.next
      ((rawSensorChange_running (s := s.advance dt) hh hp).trans (filterChange_discards (s := s.advance dt) hc ht hl))
  · exact congrArg Host.Outcome.next (rawSensorChange_stopped (s := s.advance dt) hh hp)
  · obtain ⟨r, hr, hnone⟩ := produceEdge_gate (s := s.advance dt) (stamp := stamp) hg hb
    refine ⟨_, rfl, ?_⟩
    rw [takeDueEdge, hdue.dueEdge]
    dsimp only
    rw [hr]
    exact ⟨rfl, hnone⟩
  · exact congrArg Host.Outcome.next (takeDueEdge_early (s := s.advance dt) hc ht)

end Sys2Proof.Machine
end

section
/-! PROOF. The merge arbiter and diverge routing (R112 to R121), on the operations of the switch controller. -/

namespace Sys2Proof.Machine

variable {c : Ctx} {r : Ride} {w : SwitchIx} {x : SwitchRec} {d : SwitchDesc} {k : SlotIx}

/-! ### One record through a fold over every index -/

/-- A fold over every index leaves of what one index alone changes just that index's own change. -/
theorem overAll_at {σ α : Type} {n : Nat} (f : Fin n → σ → σ) (get : σ → α) (j : Fin n) (g : α → α)
    (own : ∀ r, get (f j r) = g (get r)) (other : ∀ i r, i ≠ j → get (f i r) = get r) (r : σ) : get (overAll f r) = g (get r) := by
  have skip : ∀ (l : List (Fin n)) (a : σ), j ∉ l → get (l.foldl (fun r i => f i r) a) = get a := by
    intro l
    induction l with
    | nil => exact fun a _ => rfl
    | cons i l ih =>
      intro a hj
      rw [List.mem_cons, not_or] at hj
      exact (ih _ hj.2).trans (other i a (Ne.symm hj.1))
  obtain ⟨l1, l2, hl⟩ := List.append_of_mem (List.mem_finRange j)
  have nodup : (l1 ++ j :: l2).Nodup := hl ▸ List.nodup_finRange n
  have h1 : j ∉ l1 := fun h => (List.nodup_append.mp nodup).2.2 j h j (by simp) rfl
  have h2 : j ∉ l2 := (List.nodup_cons.mp (List.nodup_append.mp nodup).2.1).1
  unfold overAll
  rw [hl, List.foldl_append, List.foldl_cons, skip l2 _ h2, own, skip l1 _ h1]

/-! ### Records of the switches -/

theorem putSwitch_same (r : Ride) (w : SwitchIx) (x : SwitchRec) : (r.putSwitch w x).switch? w = some x := tget_tput_same _ _ _

theorem putSwitch_other (r : Ride) (w v : SwitchIx) (x : SwitchRec) (h : v ≠ w) : (r.putSwitch w x).switch? v = r.switch? v :=
  tget_tput_other _ _ _ _ h

theorem zoneClear_iff (r : Ride) (z : ZoneIx) : r.zoneClear z = true ↔ r.claim? z = some .clear := by simp [Ride.zoneClear]

theorem switchZoneClear_iff (hd : c.map.switch w = some d) : switchZoneClear c r w = true ↔ r.claim? d.zone = some .clear := by
  simp only [switchZoneClear, hd, zoneClear_iff]

theorem startedMove_pos (hd : c.map.switch w = some d) (toward : Side) :
    (startedMove c w toward x).pos = .moving toward (c.now + d.timeout * 1000) := by
  simp [startedMove, hd, dueAfter, Config.usPerMs]

@[simp] theorem requestedMove_role (clear : Bool) (toward : Side) (src : MoveSource) :
    (requestedMove c w clear toward src x).role = x.role := by
  unfold requestedMove startedMove
  split <;> (repeat' split) <;> rfl

@[simp] theorem requestedMove_committed (clear : Bool) (toward : Side) (src : MoveSource) :
    (requestedMove c w clear toward src x).committed = x.committed := by
  unfold requestedMove startedMove
  split <;> (repeat' split) <;> rfl

/-- A request for the position at which the switch stands (Table 6-3). -/
theorem requestedMove_there {clear : Bool} {toward : Side} {src : MoveSource} (h : x.pos = .locked toward) :
    requestedMove c w clear toward src x = { x with pending := none } := by
  simp [requestedMove, h]

/-- A request for the other position is carried out where the zone is CLEAR, and kept otherwise. -/
theorem requestedMove_away {clear : Bool} {toward at_ : Side} {src : MoveSource} (h : x.pos = .locked at_) (hne : at_ ≠ toward) :
    requestedMove c w clear toward src x = if clear then startedMove c w toward x else { x with pending := some (toward, src) } := by
  simp [requestedMove, h, hne]

/-- A request joins a move toward its position and waits behind one away from it. -/
theorem requestedMove_moving {clear : Bool} {toward y : Side} {due : Nat} {src : MoveSource} (h : x.pos = .moving y due) :
    requestedMove c w clear toward src x = { x with pending := if y = toward then none else some (toward, src) } := by
  simp only [requestedMove, h]
  split <;> rfl

theorem requestMove_switch (h : r.switch? w = some x) (toward : Side) (src : MoveSource) :
    (requestMove c w toward src r).switch? w = some (requestedMove c w (switchZoneClear c r w) toward src x) := by
  simp only [requestMove, h]
  exact putSwitch_same _ _ _

theorem switchZoneClear_put (v : SwitchIx) (y : SwitchRec) : switchZoneClear c (r.putSwitch v y) w = switchZoneClear c r w := rfl

/-! ### Presentation and withdrawal -/

/-- A chain that ends at a merge is presented as a request on the side its train stands (R114). -/
theorem present_merge {chain : List ZoneIx} {z : ZoneIx} {t : Train} {side : Side} (hz : chain.getLast? = some z)
    (hdiv : c.map.divergeAt z = none) (hmerge : c.map.mergeAt z = some w) (hside : c.map.sideFrom z t.head = some side) :
    present c k t chain r = addRequest w side k r := by
  simp only [present, hz, hdiv, hmerge, hside]

theorem present_beside {chain : List ZoneIx} {z : ZoneIx} {t : Train} (hz : chain.getLast? = some z)
    (hdiv : c.map.divergeAt z = none) (hside : c.map.sideFrom z t.head = none) : present c k t chain r = r := by
  simp only [present, hz, hdiv, hside]
  cases c.map.mergeAt z <;> rfl

/-- A chain that ends at a diverge has a route chosen for it, where its train stands before it (R120). -/
theorem present_diverge {chain : List ZoneIx} {z : ZoneIx} {t : Train} (hz : chain.getLast? = some z) (hdiv : c.map.divergeAt z = some w) :
    present c k t chain r = if c.map.predecessor z .a = some t.head then routeFor c w k t r else r := by
  simp only [present, hz, hdiv]

theorem routeFor_diverge {t : Train} {setting : Option (SlotIx × Side)} {last : Side} (hx : r.switch? w = some x)
    (hd : c.map.switch w = some d) (hr : x.role = .diverge setting last) :
    (routeFor c w k t r).switch? w = some (requestedMove c w (switchZoneClear c r w) (chooseRoute c r w d t last) .routing
      { x with role := .diverge (some (k, chooseRoute c r w d t last)) last }) := by
  simp only [routeFor, hx, hd, hr]
  rw [requestMove_switch (putSwitch_same _ _ _), switchZoneClear_put]

theorem withdrawSwitches_switch (k : SlotIx) (r : Ride) (w : SwitchIx) :
    (withdrawSwitches k r).switch? w = (r.switch? w).map (·.without k) :=
  overAll_at _ (fun r => r.switch? w) w (Option.map (·.without k))
    (fun r => by
      cases h : r.switch? w with
      | none => exact h
      | some x => exact putSwitch_same _ _ _)
    (fun i r hi => by
      cases h : r.switch? i with
      | none => rfl
      | some x => exact putSwitch_other _ _ _ _ (Ne.symm hi)) r

theorem without_merge {reqA reqB : Option SlotIx} {arb : Arbiter} {served : Side} (k : SlotIx) (hr : x.role = .merge reqA reqB arb served) :
    ∃ reqA' reqB' arb', (x.without k).role = .merge reqA' reqB' arb' served ∧ (reqA = some k → reqA' = none) ∧
      (reqA ≠ some k → reqA' = reqA) ∧ (reqB = some k → reqB' = none) ∧ (reqB ≠ some k → reqB' = reqB) ∧
      (∀ side, arb = .granted side k → arb' = .idle) ∧ ((∀ side, arb ≠ .granted side k) → arb' = arb) := by
  refine ⟨_, _, _, congrArg (SwitchRole.without k) hr, fun h => if_pos h, fun h => if_neg h, fun h => if_pos h, fun h => if_neg h, ?_, ?_⟩
  · rintro side rfl
    exact if_pos rfl
  · intro h
    cases arb with
    | granted side u => exact if_neg fun e => h side (by rw [e])
    | _ => rfl

theorem without_diverge {setting : Option (SlotIx × Side)} {last : Side} (k : SlotIx) (hr : x.role = .diverge setting last) :
    ∃ setting', (x.without k).role = .diverge setting' last ∧
      (∀ side, setting = some (k, side) → setting' = none ∧ ∀ y, x.pending = some (y, .routing) → (x.without k).pending = none) ∧
      ((∀ side, setting ≠ some (k, side)) → setting' = setting ∧ (x.without k).pending = x.pending) := by
  refine ⟨_, congrArg (SwitchRole.without k) hr, ?_, ?_⟩
  · rintro side rfl
    refine ⟨by simp, fun y hp => ?_⟩
    simp [SwitchRec.without, hp, hr, SwitchRole.settingFor]
  · intro h
    have other : ∀ u side, setting = some (u, side) → u ≠ k := fun u side e hu => h side (by rw [e, hu])
    constructor
    · cases setting with
      | none => rfl
      | some p => exact if_neg (by simpa using other p.1 p.2 rfl)
    · have hset : x.role.settingFor k = false := by
        rw [hr]
        cases setting with
        | none => rfl
        | some p => simpa [SwitchRole.settingFor] using other p.1 p.2 rfl
      unfold SwitchRec.without
      dsimp only
      rw [hset]
      split <;> simp_all

/-! ### The arbiter -/

variable {reqA reqB : Option SlotIx} {arb : Arbiter} {served : Side}

/-- The side an arbiter picks: the one request's, or of two the one not served last (R115). -/
theorem pickSide_eq {side : Side}
    (h : side = .a ∧ reqA = some k ∧ (reqB = none ∨ served = .b) ∨ side = .b ∧ reqB = some k ∧ (reqA = none ∨ served = .a)) :
    pickSide reqA reqB served = some (side, k) := by
  rcases h with ⟨rfl, rfl, h⟩ | ⟨rfl, rfl, h⟩
  · cases reqB with
    | none => rfl
    | some u => rw [h.resolve_left (by simp)]; rfl
  · cases reqA with
    | none => rfl
    | some u => rw [h.resolve_left (by simp)]; rfl

/-- The pending request that an arbiter's pick leaves: one of its own alone (R118). -/
def arbiterOwn : Option (Side × MoveSource) → Option (Side × MoveSource)
  | some (y, .arbiter) => some (y, .arbiter)
  | _ => none

theorem arbiterOwn_source {p : Option (Side × MoveSource)} {y : Side} {source : MoveSource} (h : arbiterOwn p = some (y, source)) :
    source = .arbiter := by
  unfold arbiterOwn at h
  split at h
  · cases h; rfl
  · cases h

/-- What an IDLE arbiter makes of a switch whose zone is CLEAR, and which is not in FAULT, as it picks a side (R115, R116). -/
theorem arbitrate_picks {side : Side} (hx : r.switch? w = some x) (hd : c.map.switch w = some d) (hr : x.role = .merge reqA reqB .idle served)
    (hclear : r.claim? d.zone = some .clear) (hpos : ∀ cause, x.pos ≠ .fault cause) (hpick : pickSide reqA reqB served = some (side, k)) :
    (arbitrate c w r).switch? w = some (if x.pos = .locked side
      then { x with pending := arbiterOwn x.pending, role := .merge reqA reqB (.granted side k) served }
      else requestedMove c w true side .arbiter
        { x with pending := arbiterOwn x.pending, role := .merge reqA reqB (.aligning side) served }) := by
  obtain ⟨pos, pending, committed, role⟩ := x
  cases hr
  have hz : switchZoneClear c r w = true := (switchZoneClear_iff hd).mpr hclear
  have hf : pos.faulted = false := by
    cases pos with
    | fault cause => exact absurd rfl (hpos cause)
    | _ => rfl
  unfold arbitrate
  simp only [hx, hz, hf, hpick, Bool.not_false, Bool.and_self, if_true]
  change (if pos = .locked side then r.putSwitch w ⟨pos, arbiterOwn pending, committed, .merge reqA reqB (.granted side k) served⟩
    else requestMove c w side .arbiter (r.putSwitch w ⟨pos, arbiterOwn pending, committed, .merge reqA reqB (.aligning side) served⟩)).switch? w = _
  split
  · exact putSwitch_same _ _ _
  · rw [requestMove_switch (putSwitch_same _ _ _), switchZoneClear_put, hz]

theorem arbitrate_rests (hx : r.switch? w = some x) (hd : c.map.switch w = some d) (hr : x.role = .merge reqA reqB arb served)
    (h : arb ≠ .idle ∨ r.claim? d.zone ≠ some .clear ∨ (∃ cause, x.pos = .fault cause) ∨ reqA = none ∧ reqB = none) :
    arbitrate c w r = r := by
  obtain ⟨pos, pending, committed, role⟩ := x
  cases hr
  have hz := switchZoneClear_iff (r := r) hd
  unfold arbitrate
  rw [hx]
  dsimp only
  split
  · next heq =>
    cases heq
    split
    · next hc =>
      rw [Bool.and_eq_true, hz] at hc
      split
      · rfl
      · next hpick =>
        rcases h with h | h | ⟨cause, rfl⟩ | ⟨rfl, rfl⟩
        · exact absurd rfl h
        · exact absurd hc.1 h
        · cases hc.2
        · cases hpick
    · rfl
  · rfl

@[simp] theorem pendingAtLock_role (clear : Bool) (at_ : Side) : (pendingAtLock c w clear at_ x).role = x.role := by
  unfold pendingAtLock startedMove
  split
  · split
    · rfl
    · split <;> rfl
  · rfl

@[simp] theorem pendingAtLock_committed (clear : Bool) (at_ : Side) : (pendingAtLock c w clear at_ x).committed = x.committed := by
  unfold pendingAtLock startedMove
  split
  · split
    · rfl
    · split <;> rfl
  · rfl

theorem lockSwitch_switch (hx : r.switch? w = some x) (at_ : Side) :
    (lockSwitch c w at_ r).switch? w =
      some (pendingAtLock c w (switchZoneClear c r w) at_ { x with pos := .locked at_, role := x.role.atLock at_ }) := by
  simp only [lockSwitch, hx]
  exact putSwitch_same _ _ _

/-- ALIGNING becomes GRANTED as the switch locks at its side, and IDLE where its request is gone (R116). -/
theorem atLock_merge (side : Side) : ∃ arb', (SwitchRole.merge reqA reqB arb served).atLock side = .merge reqA reqB arb' served ∧
    (∀ k, arb = .aligning side → (match side with | .a => reqA | .b => reqB) = some k → arb' = .granted side k) ∧
    (arb = .aligning side → (match side with | .a => reqA | .b => reqB) = none → arb' = .idle) ∧
    (arb ≠ .aligning side → arb' = arb) := by
  refine ⟨arbiterAtLock side reqA reqB arb, rfl, ?_, ?_, ?_⟩
  · rintro k rfl h
    cases side <;> simp_all [arbiterAtLock]
  · rintro rfl h
    cases side <;> simp_all [arbiterAtLock]
  · intro h
    cases arb with
    | aligning s => exact if_neg fun e => h (by rw [e])
    | _ => rfl

theorem report_switches (r : Ride) (cause : Cause) : (r.report cause).switches = r.switches := by
  unfold Ride.report
  split <;> rfl

theorem faultSwitch_switch (hx : r.switch? w = some x) (cause : SwitchFault) : (faultSwitch w cause r).switch? w = some (x.faultedBy cause) := by
  simp only [faultSwitch, hx]
  rw [Ride.switch?, report_switches]
  exact putSwitch_same _ _ _

theorem switchZoneCleared_switch (hx : r.switch? w = some x) :
    ∃ y, (switchZoneCleared c w r).switch? w = some y ∧ y.role = x.role.atClear ∧ y.committed = none := by
  simp only [switchZoneCleared, hx]
  split
  · exact ⟨_, putSwitch_same _ _ _, by rw [pendingAtLock_role], by rw [pendingAtLock_committed]⟩
  · exact ⟨_, putSwitch_same _ _ _, rfl, rfl⟩

theorem onTrain_switches (r : Ride) (k : SlotIx) (f : Train → Train) : (r.onTrain k f).switches = r.switches := by
  unfold Ride.onTrain
  split <;> rfl

theorem reservedAt_switch {z : ZoneIx} (hz : (c.map.zone z).bind (·.switch) = some w) (hx : r.switch? w = some x) :
    (reservedAt c k z r).switch? w = some { x with role := x.role.atReserve k x.pos.lockedAt } := by
  simp only [reservedAt, heldSwitch, hz, hx]
  rw [Ride.switch?, onTrain_switches]
  exact putSwitch_same _ _ _

theorem reservedAt_train {z : ZoneIx} (hz : (c.map.zone z).bind (·.switch) = some w) (hx : r.switch? w = some x) {t : Train}
    (ht : r.train? k = some t) :
    (reservedAt c k z r).train? k = some { t with directive := if t.directive.any (fun p => p.1 = w) then none else t.directive } := by
  have h : (r.putSwitch w { x with role := x.role.atReserve k x.pos.lockedAt }).train? k = some t := ht
  simp only [reservedAt, heldSwitch, hz, hx, Ride.onTrain, h]
  exact putTrain_same _ _ _

/-! ### The route chosen -/

/-- The route of a diverge for a train without a directive there, by its route mode (R120). -/
theorem chooseRoute_byMode {t : Train} {last : Side} (h : ∀ side, t.directive ≠ some (w, side)) :
    chooseRoute c r w d t last = chooseRoute.byMode c r d last := by
  unfold chooseRoute
  split
  · next v side hd =>
    rw [if_neg]
    rintro rfl
    exact h side hd
  · rfl

theorem free_iff (side : Side) : chooseRoute.free c r d side = true ↔
    ∃ y, c.map.successor d.zone side = some y ∧ r.claim? y = some .clear ∧ (r.zone? y).any (fun zr => zr.fault.isNone) = true := by
  unfold chooseRoute.free
  cases c.map.successor d.zone side with
  | none => simp
  | some y =>
    simp only [Option.any_some, Bool.and_eq_true, zoneClear_iff, Option.some.injEq, exists_eq_left', beq_iff_eq]
    refine and_congr_right fun _ => ?_
    cases r.zone? y <;> simp

theorem grantStep_switch (hx : r.switch? w = some x) (hr : x.role = .merge reqA reqB .idle served) (side : Side) :
    (grantStep w side k r).switch? w =
      some { x with pending := arbiterOwn x.pending, role := .merge reqA reqB (.granted side k) served } := by
  obtain ⟨pos, pending, committed, role⟩ := x
  cases hr
  simp only [grantStep, hx]
  exact putSwitch_same _ _ _

/-- What the picks, the locks, the faults and the reservations make of an arbiter (R115 to R119). -/
theorem arbiter_rules (hx : r.switch? w = some x) (hd : c.map.switch w = some d) (hr : x.role = .merge reqA reqB arb served) :
    (∀ side k, arb = .idle → r.claim? d.zone = some .clear → (∀ cause, x.pos ≠ .fault cause) →
      (side = .a ∧ reqA = some k ∧ (reqB = none ∨ served = .b) ∨ side = .b ∧ reqB = some k ∧ (reqA = none ∨ served = .a)) →
      ∃ sy, (arbitrate c w r).switch? w = some sy ∧
        (∀ y source, sy.pending = some (y, source) → source = .arbiter) ∧
        (x.pos = .locked side → sy.pos = x.pos ∧ sy.role = .merge reqA reqB (.granted side k) served) ∧
        (∀ at_, x.pos = .locked at_ → at_ ≠ side → sy.pos = .moving side (c.now + d.timeout * 1000) ∧ sy.pending = none ∧
          sy.role = .merge reqA reqB (.aligning side) served) ∧
        ∀ toward due, x.pos = .moving toward due → sy.pos = x.pos ∧ sy.role = .merge reqA reqB (.aligning side) served ∧
          sy.pending = if toward = side then none else some (side, .arbiter)) := by
  rintro side k rfl hclear hpos hask
  refine ⟨_, arbitrate_picks hx hd hr hclear hpos (pickSide_eq hask), fun y source hp => ?_, fun hl => ?_, fun at_ hl hne => ?_,
    fun toward due hm => ?_⟩
  · split at hp
    · exact arbiterOwn_source hp
    · unfold requestedMove startedMove at hp
      split at hp
      · split at hp
        · cases hp
        · cases hp
      · split at hp
        · cases hp
        · cases hp
          rfl
      · cases hp
        rfl
  · rw [if_pos hl]
    exact ⟨rfl, rfl⟩
  · have hnot : ¬x.pos = .locked side := fun e => hne (by rw [hl] at e; cases e; rfl)
    rw [if_neg hnot, requestedMove_away ?_ hne, if_pos rfl]
    · exact ⟨startedMove_pos hd side, rfl, rfl⟩
    · exact hl
  · have hnot : ¬x.pos = .locked side := fun e => by rw [hm] at e; cases e
    rw [if_neg hnot, requestedMove_moving (y := toward) (due := due)]
    · exact ⟨rfl, rfl, rfl⟩
    · exact hm

/-- Settles O46. -/
theorem arbiterAndRouting : Obligations.ArbiterAndRouting := by
  refine ⟨fun c k t chain r z w x hz hx => ⟨fun reqA reqB arb served hdiv hmerge hr => ⟨fun hs => ?_, fun hs => ?_, present_beside hz hdiv⟩,
      fun d setting last hdiv hd hr => ⟨fun hp => (present_diverge hz hdiv).trans (if_neg hp), fun hp => ?_⟩⟩,
    fun k r w x hx => ⟨x.without k, by rw [withdrawSwitches_switch, hx]; rfl, rfl, rfl, fun _ _ _ _ => without_merge k,
      fun _ _ => without_diverge k⟩,
    fun c w r x d reqA reqB arb served hx hd hr => ⟨arbiter_rules hx hd hr, arbitrate_rests hx hd hr, fun side => ?_, fun cause => ?_,
      fun side k z ha hz => ?_, fun side k ha => ?_, ?_⟩,
    fun c k z r w x setting last side hz hx hr hl hs => ?_, fun c r w d t last free hfree => ⟨fun side hdir => ?_, fun hdir => ?_⟩⟩
  · rw [present_merge hz hdiv hmerge hs]
    simp only [addRequest, hx, hr]
  · rw [present_merge hz hdiv hmerge hs]
    simp only [addRequest, hx, hr]
  · rw [present_diverge hz hdiv, if_pos hp]
    refine ⟨_, routeFor_diverge hx hd hr, requestedMove_role _ _ _, fun hl => ?_, fun at_ hl hne => ⟨fun hc => ?_, fun hc => ?_⟩⟩
    · rw [requestedMove_there]
      · exact ⟨rfl, rfl⟩
      · exact hl
    · rw [requestedMove_away ?_ hne, if_pos ((switchZoneClear_iff hd).mpr hc)]
      · exact ⟨startedMove_pos hd _, rfl⟩
      · exact hl
    · rw [requestedMove_away ?_ hne, if_neg (mt (switchZoneClear_iff hd).mp hc)]
      · exact ⟨rfl, rfl⟩
      · exact hl
  · obtain ⟨arb', ha, granted, idle, other⟩ := atLock_merge (reqA := reqA) (reqB := reqB) (arb := arb) (served := served) side
    refine ⟨_, arb', lockSwitch_switch hx side, ?_, granted, idle, other⟩
    rw [pendingAtLock_role, hr]
    exact ha
  · exact ⟨_, faultSwitch_switch hx cause, by simp [SwitchRec.faultedBy, hr, SwitchRole.atFault]⟩
  · refine ⟨_, _, _, reservedAt_switch hz hx, ?_, rfl, rfl⟩
    rw [hr, ha]
    rfl
  · subst ha
    exact ⟨_, grantStep_switch hx hr side, rfl, rfl⟩
  · obtain ⟨y, hy, hrole, hcom⟩ := switchZoneCleared_switch (c := c) hx
    rw [hr] at hrole
    cases arb with
    | inUse s => exact ⟨y, _, hy, hrole, hcom, fun _ _ => rfl, fun h => absurd rfl (h s)⟩
    | _ => exact ⟨y, _, hy, hrole, hcom, fun _ h => (by cases h), fun _ => rfl⟩
  · refine ⟨_, reservedAt_switch hz hx, ?_, fun t ht => ⟨_, reservedAt_train hz hx ht, fun at_ hdir => ?_, fun hdir => ?_⟩⟩
    · rw [hr, hl]
      cases setting with
      | none => rfl
      | some p => simp [SwitchRole.atReserve, SwitchPos.lockedAt, hs p rfl]
    · simp [hdir]
    · cases h : t.directive with
      | none => simp
      | some p => exact if_neg (by
          have : p.1 ≠ w := fun e => hdir p.2 (by rw [h, ← e])
          simpa using this)
  · simp [chooseRoute, hdir]
  · rw [chooseRoute_byMode hdir]
    have iff : ∀ side, free side ↔ chooseRoute.free c r d side = true := fun side => (hfree side).trans (free_iff side).symm
    simp only [iff]
    refine ⟨fun hk => ?_, fun hk => ?_, fun hk => ?_, fun hk => ?_⟩
    · simp [chooseRoute.byMode, hk]
    · simp [chooseRoute.byMode, hk]
    · simp [chooseRoute.byMode, hk]
    · simp only [chooseRoute.byMode, hk]
      cases chooseRoute.free c r d .a <;> cases chooseRoute.free c r d .b <;> simp

end Sys2Proof.Machine
end

section
/-! PROOF. Which parts of the ride an operation can change, said once for each: a part that its `Parts` leave out stands. -/

namespace Sys2Proof.Machine

/-- Parts of the ride; the reports are the ride stop causes and the notices. -/
structure Parts where
  zones : Bool := false
  presented : Bool := false
  trains : Bool := false
  elements : Bool := false
  channels : Bool := false
  switches : Bool := false
  stations : Bool := false
  reports : Bool := false

/-- Every part of the one is a part of the other. -/
def Parts.le (p q : Parts) : Bool :=
  (!p.zones || q.zones) && (!p.presented || q.presented) && (!p.trains || q.trains) && (!p.elements || q.elements) &&
  (!p.channels || q.channels) && (!p.switches || q.switches) && (!p.stations || q.stations) && (!p.reports || q.reports)

/-- What the station unit changes. -/
def Parts.station : Parts := { stations := true, reports := true }
/-- What a move of a switch changes. -/
def Parts.switch : Parts := { switches := true }
/-- What a switch that can go to FAULT changes. -/
def Parts.switching : Parts := { switches := true, reports := true }
/-- What a change of a zone's claim changes. -/
def Parts.claim : Parts := { zones := true, switches := true, stations := true, reports := true }
/-- What a change of a train's record changes. -/
def Parts.train : Parts := { trains := true, stations := true, reports := true }
/-- What the return of a chain changes. -/
def Parts.chain : Parts := { Parts.claim with trains := true }
/-- What a brake changes. -/
def Parts.brake : Parts := { Parts.chain with elements := true }
/-- What a command to an element changes: everything but the presentations. -/
def Parts.element : Parts := { Parts.brake with channels := true }
/-- Everything. -/
def Parts.all : Parts := { Parts.element with presented := true }

/-- Ride `b` differs from `a` in the parts `p` alone. -/
structure Ride.Within (p : Parts) (a b : Ride) : Prop where
  zones : p.zones = false → b.zones = a.zones
  presented : p.presented = false → b.presented = a.presented
  trains : p.trains = false → b.trains = a.trains
  elements : p.elements = false → b.elements = a.elements
  channels : p.channels = false → b.channels = a.channels
  switches : p.switches = false → b.switches = a.switches
  stations : p.stations = false → b.stations = a.stations
  causes : p.reports = false → b.causes = a.causes
  notices : p.reports = false → b.notices = a.notices

variable {p q : Parts} {a b d r : Ride} {c : Ctx}

namespace Ride.Within

theorem refl (a : Ride) : Ride.Within p a a :=
  ⟨fun _ => rfl, fun _ => rfl, fun _ => rfl, fun _ => rfl, fun _ => rfl, fun _ => rfl, fun _ => rfl, fun _ => rfl, fun _ => rfl⟩

theorem trans (h : Ride.Within p a b) (k : Ride.Within p b d) : Ride.Within p a d :=
  ⟨fun e => (k.zones e).trans (h.zones e), fun e => (k.presented e).trans (h.presented e), fun e => (k.trains e).trans (h.trains e),
    fun e => (k.elements e).trans (h.elements e), fun e => (k.channels e).trans (h.channels e),
    fun e => (k.switches e).trans (h.switches e), fun e => (k.stations e).trans (h.stations e),
    fun e => (k.causes e).trans (h.causes e), fun e => (k.notices e).trans (h.notices e)⟩

theorem mono (h : Ride.Within p a b) (le : p.le q = true) : Ride.Within q a b := by
  have out : ∀ {x y : Bool}, (!x || y) = true → y = false → x = false := by
    intro x y h e
    subst e
    simpa using h
  simp only [Parts.le, Bool.and_eq_true] at le
  obtain ⟨⟨⟨⟨⟨⟨⟨h1, h2⟩, h3⟩, h4⟩, h5⟩, h6⟩, h7⟩, h8⟩ := le
  exact ⟨fun e => h.zones (out h1 e), fun e => h.presented (out h2 e), fun e => h.trains (out h3 e), fun e => h.elements (out h4 e),
    fun e => h.channels (out h5 e), fun e => h.switches (out h6 e), fun e => h.stations (out h7 e), fun e => h.causes (out h8 e),
    fun e => h.notices (out h8 e)⟩

theorem overAll {n : Nat} {f : Fin n → Ride → Ride} (h : ∀ i r, Ride.Within p r (f i r)) (r : Ride) :
    Ride.Within p r (overAll f r) :=
  overAll_induct (fun r' => Ride.Within p r r') f (fun i r' k => k.trans (h i r')) r (.refl r)

theorem foldl {α : Type} {f : Ride → α → Ride} (h : ∀ r x, Ride.Within p r (f r x)) (l : List α) (r : Ride) :
    Ride.Within p r (l.foldl f r) :=
  foldl_induct (fun r' => Ride.Within p r r') f (fun r' x k => k.trans (h r' x)) l r (.refl r)

theorem zone? (h : Ride.Within p a b) (e : p.zones = false) (z : ZoneIx) : b.zone? z = a.zone? z := congrArg (tget · z) (h.zones e)
theorem claim? (h : Ride.Within p a b) (e : p.zones = false) (z : ZoneIx) : b.claim? z = a.claim? z := by
  rw [Ride.claim?, h.zone? e]; rfl
theorem occupant? (h : Ride.Within p a b) (e : p.zones = false) (z : ZoneIx) : b.occupant? z = a.occupant? z := by
  rw [Ride.occupant?, h.claim? e]; rfl
theorem presented? (h : Ride.Within p a b) (e : p.presented = false) (t : SlotIx) : b.presented? t = a.presented? t :=
  congrArg (tget · t) (h.presented e)
theorem train? (h : Ride.Within p a b) (e : p.trains = false) (t : SlotIx) : b.train? t = a.train? t := congrArg (tget · t) (h.trains e)
theorem element? (h : Ride.Within p a b) (e : p.elements = false) (z : ZoneIx) : b.element? z = a.element? z :=
  congrArg (tget · z) (h.elements e)
theorem channel? (h : Ride.Within p a b) (e : p.channels = false) (i : ChannelIx) : b.channel? i = a.channel? i :=
  congrArg (tget · i) (h.channels e)
theorem switch? (h : Ride.Within p a b) (e : p.switches = false) (w : SwitchIx) : b.switch? w = a.switch? w :=
  congrArg (tget · w) (h.switches e)
theorem station? (h : Ride.Within p a b) (e : p.stations = false) (st : StationIx) : b.station? st = a.station? st :=
  congrArg (tget · st) (h.stations e)
theorem latched (h : Ride.Within p a b) (e : p.reports = false) : b.latched = a.latched := by rw [Ride.latched, h.causes e]; rfl

end Ride.Within

/-! ### Reports and single records -/

theorem raise_within (n : Notice) : Ride.Within { reports := true } r (r.raise n) :=
  ⟨fun _ => rfl, fun _ => rfl, fun _ => rfl, fun _ => rfl, fun _ => rfl, fun _ => rfl, fun _ => rfl, fun e => Bool.noConfusion e, fun e => Bool.noConfusion e⟩

theorem report_within (cause : Cause) : Ride.Within { reports := true } r (r.report cause) := by
  unfold Ride.report
  split
  · exact .refl r
  · exact ⟨fun _ => rfl, fun _ => rfl, fun _ => rfl, fun _ => rfl, fun _ => rfl, fun _ => rfl, fun _ => rfl, fun e => Bool.noConfusion e, fun e => Bool.noConfusion e⟩

theorem putZone_within (z : ZoneIx) (x : ZoneRec) : Ride.Within { zones := true } r (r.putZone z x) :=
  ⟨fun e => Bool.noConfusion e, fun _ => rfl, fun _ => rfl, fun _ => rfl, fun _ => rfl, fun _ => rfl, fun _ => rfl, fun _ => rfl, fun _ => rfl⟩

theorem putTrain_within (t : SlotIx) (x : Train) : Ride.Within { trains := true } r (r.putTrain t x) :=
  ⟨fun _ => rfl, fun _ => rfl, fun e => Bool.noConfusion e, fun _ => rfl, fun _ => rfl, fun _ => rfl, fun _ => rfl, fun _ => rfl, fun _ => rfl⟩

theorem putElement_within (z : ZoneIx) (x : Element) : Ride.Within { elements := true } r (r.putElement z x) :=
  ⟨fun _ => rfl, fun _ => rfl, fun _ => rfl, fun e => Bool.noConfusion e, fun _ => rfl, fun _ => rfl, fun _ => rfl, fun _ => rfl, fun _ => rfl⟩

theorem putChannel_within (i : ChannelIx) (x : Channel) : Ride.Within { channels := true } r (r.putChannel i x) :=
  ⟨fun _ => rfl, fun _ => rfl, fun _ => rfl, fun _ => rfl, fun e => Bool.noConfusion e, fun _ => rfl, fun _ => rfl, fun _ => rfl, fun _ => rfl⟩

theorem putSwitch_within (w : SwitchIx) (x : SwitchRec) : Ride.Within .switch r (r.putSwitch w x) :=
  ⟨fun _ => rfl, fun _ => rfl, fun _ => rfl, fun _ => rfl, fun _ => rfl, fun e => Bool.noConfusion e, fun _ => rfl, fun _ => rfl, fun _ => rfl⟩

theorem putStation_within (st : StationIx) (x : StationRec) : Ride.Within { stations := true } r (r.putStation st x) :=
  ⟨fun _ => rfl, fun _ => rfl, fun _ => rfl, fun _ => rfl, fun _ => rfl, fun _ => rfl, fun e => Bool.noConfusion e, fun _ => rfl, fun _ => rfl⟩

theorem putPresented_within (t : SlotIx) (x : Option (List ZoneIx)) : Ride.Within { presented := true } r (r.putPresented t x) :=
  ⟨fun _ => rfl, fun e => Bool.noConfusion e, fun _ => rfl, fun _ => rfl, fun _ => rfl, fun _ => rfl, fun _ => rfl, fun _ => rfl, fun _ => rfl⟩

theorem freeSlot_within (t : SlotIx) : Ride.Within { trains := true } r (r.freeSlot t) :=
  ⟨fun _ => rfl, fun _ => rfl, fun e => Bool.noConfusion e, fun _ => rfl, fun _ => rfl, fun _ => rfl, fun _ => rfl, fun _ => rfl, fun _ => rfl⟩

theorem onTrain_within (t : SlotIx) (f : Train → Train) : Ride.Within { trains := true } r (r.onTrain t f) := by
  unfold Ride.onTrain
  split
  · exact putTrain_within t _
  · exact .refl r

/-! ### Stations -/

theorem stationEvent_within (st : StationIx) (e : StationEvent) : Ride.Within .station r (stationEvent c st e r) := by
  unfold stationEvent
  split
  · exact .refl r
  · next x _ =>
    have h1 : Ride.Within .station r (r.putStation st { x with state := x.state.next (c.stationProofs st) e }) :=
      (putStation_within st _).mono rfl
    dsimp only
    split <;> split
    · exact (h1.trans ((raise_within _).mono rfl)).trans ((report_within _).mono rfl)
    · exact h1.trans ((report_within _).mono rfl)
    · exact h1.trans ((raise_within _).mono rfl)
    · exact h1

theorem zoneStationEvent_within (z : ZoneIx) (e : StationEvent) : Ride.Within .station r (zoneStationEvent c z e r) := by
  unfold zoneStationEvent
  split
  · exact stationEvent_within _ e
  · exact .refl r

theorem occupantStationEvent_within (t : SlotIx) (z : ZoneIx) (e : StationEvent) :
    Ride.Within .station r (occupantStationEvent c t z e r) := by
  unfold occupantStationEvent
  split
  · exact zoneStationEvent_within z e
  · exact .refl r

theorem pairingChange_within (st : StationIx) (side : Side) (on : Bool) : Ride.Within .station r (pairingChange c st side on r) := by
  have demand : ∀ d (r : Ride), Ride.Within .station r (formDemand c st d r) := fun d r => by
    unfold formDemand
    split
    · exact stationEvent_within st _
    · exact .refl r
  have notice : ∀ (late : Bool) (r : Ride), Ride.Within .station r (if late = true then r.raise .latePair else r) := fun late r => by
    split
    · exact (raise_within _).mono rfl
    · exact .refl r
  have formed : ∀ (pair : Bool) d (r : Ride), Ride.Within .station r (if pair = true then formDemand c st d r else r) := fun pair d r => by
    split
    · exact demand d r
    · exact .refl r
  unfold pairingChange
  split
  · dsimp only
    split
    · exact .refl r
    · exact (((putStation_within st _).mono rfl).trans (notice _ _)).trans (formed _ _ _)
  · exact .refl r

/-! ### Switches -/

theorem requestMove_within (w : SwitchIx) (side : Side) (src : MoveSource) : Ride.Within .switch r (requestMove c w side src r) := by
  unfold requestMove
  split
  · exact putSwitch_within w _
  · exact .refl r

theorem lockSwitch_within (w : SwitchIx) (side : Side) : Ride.Within .switch r (lockSwitch c w side r) := by
  unfold lockSwitch
  split
  · exact putSwitch_within w _
  · exact .refl r

theorem faultSwitch_within (w : SwitchIx) (cause : SwitchFault) : Ride.Within .switching r (faultSwitch w cause r) := by
  unfold faultSwitch
  split
  · exact (((putSwitch_within w _).mono rfl).trans ((raise_within _).mono rfl)).trans ((report_within _).mono rfl)
  · exact .refl r

theorem switchProofChange_within (w : SwitchIx) (x y : Bool) : Ride.Within .switching r (switchProofChange c w x y r) := by
  unfold switchProofChange
  split
  · exact .refl r
  · dsimp only
    split
    · exact .refl r
    · split
      · exact faultSwitch_within w _
      · split <;> (split <;> first | exact ((lockSwitch_within w _).mono rfl) | exact .refl r)
    · split
      · exact faultSwitch_within w _
      · split
        · exact faultSwitch_within w _
        · exact .refl r

theorem switchZoneTaken_within (w : SwitchIx) : Ride.Within .switching r (switchZoneTaken w r) := by
  unfold switchZoneTaken
  split
  · exact .refl r
  · split
    · exact (putSwitch_within w _).mono rfl
    · exact faultSwitch_within w _
    · exact .refl r

theorem switchZoneCleared_within (w : SwitchIx) : Ride.Within .switch r (switchZoneCleared c w r) := by
  unfold switchZoneCleared
  split
  · exact .refl r
  · dsimp only
    split <;> exact putSwitch_within w _

theorem claimToSwitch_within (z : ZoneIx) (old new : Claim) : Ride.Within .switching r (claimToSwitch c z old new r) := by
  unfold claimToSwitch
  split
  · exact .refl r
  · split
    · exact switchZoneTaken_within _
    · split
      · exact (switchZoneCleared_within _).mono rfl
      · exact .refl r

theorem claimToStation_within (z : ZoneIx) (old new : Claim) : Ride.Within .station r (claimToStation c z old new r) := by
  unfold claimToStation
  split
  · exact zoneStationEvent_within z _
  · exact zoneStationEvent_within z _
  · exact .refl r

theorem withdrawSwitches_within (t : SlotIx) : Ride.Within .switch r (withdrawSwitches t r) :=
  .overAll (fun w r => by
    split
    · exact putSwitch_within w _
    · exact .refl r) r

theorem present_within (t : SlotIx) (x : Train) (chain : List ZoneIx) : Ride.Within .switch r (present c t x chain r) := by
  have route : ∀ w, Ride.Within .switch r (routeFor c w t x r) := fun w => by
    unfold routeFor
    split
    · split
      · exact (putSwitch_within w _).trans (requestMove_within w _ _)
      · exact .refl r
    · exact .refl r
  have request : ∀ w side, Ride.Within .switch r (addRequest w side t r) := fun w side => by
    unfold addRequest
    split
    · split
      · exact putSwitch_within w _
      · exact putSwitch_within w _
      · exact .refl r
    · exact .refl r
  unfold present
  split
  · exact .refl r
  · split
    · split
      · exact route _
      · exact .refl r
    · split
      · exact request _ _
      · exact .refl r
    · exact .refl r

theorem arbitrate_within (w : SwitchIx) : Ride.Within .switch r (arbitrate c w r) := by
  unfold arbitrate
  split
  · split
    · split
      · exact .refl r
      · dsimp only
        split
        · exact putSwitch_within w _
        · exact (putSwitch_within w _).trans (requestMove_within w _ _)
    · exact .refl r
  · exact .refl r

theorem grantStep_within (w : SwitchIx) (side : Side) (t : SlotIx) : Ride.Within .switch r (grantStep w side t r) := by
  unfold grantStep
  split
  · exact putSwitch_within w _
  · exact .refl r

theorem grantChain_within (t : SlotIx) (before : ZoneIx) (chain : List ZoneIx) : Ride.Within .switch r (grantChain c t before chain r) := by
  induction chain generalizing before r with
  | nil => exact .refl r
  | cons z zs ih =>
    unfold grantChain
    split
    · exact (grantStep_within _ _ t).trans (ih z)
    · exact ih z

theorem reservedAt_within (t : SlotIx) (z : ZoneIx) : Ride.Within { switches := true, trains := true } r (reservedAt c t z r) := by
  unfold reservedAt
  split
  · exact .refl r
  · split
    · exact .refl r
    · exact ((putSwitch_within _ _).mono rfl).trans ((onTrain_within t _).mono rfl)

/-! ### Claims and trains -/

theorem setClaim_within (z : ZoneIx) (new : Claim) : Ride.Within .claim r (setClaim c z new r) := by
  unfold setClaim
  split
  · exact .refl r
  · exact (((putZone_within z _).mono rfl).trans ((claimToSwitch_within z _ _).mono rfl)).trans ((claimToStation_within z _ _).mono rfl)

theorem setClaimOf_within (t : SlotIx) (z : ZoneIx) (new : Claim) : Ride.Within .claim r (setClaimOf c t z new r) := by
  unfold setClaimOf
  split
  · exact setClaim_within z new
  · exact .refl r

/-- What follows the replacement of a train's record reaches the stations alone. -/
theorem changeTrain_after (t : SlotIx) (x y : Train) : Ride.Within .station (r.putTrain t y) (changeTrain c t x y r) := by
  have tell : ∀ (p : Prop) [Decidable p] (a : Ride) z e, Ride.Within .station a (if p then occupantStationEvent c t z e a else a) := by
    intro p _ a z e
    split
    · exact occupantStationEvent_within t z e
    · exact .refl a
  unfold changeTrain
  exact ((tell _ _ _ _).trans (tell _ _ _ _)).trans (tell _ _ _ _)

theorem changeTrain_within (t : SlotIx) (x y : Train) : Ride.Within .train r (changeTrain c t x y r) :=
  ((putTrain_within t y).mono rfl).trans ((changeTrain_after t x y).mono rfl)

theorem returnChain_within (t : SlotIx) : Ride.Within .chain r (returnChain c t r) := by
  unfold returnChain
  split
  · exact .refl r
  · refine ((putTrain_within t _).mono rfl).trans (.foldl (fun r z => ?_) _ _)
    split
    · exact (setClaim_within z _).mono rfl
    · exact .refl r

theorem provenOpen_within (z : ZoneIx) : Ride.Within .train r (provenOpen c z r) := by
  unfold provenOpen
  split
  · exact .refl r
  · split
    · exact .refl r
    · split
      · exact changeTrain_within _ _ _
      · exact .refl r

theorem provenClosed_within (z : ZoneIx) : Ride.Within .chain r (provenClosed c z r) := by
  unfold provenClosed
  split
  · exact .refl r
  · split
    · exact .refl r
    · split
      · exact (returnChain_within _).trans ((zoneStationEvent_within z _).mono rfl)
      · exact .refl r

/-! ### Elements -/

theorem brakeBecomes_within (z : ZoneIx) (st : BrakeState) (cmd : ElementCommand) : Ride.Within .brake r (brakeBecomes c z st cmd r) := by
  have h1 : Ride.Within .brake r (r.putElement z (.brake st cmd)) := (putElement_within z _).mono rfl
  unfold brakeBecomes
  dsimp only
  split
  · exact h1.trans ((provenOpen_within z).mono rfl)
  · exact h1.trans ((provenClosed_within z).mono rfl)
  · exact (h1.trans ((raise_within _).mono rfl)).trans ((report_within _).mono rfl)
  · exact h1

theorem brakeCommand_within (z : ZoneIx) (cmd : ElementCommand) (st : BrakeState) : Ride.Within .brake r (brakeCommand c z cmd st r) := by
  unfold brakeCommand
  split
  · exact (putElement_within z _).mono rfl
  all_goals exact brakeBecomes_within z _ cmd

theorem brakeProofChange_within (z : ZoneIx) : Ride.Within .brake r (brakeProofChange c z r) := by
  unfold brakeProofChange
  split
  · dsimp only
    split
    · exact .refl r
    · exact brakeBecomes_within z _ _
  · exact .refl r

theorem proofExpiry_within (z : ZoneIx) : Ride.Within .brake r (proofExpiry c z r) := by
  unfold proofExpiry
  split
  · exact brakeBecomes_within z _ _
  · exact brakeBecomes_within z _ _
  · exact .refl r

theorem driveArrives_within (z : ZoneIx) (cmd : ElementCommand) : Ride.Within .brake r (driveArrives c z cmd r) := by
  unfold driveArrives
  split
  · exact ((putElement_within z _).mono rfl).trans ((provenClosed_within z).mono rfl)
  · exact ((putElement_within z _).mono rfl).trans ((provenOpen_within z).mono rfl)

theorem driveInFlight_within (z : ZoneIx) (cmd : ElementCommand) : Ride.Within { elements := true } r (driveInFlight z cmd r) :=
  putElement_within z _

theorem driveCommand_within (z : ZoneIx) (cmd : ElementCommand) : Ride.Within .element r (driveCommand c z cmd r) := by
  unfold driveCommand
  split
  · exact .refl r
  · split
    · next i _ _ _ ch d _ _ =>
      generalize (if stopsAtOnce r d cmd then (ch.restingAt 0, true) else ch.aimed (cmd.codeOn d) (dueAfter c.now d.interval)) = aim
      have h1 : Ride.Within .element r (r.putChannel i aim.1) := (putChannel_within i _).mono rfl
      dsimp only
      split
      · exact h1.trans ((driveArrives_within z cmd).mono rfl)
      · exact h1.trans ((driveInFlight_within z cmd).mono rfl)
    · exact .refl r

theorem channelArrival_within (zone : Option ZoneIx) (d : DriveDesc) (code : Nat) : Ride.Within .brake r (channelArrival c zone d code r) := by
  unfold channelArrival
  split
  · exact .refl r
  · split
    · split
      · exact driveArrives_within _ _
      · exact .refl r
    · exact .refl r

theorem channelStop_within (i : ChannelIx) : Ride.Within .element r (channelStop c i r) := by
  unfold channelStop
  split
  · next ch d _ _ =>
    generalize (if d.profile = .immediate then (ch.restingAt 0, true) else ch.aimed 0 (dueAfter c.now d.interval)) = aim
    have h1 : Ride.Within .element r (r.putChannel i aim.1) := (putChannel_within i _).mono rfl
    dsimp only
    split
    · exact h1
    · split
      · split
        · exact h1.trans ((driveArrives_within _ _).mono rfl)
        · exact h1.trans ((putElement_within _ _).mono rfl)
      · exact h1
  · exact .refl r

theorem commandElement_within (z : ZoneIx) (cmd : ElementCommand) : Ride.Within .element r (commandElement c z cmd r) := by
  unfold commandElement
  split
  · exact (brakeCommand_within z cmd _).mono rfl
  · exact driveCommand_within z cmd
  · exact .refl r

theorem closeUnderTrain_within (z : ZoneIx) : Ride.Within .train r (closeUnderTrain c z r) := by
  unfold closeUnderTrain
  split
  · exact .refl r
  · split
    · exact .refl r
    · split
      · exact changeTrain_within _ _ _
      · exact .refl r

theorem closeElement_within (z : ZoneIx) : Ride.Within .element r (closeElement c z r) := by
  unfold closeElement
  split
  · exact .refl r
  · exact ((closeUnderTrain_within z).mono rfl).trans (commandElement_within z _)

theorem openElement_within (z : ZoneIx) (creep : Bool) : Ride.Within .element r (openElement c z creep r) := by
  unfold openElement
  split
  · exact .refl r
  · exact ((zoneStationEvent_within z _).mono rfl).trans (commandElement_within z _)

theorem closeWhere_within (p : ZoneIx → Bool) : Ride.Within .element r (closeWhere c p r) :=
  .overAll (fun z r => by
    split
    · exact closeElement_within z
    · exact .refl r) r

theorem stopRide_within : Ride.Within .element r (r.stopRide c) :=
  ((Ride.Within.overAll (fun z _ => closeElement_within z) r).trans (.overAll (fun i _ => channelStop_within i) _)).trans
    (.overAll (fun st _ => ((stationEvent_within st _).mono rfl)) _)

end Sys2Proof.Machine
end

section
/-! PROOF. What the operations that move no train can make of its record (R34, R60, R61, R33): the chain returned, a running train
stopping, one at rest released, and a chain reserved. -/

namespace Sys2Proof.Machine

/-- One such change of a record. `p` allows a release, and a chain that meets `P` may be reserved. -/
inductive Train.Nudged (c : Ctx) (p : Bool) (P : List ZoneIx → Prop) (x : Train) : Train → Prop
  | returned (rest : x.phase = .held) : Nudged c p P x { x with chain := [] }
  | stopped (running : x.phase = .running) :
      Nudged c p P x { x with phase := .stopping, deadline := some (deadlineFrom .stop c.now (c.stopAllowance x.head)) }
  | released (may : p = true) (rest : x.phase = .held ∨ x.phase = .stopping) :
      Nudged c p P x { x with
        phase := .running, dir := .forward, deadline := some (deadlineFrom .journey c.now (c.releaseAllowance x.head)) }
  | reserved (chain : List ZoneIx) (named : P chain) (empty : x.chain = []) : Nudged c p P x { x with chain := chain }
  | directed (may : ∃ chain, P chain) (d : Option (SwitchIx × Side)) : Nudged c p P x { x with directive := d }

/-- A sequence of such changes. -/
def Train.Led (c : Ctx) (p : Bool) (P : List ZoneIx → Prop) : Train → Train → Prop := Relation.ReflTransGen (Train.Nudged c p P)

/-- Every record has gone through such changes; none has come or gone. -/
def Ride.Carries (c : Ctx) (p : Bool) (P : List ZoneIx → Prop) (a b : Ride) : Prop :=
  ∀ t, (a.train? t = none → b.train? t = none) ∧ ∀ x, a.train? t = some x → ∃ y, b.train? t = some y ∧ Train.Led c p P x y

/-- No chain may be reserved. -/
abbrev noChain : List ZoneIx → Prop := fun _ => False

variable {c : Ctx} {p : Bool} {P : List ZoneIx → Prop} {a b d r : Ride} {t : SlotIx} {x y : Train}

namespace Ride.Carries

theorem refl (a : Ride) : Ride.Carries c p P a a := fun _ => ⟨fun h => h, fun x h => ⟨x, h, .refl⟩⟩

theorem trans (h : Ride.Carries c p P a b) (k : Ride.Carries c p P b d) : Ride.Carries c p P a d := fun t => by
  refine ⟨fun e => (k t).1 ((h t).1 e), fun x e => ?_⟩
  obtain ⟨y, hy, hxy⟩ := (h t).2 x e
  obtain ⟨z, hz, hyz⟩ := (k t).2 y hy
  exact ⟨z, hz, hxy.trans hyz⟩

theorem of_within {q : Parts} (h : Ride.Within q a b) (e : q.trains = false) : Ride.Carries c p P a b := fun t => by
  rw [h.train? e]
  exact refl a t

theorem foldl {α : Type} {f : Ride → α → Ride} (h : ∀ r x, Ride.Carries c p P r (f r x)) (l : List α) (r : Ride) :
    Ride.Carries c p P r (l.foldl f r) :=
  foldl_induct (fun r' => Ride.Carries c p P r r') f (fun r' x k => k.trans (h r' x)) l r (.refl r)

theorem putTrain (h : r.train? t = some x) (how : Train.Nudged c p P x y) : Ride.Carries c p P r (r.putTrain t y) := fun u => by
  by_cases e : u = t
  · subst e
    rw [h, putTrain_same]
    refine ⟨fun k => (by cases k), fun z hz => ?_⟩
    cases hz
    exact ⟨y, rfl, .single how⟩
  · rw [putTrain_other _ _ _ _ e]
    exact refl r u

end Ride.Carries

theorem returnChain_carries (h : r.train? t = some x) (rest : x.phase = .held) : Ride.Carries c p P r (returnChain c t r) := by
  simp only [returnChain, h]
  refine (Ride.Carries.putTrain h (.returned rest)).trans (.foldl (fun r z => ?_) _ _)
  split
  · exact .of_within (setClaim_within z _) rfl
  · exact .refl r

theorem reservedAt_carries (z : ZoneIx) (may : ∃ chain, P chain) : Ride.Carries c p P r (reservedAt c t z r) := by
  unfold reservedAt
  split
  · exact .refl r
  · split
    · exact .refl r
    · next w _ _ x _ =>
      refine Ride.Carries.trans (b := r.putSwitch w { x with role := x.role.atReserve t x.pos.lockedAt })
        (.of_within (putSwitch_within _ _) rfl) ?_
      unfold Ride.onTrain
      split
      · next y hy => exact .putTrain hy (.directed may _)
      · exact .refl _

/-- A chain reserved, but for the presentation and the element (R33): the record, the claims, and what the switches are told. -/
def chainReserved (c : Ctx) (t : SlotIx) (x : Train) (chain : List ZoneIx) (r : Ride) : Ride :=
  chain.foldl (fun r z => reservedAt c t z r) (chain.foldl (fun r z => setClaim c z (.reserved t) r) (r.putTrain t { x with chain := chain }))

theorem reserveChain_eq (hx : r.train? t = some x) (chain : List ZoneIx) (creep : Bool) :
    reserveChain c t chain creep r = openElement c x.head creep ((chainReserved c t x chain r).putPresented t none) := by
  simp only [reserveChain, hx]
  rfl

theorem chainReserved_carries {chain : List ZoneIx} (hx : r.train? t = some x) (named : P chain) (empty : x.chain = []) :
    Ride.Carries c p P r (chainReserved c t x chain r) :=
  ((Ride.Carries.putTrain hx (.reserved chain named empty)).trans
    (.foldl (fun _ z => .of_within (setClaim_within z _) rfl) _ _)).trans (.foldl (fun _ z => reservedAt_carries z ⟨chain, named⟩) _ _)

/-- One step of what the operations that move no train do: parts of the ride beside zones and trains change; a train is stopped,
released or redirected; the chain of a train at rest is returned; or a chain of clear zones is reserved. -/
inductive Ride.Nudge (c : Ctx) (p : Bool) (P : List ZoneIx → Prop) (r : Ride) : Ride → Prop
  | within {q : Parts} {b : Ride} (h : Ride.Within q r b) (zones : q.zones = false) (trains : q.trains = false) : Nudge c p P r b
  | train (t : SlotIx) (x y : Train) (hx : r.train? t = some x) (how : Train.Nudged c p P x y) (chain : y.chain = x.chain) :
      Nudge c p P r (r.putTrain t y)
  | returned (t : SlotIx) (x : Train) (hx : r.train? t = some x) (rest : x.phase = .held) : Nudge c p P r (returnChain c t r)
  | reserved (t : SlotIx) (x : Train) (chain : List ZoneIx) (hx : r.train? t = some x) (named : P chain) (empty : x.chain = [])
      (free : ∀ z ∈ chain, r.claim? z = some .clear) : Nudge c p P r (chainReserved c t x chain r)

/-- A sequence of such steps. -/
def Ride.Led (c : Ctx) (p : Bool) (P : List ZoneIx → Prop) : Ride → Ride → Prop := Relation.ReflTransGen (Ride.Nudge c p P)

theorem Ride.Nudge.carries (h : Ride.Nudge c p P a b) : Ride.Carries c p P a b := by
  cases h with
  | within h _ trains => exact .of_within h trains
  | train t x y hx how _ => exact .putTrain hx how
  | returned t x hx rest => exact returnChain_carries hx rest
  | reserved t x chain hx named empty _ => exact chainReserved_carries hx named empty

namespace Ride.Led

theorem refl (a : Ride) : Ride.Led c p P a a := Relation.ReflTransGen.refl

theorem trans (h : Ride.Led c p P a b) (k : Ride.Led c p P b d) : Ride.Led c p P a d := Relation.ReflTransGen.trans h k

theorem of_within {q : Parts} (h : Ride.Within q a b) (zones : q.zones = false) (trains : q.trains = false) :
    Ride.Led c p P a b := .single (.within h zones trains)

theorem overAll {n : Nat} {f : Fin n → Ride → Ride} (h : ∀ i r, Ride.Led c p P r (f i r)) (r : Ride) : Ride.Led c p P r (overAll f r) :=
  overAll_induct (fun r' => Ride.Led c p P r r') f (fun i r' k => k.trans (h i r')) r (.refl r)

/-- What every step keeps, a sequence keeps. -/
theorem induct (Q : Ride → Prop) (step : ∀ a b, Ride.Nudge c p P a b → Q a → Q b) (h : Ride.Led c p P a b) (ha : Q a) : Q b := by
  induction h with
  | refl => exact ha
  | tail _ k ih => exact step _ _ k ih

theorem carries (h : Ride.Led c p P a b) : Ride.Carries c p P a b :=
  h.induct (fun r => Ride.Carries c p P a r) (fun _ _ k e => e.trans k.carries) (.refl a)

end Ride.Led

theorem changeTrain_led (h : r.train? t = some x) (how : Train.Nudged c p P x y) (chain : y.chain = x.chain) :
    Ride.Led c p P r (changeTrain c t x y r) :=
  Ride.Led.trans (.single (.train t x y h how chain)) (.of_within (changeTrain_after t x y) rfl rfl)

theorem returnChain_led (h : r.train? t = some x) (rest : x.phase = .held) : Ride.Led c p P r (returnChain c t r) :=
  .single (.returned t x h rest)

theorem provenOpen_led (z : ZoneIx) (may : p = true) : Ride.Led c p P r (provenOpen c z r) := by
  unfold provenOpen
  split
  · exact .refl r
  · split
    · exact .refl r
    · next x hx =>
      split
      · next hp =>
        obtain ⟨rest, rfl⟩ := hp
        exact changeTrain_led hx (.released may rest) rfl
      · exact .refl r

theorem provenClosed_led (z : ZoneIx) : Ride.Led c p P r (provenClosed c z r) := by
  unfold provenClosed
  split
  · exact .refl r
  · split
    · exact .refl r
    · next x hx =>
      split
      · next hp => exact (returnChain_led hx hp.1).trans (.of_within (zoneStationEvent_within z _) rfl rfl)
      · exact .refl r

/-! ### Elements -/

theorem brakeBecomes_led (z : ZoneIx) (st : BrakeState) (cmd : ElementCommand) (may : st = .opened → p = true) :
    Ride.Led c p P r (brakeBecomes c z st cmd r) := by
  have h1 : Ride.Led c p P r (r.putElement z (.brake st cmd)) := .of_within (putElement_within z _) rfl rfl
  unfold brakeBecomes
  dsimp only
  split
  · exact h1.trans (provenOpen_led z (may rfl))
  · exact h1.trans (provenClosed_led z)
  · exact (h1.trans (.of_within (raise_within _) rfl rfl)).trans (.of_within (report_within _) rfl rfl)
  · exact h1

/-- A close command does not end in OPEN. -/
theorem commanded_close_atLevels (st : BrakeState) (due : Nat) (x y : Bool) : (st.commanded .close due).atLevels x y ≠ .opened := by
  cases st <;> cases x <;> cases y <;> simp [BrakeState.commanded, BrakeState.atLevels]

theorem commanded_close_opened (st : BrakeState) (due : Nat) : st.commanded .close due ≠ .opened := by
  cases st <;> simp [BrakeState.commanded]

theorem brakeCommand_led (z : ZoneIx) {cmd : ElementCommand} (st : BrakeState) (may : cmd = .close ∨ p = true) :
    Ride.Led c p P r (brakeCommand c z cmd st r) := by
  unfold brakeCommand
  split
  · exact .of_within (putElement_within z _) rfl rfl
  · next h =>
    refine brakeBecomes_led z _ _ fun _ => may.resolve_left ?_
    rintro rfl
    exact commanded_close_opened _ _ h
  · exact brakeBecomes_led z _ _ fun h => by cases h
  · refine brakeBecomes_led z _ _ fun h => may.resolve_left ?_
    rintro rfl
    exact commanded_close_atLevels _ _ _ _ h

theorem brakeProofChange_led (z : ZoneIx) (may : p = true) : Ride.Led c p P r (brakeProofChange c z r) := by
  unfold brakeProofChange
  split
  · dsimp only
    split
    · exact .refl r
    · exact brakeBecomes_led z _ _ fun _ => may
  · exact .refl r

theorem proofExpiry_led (z : ZoneIx) : Ride.Led c p P r (proofExpiry c z r) := by
  unfold proofExpiry
  split
  · exact brakeBecomes_led z _ _ fun h => by cases h
  · exact brakeBecomes_led z _ _ fun h => by cases h
  · exact .refl r

theorem driveArrives_led (z : ZoneIx) {cmd : ElementCommand} (may : cmd = .close ∨ p = true) :
    Ride.Led c p P r (driveArrives c z cmd r) := by
  unfold driveArrives
  split
  · exact (Ride.Led.of_within (putElement_within z _) rfl rfl).trans (provenClosed_led z)
  · next h => exact (Ride.Led.of_within (putElement_within z _) rfl rfl).trans (provenOpen_led z (may.resolve_left h))

theorem driveCommand_led (z : ZoneIx) {cmd : ElementCommand} (may : cmd = .close ∨ p = true) :
    Ride.Led c p P r (driveCommand c z cmd r) := by
  unfold driveCommand
  split
  · exact .refl r
  · split
    · next i _ _ _ ch d _ _ =>
      generalize (if stopsAtOnce r d cmd then (ch.restingAt 0, true) else ch.aimed (cmd.codeOn d) (dueAfter c.now d.interval)) = aim
      have h1 : Ride.Led c p P r (r.putChannel i aim.1) := .of_within (putChannel_within i _) rfl rfl
      dsimp only
      split
      · exact h1.trans (driveArrives_led z may)
      · exact h1.trans (.of_within (driveInFlight_within z cmd) rfl rfl)
    · exact .refl r

theorem channelArrival_led (zone : Option ZoneIx) (dd : DriveDesc) (code : Nat) (may : p = true) :
    Ride.Led c p P r (channelArrival c zone dd code r) := by
  unfold channelArrival
  split
  · exact .refl r
  · split
    · split
      · exact driveArrives_led _ (.inr may)
      · exact .refl r
    · exact .refl r

theorem channelStep_led (i : ChannelIx) (may : p = true) : Ride.Led c p P r (channelStep c i r) := by
  unfold channelStep
  split
  · split
    · dsimp only
      split
      · exact (Ride.Led.of_within (putChannel_within i _) rfl rfl).trans (channelArrival_led _ _ _ may)
      · exact .of_within (putChannel_within i _) rfl rfl
    · exact .refl r
  · exact .refl r

theorem channelStop_led (i : ChannelIx) : Ride.Led c p P r (channelStop c i r) := by
  unfold channelStop
  split
  · next ch dd _ _ =>
    generalize (if dd.profile = .immediate then (ch.restingAt 0, true) else ch.aimed 0 (dueAfter c.now dd.interval)) = aim
    have h1 : Ride.Led c p P r (r.putChannel i aim.1) := .of_within (putChannel_within i _) rfl rfl
    dsimp only
    split
    · exact h1
    · split
      · split
        · next h => exact h1.trans (driveArrives_led _ (.inl h.1))
        · exact h1.trans (.of_within (putElement_within _ _) rfl rfl)
      · exact h1
  · exact .refl r

theorem commandElement_led (z : ZoneIx) {cmd : ElementCommand} (may : cmd = .close ∨ p = true) :
    Ride.Led c p P r (commandElement c z cmd r) := by
  unfold commandElement
  split
  · exact brakeCommand_led z _ may
  · exact driveCommand_led z may
  · exact .refl r

theorem closeUnderTrain_led (z : ZoneIx) : Ride.Led c p P r (closeUnderTrain c z r) := by
  unfold closeUnderTrain
  split
  · exact .refl r
  · split
    · exact .refl r
    · next x hx =>
      split
      · next hp =>
        obtain ⟨running, rfl⟩ := hp
        exact changeTrain_led hx (.stopped running) rfl
      · exact .refl r

theorem closeElement_led (z : ZoneIx) : Ride.Led c p P r (closeElement c z r) := by
  unfold closeElement
  split
  · exact .refl r
  · exact (closeUnderTrain_led z).trans (commandElement_led z (.inl rfl))

theorem openElement_led (z : ZoneIx) (creep : Bool) (may : p = true) : Ride.Led c p P r (openElement c z creep r) := by
  unfold openElement
  split
  · exact .refl r
  · exact (Ride.Led.of_within (zoneStationEvent_within z _) rfl rfl).trans (commandElement_led z (.inr may))

theorem closeWhere_led (q : ZoneIx → Bool) : Ride.Led c p P r (closeWhere c q r) :=
  .overAll (fun z r => by
    split
    · exact closeElement_led z
    · exact .refl r) r

theorem stopRide_led : Ride.Led c p P r (r.stopRide c) :=
  ((Ride.Led.overAll (fun z _ => closeElement_led z) r).trans (.overAll (fun i _ => channelStop_led i) _)).trans
    (.overAll (fun st _ => .of_within (stationEvent_within st _) rfl rfl) _)

theorem tellLatched_led {before : Ride} : Ride.Led c p P r (tellLatched c before r) := by
  unfold tellLatched
  split
  · exact stopRide_led
  · exact .refl r

/-! ### Reservations -/

theorem reserveChain_led {chain : List ZoneIx} (creep : Bool) (hx : r.train? t = some x) (named : P chain) (empty : x.chain = [])
    (free : ∀ z ∈ chain, r.claim? z = some .clear) (may : p = true) : Ride.Led c p P r (reserveChain c t chain creep r) := by
  rw [reserveChain_eq hx]
  exact (Ride.Led.trans (.single (.reserved t x chain hx named empty free)) (.of_within (putPresented_within t none) rfl rfl)).trans
    (openElement_led _ creep may)

/-- Every zone of an available chain is CLEAR (R31). -/
theorem chainAvailable_clear {step : Bool} {before : ZoneIx} {chain : List ZoneIx} (h : chainAvailable c r t step before chain = true) :
    ∀ z ∈ chain, r.claim? z = some .clear := by
  induction chain generalizing before with
  | nil => simp
  | cons u l ih =>
    rw [chainAvailable, Bool.and_eq_true] at h
    intro z hz
    rcases List.mem_cons.mp hz with rfl | hz
    · have hu := h.1
      simp only [zoneAvailable, Bool.and_eq_true] at hu
      obtain ⟨zr, hzr, hz⟩ := option_any_some hu.1.1
      simp only [Bool.and_eq_true, beq_iff_eq] at hz
      rw [Ride.claim?, hzr, Option.map_some, hz.1.1]
    · exact ih h.2 z hz

theorem readyToReserve_empty (h : readyToReserve c r x = true) : x.chain = [] := by
  simp only [readyToReserve, Bool.and_eq_true] at h
  exact List.isEmpty_iff.mp h.2

theorem eligible_ready (h : eligible c r x = true) : readyToReserve c r x = true := by
  simp only [eligible, Bool.and_eq_true] at h
  exact h.1.2

theorem eligible_auto (h : eligible c r x = true) : c.mode = .auto := by
  simp only [eligible, Bool.and_eq_true, beq_iff_eq] at h
  exact h.1.1

theorem reconsiderTrain_parts (t : SlotIx) :
    Ride.Within { presented := true, switches := true } r (reconsiderTrain c t r) := by
  unfold reconsiderTrain
  split
  · exact .refl r
  · next x _ =>
    generalize (if eligible c r x then prospectiveChain c r x else none) = wanted
    have h1 : Ride.Within { presented := true, switches := true } r
        ((if (r.presented? t).isSome then withdrawSwitches t r else r).putPresented t wanted) := by
      refine Ride.Within.trans ?_ ((putPresented_within t _).mono rfl)
      split
      · exact (withdrawSwitches_within t).mono rfl
      · exact .refl r
    dsimp only
    split
    · exact .refl r
    · split
      · exact h1.trans ((present_within t x _).mono rfl)
      · exact h1

/-- Presentations and the arbiters' picks change presentations and switches alone. -/
theorem presentations_within (r : Ride) :
    Ride.Within { presented := true, switches := true } r
      (overAll (fun (w : SwitchIx) r => arbitrate c w r) (overAll (fun (t : SlotIx) r => reconsiderTrain c t r) r)) :=
  (Ride.Within.overAll (fun t _ => reconsiderTrain_parts t) r).trans (.overAll (fun w _ => ((arbitrate_within w).mono rfl)) _)

/-- The chains a train may be presented with are those that meet `P`. -/
def Ride.Presents (P : List ZoneIx → Prop) (r : Ride) : Prop := ∀ t chain, r.presented? t = some chain → P chain

theorem prospectiveChain_from {chain : List ZoneIx} (h : prospectiveChain c r x = some chain) :
    ∃ z, chain = chainFrom c.map (Config.chainLimit - 1) z := by
  obtain ⟨z, -, e⟩ := Option.map_eq_some_iff.mp h
  exact ⟨z, e.symm⟩

theorem presents_putPresented {o : Option (List ZoneIx)} (k : r.Presents P) (ho : ∀ chain, o = some chain → P chain) :
    (r.putPresented t o).Presents P := by
  intro u chain hu
  change tget (tput r.presented t o) u = some chain at hu
  rw [tget_tput] at hu
  split at hu
  · exact ho chain hu
  · exact k u chain hu

theorem Ride.Presents.within {q : Parts} (k : a.Presents P) (h : Ride.Within q a b) (e : q.presented = false) :
    b.Presents P := fun t chain ht => k t chain (h.presented? e t ▸ ht)

theorem reconsiderTrain_presents (hm : c.mode = .auto → ∀ z, P (chainFrom c.map (Config.chainLimit - 1) z)) (k : r.Presents P) (t : SlotIx) :
    (reconsiderTrain c t r).Presents P := by
  unfold reconsiderTrain
  split
  · exact k
  · next x _ =>
    have hw : ∀ chain, (if eligible c r x then prospectiveChain c r x else none) = some chain → P chain := by
      intro chain h
      split at h
      · next he =>
        obtain ⟨z, rfl⟩ := prospectiveChain_from h
        exact hm (eligible_auto he) z
      · cases h
    generalize (if eligible c r x then prospectiveChain c r x else none) = wanted at hw
    have h1 : ((if (r.presented? t).isSome then withdrawSwitches t r else r).putPresented t wanted).Presents P := by
      refine presents_putPresented ?_ hw
      split
      · exact k.within (withdrawSwitches_within t) rfl
      · exact k
    dsimp only
    split
    · exact k
    · split
      · exact h1.within (present_within t x _) rfl
      · exact h1

theorem reserveChain_presents {chain : List ZoneIx} (creep : Bool) (k : r.Presents P) : (reserveChain c t chain creep r).Presents P := by
  unfold reserveChain
  split
  · exact k
  · next x _ =>
    have h1 := k.within (putTrain_within t { x with chain := chain }) rfl
    have h2 := h1.within (Ride.Within.foldl (fun r z => setClaim_within (c := c) (r := r) z (.reserved t)) chain _) rfl
    have h3 := h2.within (Ride.Within.foldl (fun r z => reservedAt_within (c := c) (r := r) t z) chain _) rfl
    exact (presents_putPresented h3 (by simp)).within (openElement_within _ creep) rfl

theorem reserveIfAvailable_presents (k : r.Presents P) (t : SlotIx) : (reserveIfAvailable c t r).Presents P := by
  unfold reserveIfAvailable
  split
  · split
    · exact reserveChain_presents false k
    · exact k
  · exact k

theorem reserveIfAvailable_led (k : r.Presents P) (t : SlotIx) (may : p = true) : Ride.Led c p P r (reserveIfAvailable c t r) := by
  unfold reserveIfAvailable
  split
  · next x chain hx hp =>
    split
    · next he =>
      rw [Bool.and_eq_true] at he
      exact reserveChain_led false hx (k t chain hp) (readyToReserve_empty (eligible_ready he.1)) (chainAvailable_clear he.2) may
    · exact .refl r
  · exact .refl r

/-- Chains that may be reserved are presented through the presentations and the picks. -/
theorem presentations_presents (hm : c.mode = .auto → ∀ z, P (chainFrom c.map (Config.chainLimit - 1) z)) (k : r.Presents P) :
    (overAll (fun (w : SwitchIx) r => arbitrate c w r) (overAll (fun (t : SlotIx) r => reconsiderTrain c t r) r)).Presents P :=
  overAll_induct (Ride.Presents P) _ (fun w _ k => k.within (arbitrate_within w) rfl) _
    (overAll_induct (Ride.Presents P) _ (fun t _ k => reconsiderTrain_presents hm k t) r k)

theorem reconsider_presents (hm : c.mode = .auto → ∀ z, P (chainFrom c.map (Config.chainLimit - 1) z)) (k : r.Presents P) : (reconsider c r).Presents P :=
  overAll_induct (Ride.Presents P) _ (fun t _ k => reserveIfAvailable_presents k t) _ (presentations_presents hm k)

theorem reserveAll_led (k : r.Presents P) (may : p = true) :
    Ride.Led c p P r (overAll (fun (t : SlotIx) r => reserveIfAvailable c t r) r) :=
  (overAll_induct (fun r' => Ride.Led c p P r r' ∧ r'.Presents P) (fun (t : SlotIx) r => reserveIfAvailable c t r)
    (fun t _ h => ⟨h.1.trans (reserveIfAvailable_led h.2 t may), reserveIfAvailable_presents h.2 t⟩) r ⟨.refl r, k⟩).1

theorem reconsider_led (hm : c.mode = .auto → ∀ z, P (chainFrom c.map (Config.chainLimit - 1) z)) (k : r.Presents P) (may : p = true) :
    Ride.Led c p P r (reconsider c r) :=
  (Ride.Led.of_within (presentations_within (c := c) r) rfl rfl).trans (reserveAll_led (presentations_presents hm k) may)

/-! ### The end of a step -/

/-- The interlock reserves nothing by itself: the mode is not AUTO, or the ride stop is latched (R29). -/
def Ctx.calm (c : Ctx) (r : Ride) : Prop := c.mode ≠ .auto ∨ r.latched = true

theorem Ctx.calm.within {q : Parts} (h : c.calm a) (k : Ride.Within q a b) (e : q.reports = false) : c.calm b :=
  h.imp_right fun hl => (k.latched e).trans hl

theorem Ctx.calm.changes {w o q : Bool} (h : c.calm a) (k : Changes w o q a b) : c.calm b := h.imp_right k.latched

theorem reserveIfAvailable_calm (h : c.calm r) (t : SlotIx) : reserveIfAvailable c t r = r := by
  unfold reserveIfAvailable
  split
  · rw [not_eligible h]
    rfl
  · rfl

/-- Where nothing may be reserved, the interlock's reconsideration changes presentations and switches alone. -/
theorem reconsider_calm (h : c.calm r) : Ride.Within { presented := true, switches := true } r (reconsider c r) := by
  have hp := presentations_within (c := c) r
  have calm := h.within hp rfl
  refine (overAll_induct (fun r' => Ride.Within { presented := true, switches := true } r r' ∧ c.calm r') _
    (fun t r' k => ?_) _ ⟨hp, calm⟩).1
  rw [reserveIfAvailable_calm k.2]
  exact k

theorem tellLatched_within {before : Ride} : Ride.Within .element r (tellLatched c before r) := by
  unfold tellLatched
  split
  · exact stopRide_within
  · exact .refl r

/-- With nothing to reserve, the end of a step tells the owners of a latch, and then changes presentations and switches alone. -/
theorem conclude_calm {before after : Ride} (h : c.calm after) :
    Ride.Within { presented := true, switches := true } (tellLatched c before after) (conclude c before after) := by
  have calm : c.calm (tellLatched c before after) := h.changes (w := true) (o := true) (q := true) tellLatched_changes
  have hr := reconsider_calm calm
  have hl : ((!(tellLatched c before after).latched && (reconsider c (tellLatched c before after)).latched)) = false := by
    rw [hr.latched rfl]
    simp
  unfold conclude
  dsimp only
  rw [hl]
  exact hr

/-- With the ride stopped already, the end of a step tells no owner. -/
theorem tellLatched_same {before after : Ride} (h : before.latched = true ∨ after.latched = false) : tellLatched c before after = after := by
  rcases h with h | h <;> simp [tellLatched, h]

theorem conclude_led_calm {before after : Ride} (h : c.calm after) : Ride.Led c false noChain after (conclude c before after) :=
  tellLatched_led.trans (.of_within (conclude_calm h) rfl rfl)

theorem conclude_led {before after : Ride} (hm : c.mode = .auto → ∀ z, P (chainFrom c.map (Config.chainLimit - 1) z)) (k : after.Presents P) :
    Ride.Led c true P after (conclude c before after) := by
  have h1 : Ride.Led c true P after (tellLatched c before after) := tellLatched_led
  have k1 : (tellLatched c before after).Presents P := k.within tellLatched_within rfl
  have h2 := h1.trans (reconsider_led hm k1 rfl)
  have k2 := reconsider_presents hm k1
  unfold conclude
  dsimp only
  split
  · exact (h2.trans stopRide_led).trans (reconsider_led hm (k2.within stopRide_within rfl) rfl)
  · exact h2

/-- Presented chains meet `P` at the end of a step where they did before it, and where those of the map in use do. -/
theorem conclude_presents {before after : Ride} (hm : c.mode = .auto → ∀ z, P (chainFrom c.map (Config.chainLimit - 1) z))
    (k : after.Presents P) : (conclude c before after).Presents P := by
  have k1 : (tellLatched c before after).Presents P := k.within tellLatched_within rfl
  have k2 := reconsider_presents hm k1
  unfold conclude
  dsimp only
  split
  · exact reconsider_presents hm (k2.within stopRide_within rfl)
  · exact k2

end Sys2Proof.Machine
end

section
/-! PROOF. O15 fails: a raw change on a track sensor line can bring several edges that were due, each a step of its own with its own
reconsideration (R78, R79). The first can open a brake for a train, and a later one take that train's head into the zone ahead. -/

open Sys2Proof Sys2Proof.Machine Sys2Proof.Tests

namespace Sys2Proof.Machine

/-- AUTO on the small circuit: a train HELD in zone 3 behind a closed brake, its chain of zone 4 clear and not yet reserved. Two changes
are due: that of the berth sensor of zone 1, and that by which the nose of the train crosses into zone 4. -/
def twoEdgesDue : State :=
  { withTrain (trainAt .held 3) [(3, .occupied 0)] (atMode .auto base) with
    sensors := { base.sensors with high := tput base.sensors.high 11 false, changes := [(24, 900000), (11, 900000)] }
    bounds := tput base.bounds 5 (some { passage := .entering .forward 800000, stalled := false, lastInterval := none }) }

/-- The state after line 11 goes high again, which produces both edges first. -/
def bothEdgesTaken : State := rawSensorChange 11 true (twoEdgesDue.advance 0)

theorem twoEdgesDue_shut : ∀ z, twoEdgesDue.elementOutput z = false := by decide +kernel

theorem twoEdgesDue_brakes : twoEdgesDue.brakesInvariant := fun z h => by rw [twoEdgesDue_shut z] at h; cases h

theorem twoEdgesDue_claims : twoEdgesDue.claimsInvariant := by
  have claims : ∀ z k, twoEdgesDue.ride.claim? z ≠ some (.reserved k) ∧ twoEdgesDue.ride.claim? z ≠ some (.guarded k) := by decide +kernel
  have alone : ∀ k, k ≠ 0 → twoEdgesDue.ride.train? k = none := by decide +kernel
  have train : twoEdgesDue.ride.train? 0 = some (trainAt .held 3) := by decide +kernel
  have named : twoEdgesDue.ride.occupant? 3 = some 0 := by decide +kernel
  have ends : ∀ b, (twoEdgesDue.map.boundary b).all (fun d => d.up != d.down) = true := by decide +kernel
  refine ⟨fun z k h => absurd h (claims z k).1, fun z k h => absurd h (claims z k).2, fun k x hx _ => ?_, fun _ b d hd => ?_,
    fun ref h => by cases h⟩
  · by_cases hk : k = 0
    · subst hk
      rw [train] at hx
      cases hx
      exact ⟨named, fun z hz => by cases hz⟩
    · rw [alone k hk] at hx
      cases hx
  · simpa [hd] using ends b

theorem bothEdgesTaken_open : bothEdgesTaken.elementOutput 3 = true := by decide +kernel

/-- The brake stands open behind the nose: the zone's occupant has its head in the zone ahead. -/
theorem bothEdgesTaken_crossed : bothEdgesTaken.ride.occupant? 3 = some 0 ∧ (bothEdgesTaken.ride.train? 0).map (·.head) = some 4 := by
  decide +kernel

/-- Refutes O15: a step that takes two edges asserts the output of zone 3, whose occupant's head is in zone 4 after it. -/
theorem not_brakesOpenOnlyWhenAllowed : ¬ Obligations.BrakesOpenOnlyWhenAllowed := by
  unfold Obligations.BrakesOpenOnlyWhenAllowed
  rintro ⟨-, opened, -⟩
  obtain ⟨⟨k, x, hk, hx, head, -⟩, -⟩ := opened (.trackSensorRawChange 0 11 true) twoEdgesDue bothEdgesTaken 3 twoEdgesDue_claims
    twoEdgesDue_brakes rfl (twoEdgesDue_shut 3) bothEdgesTaken_open
  obtain ⟨occupant, crossed⟩ := bothEdgesTaken_crossed
  cases occupant.symm.trans hk
  rw [hx, Option.map_some, head] at crossed
  exact absurd crossed (by decide)

end Sys2Proof.Machine
end

section
/-! PROOF. What the operations that move no train do to the claims on zones, and that they keep the agreement of claims and records. -/

namespace Sys2Proof.Machine

variable {c : Ctx} {a b d r : Ride} {t k : SlotIx} {x y : Train} {z : ZoneIx}

/-! ### Claims after the operations that set them -/

theorem putZone_claim? (z : ZoneIx) (zr : ZoneRec) (u : ZoneIx) :
    (r.putZone z zr).claim? u = if u = z then some zr.claim else r.claim? u := by
  simp only [Ride.claim?, Ride.zone?, Ride.putZone, tget_tput]
  split <;> rfl

/-- The zone set has the claim given, where it has a record; every other zone keeps its claim. -/
theorem setClaim_claim? (z : ZoneIx) (new : Claim) (u : ZoneIx) :
    (setClaim c z new r).claim? u = if u = z then (r.claim? z).map fun _ => new else r.claim? u := by
  unfold setClaim
  split
  · next h =>
    split
    · next e => simp [Ride.claim?, e, h]
    · rfl
  · next x h =>
    rw [(claimToStation_within z _ _).claim? rfl, (claimToSwitch_within z _ _).claim? rfl, putZone_claim?]
    simp [Ride.claim?, h]

theorem setClaim_train? (z : ZoneIx) (new : Claim) (t : SlotIx) : (setClaim c z new r).train? t = r.train? t :=
  (setClaim_within z new).train? rfl t

theorem setClaim_self {old : Claim} (h : r.claim? z = some old) (new : Claim) : (setClaim c z new r).claim? z = some new := by
  rw [setClaim_claim?, if_pos rfl, h]; rfl

theorem setClaim_apart {u : ZoneIx} (h : u ≠ z) (new : Claim) : (setClaim c z new r).claim? u = r.claim? u := by
  rw [setClaim_claim?, if_neg h]

/-- A fold of claims over a list of zones with a record. -/
theorem claimAll_claim? (new : Claim) (chain : List ZoneIx) (u : ZoneIx) :
    (chain.foldl (fun r z => setClaim c z new r) r).claim? u = if u ∈ chain then (r.claim? u).map fun _ => new else r.claim? u := by
  induction chain generalizing r with
  | nil => simp
  | cons z l ih =>
    rw [List.foldl_cons, ih, setClaim_claim?]
    by_cases hz : u = z
    · subst hz
      cases r.claim? u <;> simp
    · simp [hz]

theorem claimAll_train? (new : Claim) (chain : List ZoneIx) (t : SlotIx) :
    (chain.foldl (fun r z => setClaim c z new r) r).train? t = r.train? t :=
  (Ride.Within.foldl (fun _ z => setClaim_within z new) chain r).train? rfl t

theorem reservedAll_claim? (chain : List ZoneIx) (u : ZoneIx) :
    (chain.foldl (fun r z => reservedAt c t z r) r).claim? u = r.claim? u :=
  (Ride.Within.foldl (fun _ z => reservedAt_within t z) chain r).claim? rfl u

/-- The reservation of a zone changes the directive of its train alone. -/
theorem reservedAt_trains (z : ZoneIx) (u : SlotIx) :
    (u ≠ t → (reservedAt c t z r).train? u = r.train? u) ∧
    ∀ x, r.train? t = some x → ∃ dir, (reservedAt c t z r).train? t = some { x with directive := dir } := by
  unfold reservedAt
  split
  · exact ⟨fun _ => rfl, fun x h => ⟨x.directive, h⟩⟩
  · split
    · exact ⟨fun _ => rfl, fun x h => ⟨x.directive, h⟩⟩
    · unfold Ride.onTrain
      split
      · refine ⟨fun h => putTrain_other _ _ _ _ h, fun x h => ?_⟩
        next y hy =>
        have e : y = x := Option.some.inj (hy.symm.trans h)
        subst e
        exact ⟨_, putTrain_same _ _ _⟩
      · exact ⟨fun _ => rfl, fun x h => ⟨x.directive, h⟩⟩

theorem reservedAll_trains (chain : List ZoneIx) (u : SlotIx) :
    (u ≠ t → (chain.foldl (fun r z => reservedAt c t z r) r).train? u = r.train? u) ∧
    ∀ x, r.train? t = some x → ∃ dir, (chain.foldl (fun r z => reservedAt c t z r) r).train? t = some { x with directive := dir } := by
  induction chain generalizing r with
  | nil => exact ⟨fun _ => rfl, fun x h => ⟨x.directive, h⟩⟩
  | cons z l ih =>
    refine ⟨fun h => (ih.1 h).trans ((reservedAt_trains z u).1 h), fun x h => ?_⟩
    obtain ⟨dir, hd⟩ := (reservedAt_trains (c := c) z u).2 x h
    obtain ⟨dir', hd'⟩ := ih.2 _ hd
    exact ⟨dir', hd'⟩

/-- A chain reserved: its zones are RESERVED for the train, every other zone keeps its claim. -/
theorem chainReserved_claim? (chain : List ZoneIx) (u : ZoneIx) :
    (chainReserved c t x chain r).claim? u = if u ∈ chain then (r.claim? u).map fun _ => .reserved t else r.claim? u := by
  rw [chainReserved, reservedAll_claim?, claimAll_claim?]
  rfl

/-- The train's record holds the chain, and the others are as they were. -/
theorem chainReserved_trains (chain : List ZoneIx) (u : SlotIx) :
    (u ≠ t → (chainReserved c t x chain r).train? u = r.train? u) ∧
    ∃ dir, (chainReserved c t x chain r).train? t = some { x with chain := chain, directive := dir } := by
  constructor
  · intro h
    rw [chainReserved, (reservedAll_trains chain u).1 h, claimAll_train?, putTrain_other _ _ _ _ h]
  · exact (reservedAll_trains chain u).2 _ ((claimAll_train? _ chain t).trans (putTrain_same _ _ _))

/-- A fold that gives up the zones of a list that are still RESERVED for the train. -/
theorem clearAll_claim? (t : SlotIx) (chain : List ZoneIx) (u : ZoneIx) :
    (chain.foldl (fun r z => if r.claim? z = some (.reserved t) then setClaim c z .clear r else r) r).claim? u =
      if u ∈ chain ∧ r.claim? u = some (.reserved t) then some .clear else r.claim? u := by
  induction chain generalizing r with
  | nil => simp
  | cons z l ih =>
    rw [List.foldl_cons, ih]
    by_cases hz : r.claim? z = some (.reserved t)
    · rw [if_pos hz]
      by_cases e : u = z
      · subst e
        simp [setClaim_self hz, hz]
      · simp [setClaim_apart e, e]
    · rw [if_neg hz]
      by_cases e : u = z
      · subst e
        simp [hz]
      · simp [e]

theorem clearAll_train? (t : SlotIx) (chain : List ZoneIx) (u : SlotIx) :
    (chain.foldl (fun r z => if r.claim? z = some (.reserved t) then setClaim c z .clear r else r) r).train? u = r.train? u :=
  (Ride.Within.foldl (p := .claim) (fun r z => by
    split
    · exact setClaim_within z _
    · exact .refl r) chain r).train? rfl u

/-- A chain returned: the zones still RESERVED for its train are CLEAR, every other zone keeps its claim (R34). -/
theorem returnChain_claim? (h : r.train? t = some x) (u : ZoneIx) :
    (returnChain c t r).claim? u = if u ∈ x.chain ∧ r.claim? u = some (.reserved t) then some .clear else r.claim? u := by
  simp only [returnChain, h]
  exact clearAll_claim? t x.chain u

theorem returnChain_train (h : r.train? t = some x) : (returnChain c t r).train? t = some { x with chain := [] } := by
  simp only [returnChain, h]
  rw [clearAll_train?]
  exact putTrain_same _ _ _

theorem returnChain_other (h : r.train? t = some x) {u : SlotIx} (e : u ≠ t) : (returnChain c t r).train? u = r.train? u := by
  simp only [returnChain, h]
  rw [clearAll_train?]
  exact putTrain_other _ _ _ _ e

end Sys2Proof.Machine
end

section
/-! PROOF. The agreement of claims and train records (R22, R51) as the operations of the train table keep it: in parts, while a train or
a zone is between two positions. -/

namespace Sys2Proof.Machine

variable {c : Ctx} {p full : Bool} {P : List ZoneIx → Prop} {hole : Option SlotIx} {gap : Option ZoneIx} {a b d r : Ride}
  {t k : SlotIx} {x y : Train} {z : ZoneIx}

/-- The zones that a record gives its train as head and tail name the train as occupant. -/
def Ride.Names (r : Ride) (k : SlotIx) (x : Train) : Prop :=
  r.occupant? x.head = some k ∧ ∀ z, x.tail = some z → z ≠ x.head ∧ r.occupant? z = some k

/-- Claims and records agree, but for the train `hole`, which is between two positions, and the zone `gap`, whose claim is about to be
replaced. With `full` no chain holds a zone twice, and each of its zones is RESERVED for its train. -/
structure Ride.Agrees (full : Bool) (hole : Option SlotIx) (gap : Option ZoneIx) (r : Ride) : Prop where
  reserved : ∀ z k, some z ≠ gap → r.claim? z = some (.reserved k) → ∃ x, r.train? k = some x ∧ z ∈ x.chain
  guarded : ∀ z k, some z ≠ gap → r.claim? z = some (.guarded k) → ∃ x b, r.train? k = some x ∧ x.guard = some (z, b)
  named : ∀ k x, some k ≠ hole → r.train? k = some x → x.phase ≠ .lost → r.Names k x
  chains : full = true → ∀ k x, r.train? k = some x → x.chain.Nodup ∧ ∀ z ∈ x.chain, r.claim? z = some (.reserved k)

namespace Ride.Agrees

theorem of_same (h : a.Agrees full hole gap) (claims : ∀ z, b.claim? z = a.claim? z) (trains : ∀ k, b.train? k = a.train? k) :
    b.Agrees full hole gap := by
  have occ : ∀ z, b.occupant? z = a.occupant? z := fun z => by rw [Ride.occupant?, claims]; rfl
  refine ⟨fun z k g e => ?_, fun z k g e => ?_, fun k x g hx hl => ?_, fun f k x hx => ?_⟩
  · rw [trains]; exact h.reserved z k g (claims z ▸ e)
  · rw [trains]; exact h.guarded z k g (claims z ▸ e)
  · simp only [Ride.Names, occ]
    exact h.named k x g (trains k ▸ hx) hl
  · simp only [claims]
    exact h.chains f k x (trains k ▸ hx)

theorem within {q : Parts} (h : a.Agrees full hole gap) (k : Ride.Within q a b) (zones : q.zones = false)
    (trains : q.trains = false) : b.Agrees full hole gap :=
  h.of_same (k.claim? zones) (k.train? trains)

/-- A record replaced with its chain and guard kept: its train is LOST, stands where its zones name it, or is the one left out. -/
theorem putTrain (h : r.Agrees full hole gap) (hx : r.train? t = some x) (chain : y.chain = x.chain) (guard : y.guard = x.guard)
    (at_ : some t = hole ∨ y.phase = .lost ∨ r.Names t y) : (r.putTrain t y).Agrees full hole gap := by
  refine ⟨fun z k g e => ?_, fun z k g e => ?_, fun k w g hw hl => ?_, fun f k w hw => ?_⟩
  · obtain ⟨w, hw, hz⟩ := h.reserved z k g e
    by_cases ek : k = t
    · subst ek
      rw [hx] at hw
      cases hw
      exact ⟨y, putTrain_same _ _ _, chain ▸ hz⟩
    · exact ⟨w, (putTrain_other _ _ _ _ ek).trans hw, hz⟩
  · obtain ⟨w, b, hw, hz⟩ := h.guarded z k g e
    by_cases ek : k = t
    · subst ek
      rw [hx] at hw
      cases hw
      exact ⟨y, b, putTrain_same _ _ _, guard ▸ hz⟩
    · exact ⟨w, b, (putTrain_other _ _ _ _ ek).trans hw, hz⟩
  · by_cases ek : k = t
    · subst ek
      rw [putTrain_same] at hw
      cases hw
      exact (at_.resolve_left g).resolve_left hl
    · rw [putTrain_other _ _ _ _ ek] at hw
      exact h.named k w g hw hl
  · by_cases ek : k = t
    · subst ek
      rw [putTrain_same] at hw
      cases hw
      rw [chain]
      exact h.chains f k x hx
    · rw [putTrain_other _ _ _ _ ek] at hw
      exact h.chains f k w hw

/-- A record whose train stays where it was. -/
theorem putTrain_still (h : r.Agrees full hole gap) (hx : r.train? t = some x) (chain : y.chain = x.chain) (guard : y.guard = x.guard)
    (head : y.head = x.head) (tail : y.tail = x.tail) (lost : x.phase = .lost → y.phase = .lost) :
    (r.putTrain t y).Agrees full hole gap := by
  refine h.putTrain hx chain guard ?_
  by_cases e : some t = hole
  · exact .inl e
  · by_cases l : x.phase = .lost
    · exact .inr (.inl (lost l))
    · refine .inr (.inr ?_)
      unfold Ride.Names
      rw [head, tail]
      exact h.named t x e hx l

/-- A zone in no chain, whose occupant is the train left out or the one the new claim names, takes any claim: its record stands out. -/
theorem setClaim_gap (h : r.Agrees full hole gap) (hg : gap = none ∨ gap = some z) (new : Claim)
    (occupied : ∀ k, r.occupant? z = some k → some k = hole ∨ new.occupant = some k)
    (unchained : full = true → ∀ k x, r.train? k = some x → z ∉ x.chain) : (setClaim c z new r).Agrees full hole (some z) := by
  have other : ∀ u : ZoneIx, some u ≠ some z → u ≠ z ∧ some u ≠ gap := by
    intro u g
    refine ⟨fun e => g (congrArg some e), fun e => ?_⟩
    rcases hg with hg | hg
    · rw [hg] at e; cases e
    · exact g (e.trans hg)
  have occ : ∀ k u, some k ≠ hole → r.occupant? u = some k → (Machine.setClaim c z new r).occupant? u = some k := by
    intro k u g hu
    rw [Ride.occupant?, setClaim_claim?]
    split
    · next e =>
      subst e
      have hz := (occupied k hu).resolve_left g
      rw [Ride.occupant?] at hu
      cases hc : r.claim? u with
      | none => rw [hc] at hu; cases hu
      | some cl => exact hz
    · exact hu
  refine ⟨fun u k g e => ?_, fun u k g e => ?_, fun k w g hw hl => ?_, fun f k w hw => ?_⟩
  · rw [setClaim_claim?, if_neg (other u g).1] at e
    rw [setClaim_train?]
    exact h.reserved u k (other u g).2 e
  · rw [setClaim_claim?, if_neg (other u g).1] at e
    rw [setClaim_train?]
    exact h.guarded u k (other u g).2 e
  · rw [setClaim_train?] at hw
    obtain ⟨hh, ht⟩ := h.named k w g hw hl
    exact ⟨occ k _ g hh, fun u hu => ⟨(ht u hu).1, occ k u g (ht u hu).2⟩⟩
  · rw [setClaim_train?] at hw
    obtain ⟨nodup, all⟩ := h.chains f k w hw
    refine ⟨nodup, fun u hu => ?_⟩
    rw [setClaim_claim?, if_neg]
    · exact all u hu
    · rintro rfl
      exact unchained f k w hw hu

/-- The zone that stood out has a claim that its holder's record bears out. -/
theorem shut (h : r.Agrees full hole (some z)) (reserved : ∀ k, r.claim? z = some (.reserved k) → ∃ x, r.train? k = some x ∧ z ∈ x.chain)
    (guarded : ∀ k, r.claim? z = some (.guarded k) → ∃ x b, r.train? k = some x ∧ x.guard = some (z, b)) :
    r.Agrees full hole none := by
  refine ⟨fun u k _ e => ?_, fun u k _ e => ?_, h.named, h.chains⟩
  · by_cases hu : u = z
    · subst hu; exact reserved k e
    · exact h.reserved u k (fun e' => hu (Option.some.inj e')) e
  · by_cases hu : u = z
    · subst hu; exact guarded k e
    · exact h.guarded u k (fun e' => hu (Option.some.inj e')) e

/-- The same with a claim that names no holder without a record: none stands out. -/
theorem setClaim (h : r.Agrees full hole gap) (hg : gap = none ∨ gap = some z) (new : Claim)
    (plain : ∀ k, new ≠ .reserved k ∧ new ≠ .guarded k)
    (occupied : ∀ k, r.occupant? z = some k → some k = hole ∨ new.occupant = some k)
    (unchained : full = true → ∀ k x, r.train? k = some x → z ∉ x.chain) : (setClaim c z new r).Agrees full hole none := by
  have after : ∀ {cl}, (Machine.setClaim c z new r).claim? z = some cl → cl = new := by
    intro cl e
    rw [setClaim_claim?, if_pos rfl] at e
    obtain ⟨_, _, e⟩ := Option.map_eq_some_iff.mp e
    exact e.symm
  exact (h.setClaim_gap hg new occupied unchained).shut (fun k e => absurd (after e).symm (plain k).1)
    (fun k e => absurd (after e).symm (plain k).2)

/-- A zone that is not RESERVED is in no chain. -/
theorem unchained (h : r.Agrees full hole gap) (hz : ∀ k, r.claim? z ≠ some (.reserved k)) :
    full = true → ∀ k x, r.train? k = some x → z ∉ x.chain :=
  fun f k x hx hm => hz k ((h.chains f k x hx).2 z hm)

theorem unchained_of_occupant (h : r.Agrees full hole gap) (hz : r.occupant? z = some t) :
    full = true → ∀ k x, r.train? k = some x → z ∉ x.chain :=
  h.unchained fun k e => by rw [Ride.occupant?, e] at hz; cases hz

/-- The train left out stands where its zones name it, is LOST, or has no record: none is left out any more. -/
theorem close (h : r.Agrees full (some t) gap) (at_ : ∀ x, r.train? t = some x → x.phase ≠ .lost → r.Names t x) :
    r.Agrees full none gap :=
  ⟨h.reserved, h.guarded, fun k x _ hx hl => by
    by_cases e : k = t
    · subst e; exact at_ x hx hl
    · exact h.named k x (fun e' => e (Option.some.inj e')) hx hl, h.chains⟩

theorem leave (h : r.Agrees full none gap) (hole : Option SlotIx) : r.Agrees full hole gap :=
  ⟨h.reserved, h.guarded, fun k x _ hx hl => h.named k x (by simp) hx hl, h.chains⟩

theorem open_ (h : r.Agrees full hole none) (gap : Option ZoneIx) : r.Agrees full hole gap :=
  ⟨fun z k _ e => h.reserved z k (by simp) e, fun z k _ e => h.guarded z k (by simp) e, h.named, h.chains⟩

end Ride.Agrees

/-! ### What moves no train keeps the agreement -/

/-- The occupant of a zone whose claim is not RESERVED or CLEAR any more than before. -/
theorem occupant_of_claim (h : b.claim? z = a.claim? z) : b.occupant? z = a.occupant? z := by
  rw [Ride.occupant?, h]; rfl

/-- A chain returned leaves every claim on which a train stands. -/
theorem returnChain_occupant (h : r.train? t = some x) (u : ZoneIx) : (returnChain c t r).occupant? u = r.occupant? u := by
  rw [Ride.occupant?, returnChain_claim? h]
  split
  · next e => rw [Ride.occupant?, e.2]; rfl
  · rfl

theorem returnChain_agrees (h : r.Agrees full hole gap) (hx : r.train? t = some x) : (returnChain c t r).Agrees full hole gap := by
  refine ⟨fun z k g e => ?_, fun z k g e => ?_, fun k w g hw hl => ?_, fun f k w hw => ?_⟩
  · rw [returnChain_claim? hx] at e
    split at e
    · cases e
    · next hz =>
      obtain ⟨w, hw, hm⟩ := h.reserved z k g e
      have ek : k ≠ t := by
        rintro rfl
        rw [hx] at hw
        cases hw
        exact hz ⟨hm, e⟩
      exact ⟨w, (returnChain_other hx ek).trans hw, hm⟩
  · rw [returnChain_claim? hx] at e
    split at e
    · cases e
    · obtain ⟨w, b, hw, hm⟩ := h.guarded z k g e
      by_cases ek : k = t
      · subst ek
        rw [hx] at hw
        cases hw
        exact ⟨_, b, returnChain_train hx, hm⟩
      · exact ⟨w, b, (returnChain_other hx ek).trans hw, hm⟩
  · simp only [Ride.Names, returnChain_occupant hx]
    by_cases ek : k = t
    · subst ek
      rw [returnChain_train hx] at hw
      cases hw
      exact h.named k x g hx hl
    · exact h.named k w g ((returnChain_other hx ek).symm.trans hw) hl
  · by_cases ek : k = t
    · subst ek
      rw [returnChain_train hx] at hw
      cases hw
      exact ⟨List.nodup_nil, fun z hz => by cases hz⟩
    · rw [returnChain_other hx ek] at hw
      obtain ⟨nodup, all⟩ := h.chains f k w hw
      refine ⟨nodup, fun z hz => ?_⟩
      rw [returnChain_claim? hx, if_neg]
      · exact all z hz
      · rintro ⟨-, e⟩
        rw [all z hz] at e
        exact ek (Claim.reserved.inj (Option.some.inj e))

theorem chainReserved_occupant {chain : List ZoneIx} (free : ∀ z ∈ chain, r.claim? z = some .clear) (u : ZoneIx) :
    (chainReserved c t x chain r).occupant? u = r.occupant? u := by
  rw [Ride.occupant?, chainReserved_claim?]
  split
  · next e => rw [Ride.occupant?, free u e]; rfl
  · rfl

theorem chainReserved_agrees {chain : List ZoneIx} (h : r.Agrees full hole gap) (hx : r.train? t = some x) (empty : x.chain = [])
    (free : ∀ z ∈ chain, r.claim? z = some .clear) (nodup : full = true → chain.Nodup) :
    (chainReserved c t x chain r).Agrees full hole gap := by
  obtain ⟨dir, hd⟩ := (chainReserved_trains (c := c) (r := r) (t := t) (x := x) chain t).2
  have other : ∀ u, u ≠ t → (chainReserved c t x chain r).train? u = r.train? u := fun u => (chainReserved_trains chain u).1
  refine ⟨fun z k g e => ?_, fun z k g e => ?_, fun k w g hw hl => ?_, fun f k w hw => ?_⟩
  · rw [chainReserved_claim?] at e
    split at e
    · next hm =>
      rw [free z hm] at e
      cases e
      exact ⟨_, hd, hm⟩
    · obtain ⟨w, hw, hm⟩ := h.reserved z k g e
      have ek : k ≠ t := by
        rintro rfl
        rw [hx] at hw
        cases hw
        rw [empty] at hm
        cases hm
      exact ⟨w, (other k ek).trans hw, hm⟩
  · rw [chainReserved_claim?] at e
    split at e
    · next hm =>
      rw [free z hm] at e
      cases e
    · obtain ⟨w, b, hw, hm⟩ := h.guarded z k g e
      by_cases ek : k = t
      · subst ek
        rw [hx] at hw
        cases hw
        exact ⟨_, b, hd, hm⟩
      · exact ⟨w, b, (other k ek).trans hw, hm⟩
  · simp only [Ride.Names, chainReserved_occupant free]
    by_cases ek : k = t
    · subst ek
      rw [hd] at hw
      cases hw
      exact h.named k x g hx hl
    · exact h.named k w g ((other k ek).symm.trans hw) hl
  · by_cases ek : k = t
    · subst ek
      rw [hd] at hw
      cases hw
      refine ⟨nodup f, fun z hz => ?_⟩
      rw [chainReserved_claim?, if_pos hz, free z hz]
      rfl
    · rw [other k ek] at hw
      obtain ⟨nd, all⟩ := h.chains f k w hw
      refine ⟨nd, fun z hz => ?_⟩
      rw [chainReserved_claim?, if_neg]
      · exact all z hz
      · intro hm
        have := (all z hz).symm.trans (free z hm)
        cases this

/-- What a change of a record that moves no train leaves of it. -/
structure Train.Stands (x y : Train) : Prop where
  head : y.head = x.head
  tail : y.tail = x.tail
  guard : y.guard = x.guard
  label : y.label = x.label
  lost : y.phase = .lost ↔ x.phase = .lost

theorem Train.Stands.refl (x : Train) : x.Stands x := ⟨rfl, rfl, rfl, rfl, Iff.rfl⟩

theorem Train.Stands.trans {w : Train} (h : x.Stands y) (k : y.Stands w) : x.Stands w :=
  ⟨k.head.trans h.head, k.tail.trans h.tail, k.guard.trans h.guard, k.label.trans h.label, k.lost.trans h.lost⟩

theorem Train.Nudged.stands (h : Train.Nudged c p P x y) : x.Stands y := by
  cases h with
  | stopped running => exact ⟨rfl, rfl, rfl, rfl, by simp [running]⟩
  | released may rest => exact ⟨rfl, rfl, rfl, rfl, by rcases rest with h | h <;> simp [h]⟩
  | _ => exact ⟨rfl, rfl, rfl, rfl, Iff.rfl⟩

theorem Train.Led.stands (h : Train.Led c p P x y) : x.Stands y := by
  induction h with
  | refl => exact .refl x
  | tail _ k ih => exact ih.trans k.stands

theorem Ride.Nudge.agrees (h : Ride.Nudge c p P a b) (nodup : full = true → ∀ chain, P chain → chain.Nodup)
    (k : a.Agrees full hole gap) : b.Agrees full hole gap := by
  cases h with
  | within h zones trains => exact k.within h zones trains
  | train t x y hx how chain =>
    exact k.putTrain_still hx chain how.stands.guard how.stands.head how.stands.tail how.stands.lost.mpr
  | returned t x hx rest => exact returnChain_agrees k hx
  | reserved t x chain hx named empty free => exact chainReserved_agrees k hx empty free fun f => nodup f chain named

theorem Ride.Led.agrees (h : Ride.Led c p P a b) (nodup : full = true → ∀ chain, P chain → chain.Nodup)
    (k : a.Agrees full hole gap) : b.Agrees full hole gap :=
  h.induct (fun r => r.Agrees full hole gap) (fun _ _ k e => k.agrees nodup e) k

/-- What moves no train leaves the claims that a train stands on or guards. -/
theorem Ride.Nudge.claim_kept (h : Ride.Nudge c p P a b) {claim : Claim} (hc : claim.loose = false) (k : a.claim? z = some claim) :
    b.claim? z = some claim := by
  cases h with
  | within h zones _ => exact (h.claim? zones z).trans k
  | train t x y hx how _ => exact k
  | returned t x hx rest =>
    rw [returnChain_claim? hx, if_neg]
    · exact k
    · rintro ⟨-, e⟩
      rw [k] at e
      cases e
      cases hc
  | reserved t x chain hx _ _ free =>
    rw [chainReserved_claim?, if_neg]
    · exact k
    · intro hm
      rw [free z hm] at k
      cases k
      cases hc

theorem Ride.Led.claim_kept (h : Ride.Led c p P a b) {claim : Claim} (hc : claim.loose = false) (k : a.claim? z = some claim) :
    b.claim? z = some claim :=
  h.induct (fun r => r.claim? z = some claim) (fun _ _ k e => k.claim_kept hc e) k

/-- Nor does it put a train on a zone, or take a zone's record away. -/
theorem Ride.Nudge.zone_kept (h : Ride.Nudge c p P a b) (z : ZoneIx) :
    (b.claim? z).isSome = (a.claim? z).isSome ∧ (a.occupant? z = none → b.occupant? z = none) := by
  cases h with
  | within h zones _ => rw [h.claim? zones, h.occupant? zones]; exact ⟨rfl, fun e => e⟩
  | train t x y hx how _ => exact ⟨rfl, fun e => e⟩
  | returned t x hx rest =>
    rw [returnChain_occupant hx, returnChain_claim? hx]
    refine ⟨?_, fun e => e⟩
    split
    · next e => rw [e.2]; rfl
    · rfl
  | reserved t x chain hx _ _ free =>
    rw [chainReserved_occupant free, chainReserved_claim?]
    refine ⟨?_, fun e => e⟩
    split
    · exact Option.isSome_map
    · rfl

theorem Ride.Led.zone_kept (h : Ride.Led c p P a b) (z : ZoneIx) :
    (b.claim? z).isSome = (a.claim? z).isSome ∧ (a.occupant? z = none → b.occupant? z = none) :=
  h.induct (fun r => (r.claim? z).isSome = (a.claim? z).isSome ∧ (a.occupant? z = none → r.occupant? z = none))
    (fun _ _ k e => ⟨(k.zone_kept z).1.trans e.1, fun n => (k.zone_kept z).2 (e.2 n)⟩) ⟨rfl, fun e => e⟩

/-- Where no chain may be reserved, chains are returned at most. -/
theorem Train.Led.chain_sub (h : Train.Led c p noChain x y) : y.chain ⊆ x.chain := by
  induction h with
  | refl => exact fun _ h => h
  | tail _ k ih =>
    cases k with
    | returned => exact List.nil_subset _
    | reserved chain named => exact named.elim
    | _ => exact ih

theorem Claim.loose_of_occupant {claim : Claim} (h : claim.occupant = some t) : claim.loose = false := by
  cases claim with
  | clear => cases h
  | reserved => cases h
  | guarded => cases h
  | _ => rfl

end Sys2Proof.Machine
end

section
/-! PROOF. The operations of the train table that move no train keep the agreement of claims and records: records that stay, holds,
faults and closes. -/

namespace Sys2Proof.Machine

variable {c : Ctx} {p full : Bool} {P : List ZoneIx → Prop} {hole : Option SlotIx} {gap : Option ZoneIx} {a b d r : Ride}
  {t k : SlotIx} {x y : Train} {z : ZoneIx}

/-- What neither moves a train nor touches the claims they stand on: closes, chains returned, holds, faults and reports. -/
structure Ride.Soft (a b : Ride) : Prop where
  agrees : ∀ {full hole gap}, a.Agrees full hole gap → b.Agrees full hole gap
  claim : ∀ {z cl}, cl.loose = false → a.claim? z = some cl → b.claim? z = some cl
  zone : ∀ z, (b.claim? z).isSome = (a.claim? z).isSome ∧ (a.occupant? z = none → b.occupant? z = none)
  absent : ∀ {t}, a.train? t = none → b.train? t = none
  train : ∀ {t x}, a.train? t = some x → ∃ y, b.train? t = some y ∧ x.Stands y ∧ y.chain ⊆ x.chain

namespace Ride.Soft

theorem refl (a : Ride) : a.Soft a := 
  ⟨fun h => h, fun _ h => h, fun _ => ⟨rfl, fun h => h⟩, fun h => h, fun {_ x} h => ⟨x, h, .refl x, fun _ h => h⟩⟩

theorem trans (h : a.Soft b) (k : b.Soft d) : a.Soft d :=
  ⟨fun e => k.agrees (h.agrees e), fun l e => k.claim l (h.claim l e),
    fun z => ⟨(k.zone z).1.trans (h.zone z).1, fun e => (k.zone z).2 ((h.zone z).2 e)⟩, fun e => k.absent (h.absent e), fun e => by
    obtain ⟨y, hy, hxy, sub⟩ := h.train e
    obtain ⟨w, hw, hyw, sub'⟩ := k.train hy
    exact ⟨w, hw, hxy.trans hyw, fun _ m => sub (sub' m)⟩⟩

theorem of_led (h : Ride.Led c p noChain a b) : a.Soft b :=
  ⟨h.agrees fun _ _ => False.elim, h.claim_kept, h.zone_kept, (h.carries _).1, fun e => by
    obtain ⟨y, hy, k⟩ := (h.carries _).2 _ e
    exact ⟨y, hy, k.stands, k.chain_sub⟩⟩

theorem within {q : Parts} (h : Ride.Within q a b) (zones : q.zones = false) (trains : q.trains = false) : a.Soft b :=
  of_led (c := ⟨0, .vacant, .auto, Vector.replicate 96 false, Inputs.reset⟩) (p := false) (.of_within h zones trains)

theorem occupant (h : a.Soft b) (k : a.occupant? z = some t) : b.occupant? z = some t := by
  unfold Ride.occupant? at k ⊢
  obtain ⟨cl, hc, ho⟩ := Option.bind_eq_some_iff.mp k
  rw [h.claim (Claim.loose_of_occupant ho) hc]
  exact ho

/-- A zone's record replaced with its claim kept. -/
theorem putZone {zr zr' : ZoneRec} (h : r.zone? z = some zr) (claim : zr'.claim = zr.claim) : r.Soft (r.putZone z zr') := by
  have same : ∀ u, (r.putZone z zr').claim? u = r.claim? u := by
    intro u
    rw [putZone_claim?]
    split
    · next e => subst e; rw [Ride.claim?, h, claim]; rfl
    · rfl
  exact ⟨fun e => e.of_same same fun _ => rfl, fun _ e => (same _).trans e, fun u => ⟨by rw [same], fun e => by rw [Ride.occupant?, same]; exact e⟩,
    fun e => e, fun {_ x} e => ⟨x, e, .refl x, fun _ h => h⟩⟩

/-- A zone in no chain stays in none. -/
theorem unchained (h : a.Soft b) (k : ∀ t x, a.train? t = some x → z ∉ x.chain) : ∀ t x, b.train? t = some x → z ∉ x.chain := by
  intro t y hy hm
  cases ha : a.train? t with
  | none => rw [h.absent ha] at hy; cases hy
  | some x =>
    obtain ⟨w, hw, -, sub⟩ := h.train ha
    rw [hy] at hw
    cases hw
    exact k t x ha (sub hm)

theorem overAll {n : Nat} {f : Fin n → Ride → Ride} (h : ∀ i (r : Ride), r.Soft (f i r)) (r : Ride) : r.Soft (overAll f r) :=
  overAll_induct (fun r' => r.Soft r') f (fun i r' k => k.trans (h i r')) r (.refl r)

theorem foldl {α : Type} {f : Ride → α → Ride} (h : ∀ (r : Ride) x, r.Soft (f r x)) (l : List α) (r : Ride) : r.Soft (l.foldl f r) :=
  foldl_induct (fun r' => r.Soft r') f (fun r' x k => k.trans (h r' x)) l r (.refl r)

end Ride.Soft

theorem closeElement_soft (z : ZoneIx) : r.Soft (closeElement c z r) := .of_led (c := c) (p := false) (closeElement_led z)

theorem closeWhere_soft (q : ZoneIx → Bool) : r.Soft (closeWhere c q r) := .of_led (c := c) (p := false) (closeWhere_led q)

theorem raise_soft (n : Notice) : r.Soft (r.raise n) := .within (raise_within n) rfl rfl

theorem report_soft (cause : Cause) : r.Soft (r.report cause) := .within (report_within cause) rfl rfl

theorem addHold_soft (z : ZoneIx) (src : HoldSource) : r.Soft (addHold c z src r) := by
  unfold addHold
  split
  · exact .refl r
  · next x h =>
    split
    · exact .refl r
    · exact (Ride.Soft.putZone (zr' := { x with holds := withBit x.holds src.bit }) h rfl).trans (closeElement_soft z)

theorem removeHold_soft (z : ZoneIx) (src : HoldSource) : r.Soft (removeHold z src r) := by
  unfold removeHold
  split
  · exact .refl r
  · next x h => exact .putZone h rfl

theorem setZoneFault_soft (z : ZoneIx) (cause : ZoneFault) : r.Soft (setZoneFault c z cause r) := by
  have told : r.Soft (if cause = .boundary then r.raise .fault else (r.raise .fault).report .zoneFault) := by
    split
    · exact raise_soft _
    · exact (raise_soft _).trans (report_soft _)
  unfold setZoneFault
  dsimp only
  split
  · exact told
  · next x h =>
    split
    · exact told
    · exact (told.trans (.putZone (zr' := { x with fault := some cause }) h rfl)).trans (closeElement_soft z)

theorem recordEntry_soft (z : ZoneIx) (v : Nat) : r.Soft (recordEntry z v r) := by
  unfold recordEntry
  split
  · next x h => exact .putZone h rfl
  · exact .refl r

/-! ### Records that change -/

/-- A record changed, its train standing where its zones name it, LOST, or left out. -/
theorem changeTrain_agrees (h : r.Agrees full hole gap) (hx : r.train? t = some x) (at_ : some t = hole ∨ y.phase = .lost ∨ r.Names t y)
    (chain : y.chain = x.chain) (guard : y.guard = x.guard) : (changeTrain c t x y r).Agrees full hole gap :=
  (h.putTrain hx chain guard at_).within (changeTrain_after t x y) rfl rfl

/-- The train left out stands where its zones name it after the change. -/
theorem changeTrain_closes (h : r.Agrees full (some t) gap) (hx : r.train? t = some x) (named : r.Names t y)
    (chain : y.chain = x.chain) (guard : y.guard = x.guard) : (changeTrain c t x y r).Agrees full none gap := by
  refine Ride.Agrees.within (Ride.Agrees.close (t := t) (h.putTrain hx chain guard (.inl rfl)) fun w hw _ => ?_) (changeTrain_after t x y) rfl rfl
  rw [putTrain_same] at hw
  cases hw
  exact named

/-- A record whose train stays where it was. -/
theorem changeTrain_still (h : r.Agrees full hole gap) (hx : r.train? t = some x) (head : y.head = x.head)
    (tail : y.tail = x.tail) (lost : x.phase = .lost → y.phase = .lost) (chain : y.chain = x.chain)
    (guard : y.guard = x.guard) : (changeTrain c t x y r).Agrees full hole gap :=
  (h.putTrain_still hx chain guard head tail lost).within (changeTrain_after t x y) rfl rfl

theorem changeTrain_train (t : SlotIx) (x y : Train) : (changeTrain c t x y r).train? t = some y :=
  ((changeTrain_after t x y).train? rfl t).trans (putTrain_same r t y)

theorem changeTrain_other (x y : Train) (h : k ≠ t) : (changeTrain c t x y r).train? k = r.train? k :=
  ((changeTrain_after t x y).train? rfl k).trans (putTrain_other r t k y h)

theorem changeTrain_claim? (t : SlotIx) (x y : Train) (z : ZoneIx) : (changeTrain c t x y r).claim? z = r.claim? z :=
  (changeTrain_within t x y).claim? rfl z

theorem loseTrain_agrees (h : r.Agrees full hole gap) (hx : r.train? t = some x) : (loseTrain c t x r).Agrees full hole gap :=
  (report_soft _).agrees ((raise_soft _).agrees (changeTrain_agrees h hx (.inr (.inl rfl)) rfl rfl))

theorem makeOverdue_agrees (h : r.Agrees full hole gap) (hx : r.train? t = some x) (lost : x.phase ≠ .lost) (aw : Awaited) :
    (makeOverdue c t x aw r).Agrees full hole gap := by
  have k := (addHold_soft (c := c) x.head .overdue).agrees ((raise_soft .overdue).agrees (changeTrain_still (c := c)
    (y := { x with phase := .overdue, deadline := none, awaited := some aw, overdue := countUp x.overdue }) h hx
    rfl rfl (fun e => absurd e lost) rfl rfl))
  unfold makeOverdue
  dsimp only
  split
  · exact (report_soft _).agrees k
  · exact k

theorem bringToRest_agrees (h : r.Agrees full hole gap) (hx : r.train? t = some x) (lost : x.phase ≠ .lost) :
    (bringToRest c t x r).Agrees full hole gap :=
  returnChain_agrees (changeTrain_still h hx rfl rfl (fun e => absurd e lost) rfl rfl) (changeTrain_train t x _)

/-- The train left out settles in a zone that names it. -/
theorem settleTrain_agrees (h : r.Agrees full (some t) gap) (named : r.occupant? z = some t) (dir : Direction) (stamp : Nat) :
    (settleTrain c t z dir stamp r).Agrees full none gap := by
  unfold settleTrain
  split
  · next hn => exact h.close fun x hx _ => by rw [hn] at hx; cases hx
  · next x hx => exact changeTrain_closes h hx ⟨named, fun u hu => by cases hu⟩ rfl rfl

theorem rollBack_agrees (h : r.Agrees full (some t) gap) {bd : BoundaryDesc} {head : ZoneIx} {tail : Option ZoneIx}
    (hh : r.occupant? head = some t) (ht : ∀ u, tail = some u → u ≠ head ∧ r.occupant? u = some t) (was : ZoneIx → Bool) :
    (rollBack c t bd head tail was r).Agrees full none gap := by
  unfold rollBack
  split
  · next hn => exact h.close fun x hx _ => by rw [hn] at hx; cases hx
  · next x hx =>
    have k := changeTrain_closes (c := c)
      (y := { x with phase := .rollback, head := head, tail := tail, dir := .reverse, deadline := none, awaited := none }) h hx ⟨hh, ht⟩ rfl rfl
    have k2 := (addHold_soft (c := c) head .rollback).agrees k
    dsimp only
    split
    · exact (raise_soft _).agrees ((closeWhere_soft _).agrees k2)
    · exact (report_soft _).agrees ((raise_soft _).agrees ((closeWhere_soft _).agrees k2))

theorem crossReverse_agrees (h : r.Agrees full (some t) gap) {head : ZoneIx} {tail : Option ZoneIx} (hh : r.occupant? head = some t)
    (ht : ∀ u, tail = some u → u ≠ head ∧ r.occupant? u = some t) (dir : Direction) (speed : Option Nat) :
    (crossReverse c t head tail dir speed r).Agrees full none gap := by
  unfold crossReverse
  split
  · next hn => exact h.close fun x hx _ => by rw [hn] at hx; cases hx
  · next x hx =>
    dsimp only
    have k : (changeTrain c t x
      { x with
        phase := .rollback, head := head, tail := tail, dir := dir, deadline := none, awaited := none
        lastSpeed := match speed with | some v => some v | none => x.lastSpeed } r).Agrees full none gap :=
      changeTrain_closes h hx ⟨hh, ht⟩ rfl rfl
    split
    · exact k
    · exact (closeWhere_soft _).agrees k

end Sys2Proof.Machine
end

section
/-! PROOF. Chains, guards, crossings and the events of boundaries keep the agreement of claims and records (R24 to R28, R51). -/

namespace Sys2Proof.Machine

variable {c : Ctx} {full : Bool} {hole : Option SlotIx} {gap : Option ZoneIx} {a b d r : Ride} {t k : SlotIx} {x y : Train}
  {z u : ZoneIx} {claim : Claim}

/-! ### Zones dropped from a chain, and guards -/

/-- A record's chain and guard give up a zone at most; the zone stands out. -/
theorem putTrain_gap (h : r.Agrees full hole gap) (hg : gap = none ∨ gap = some z) (hx : r.train? t = some x) (head : y.head = x.head)
    (tail : y.tail = x.tail) (lost : y.phase = x.phase) (chain : y.chain.Sublist x.chain) (kept : ∀ u ∈ x.chain, u ≠ z → u ∈ y.chain)
    (guard : ∀ u b, x.guard = some (u, b) → u ≠ z → y.guard = some (u, b)) : (r.putTrain t y).Agrees full hole (some z) := by
  have other : ∀ u : ZoneIx, some u ≠ some z → u ≠ z ∧ some u ≠ gap := by
    intro u g
    refine ⟨fun e => g (congrArg some e), fun e => ?_⟩
    rcases hg with hg | hg
    · rw [hg] at e; cases e
    · exact g (e.trans hg)
  refine ⟨fun u k g e => ?_, fun u k g e => ?_, fun k w g hw hl => ?_, fun f k w hw => ?_⟩
  · obtain ⟨w, hw, hm⟩ := h.reserved u k (other u g).2 e
    by_cases ek : k = t
    · subst ek
      rw [hx] at hw
      cases hw
      exact ⟨y, putTrain_same _ _ _, kept u hm (other u g).1⟩
    · exact ⟨w, (putTrain_other _ _ _ _ ek).trans hw, hm⟩
  · obtain ⟨w, b, hw, hm⟩ := h.guarded u k (other u g).2 e
    by_cases ek : k = t
    · subst ek
      rw [hx] at hw
      cases hw
      exact ⟨y, b, putTrain_same _ _ _, guard u b hm (other u g).1⟩
    · exact ⟨w, b, (putTrain_other _ _ _ _ ek).trans hw, hm⟩
  · by_cases ek : k = t
    · subst ek
      rw [putTrain_same] at hw
      cases hw
      unfold Ride.Names
      rw [head, tail]
      exact h.named k x g hx (lost ▸ hl)
    · exact h.named k w g ((putTrain_other _ _ _ _ ek).symm.trans hw) hl
  · by_cases ek : k = t
    · subst ek
      rw [putTrain_same] at hw
      cases hw
      obtain ⟨nd, all⟩ := h.chains f k x hx
      exact ⟨nd.sublist chain, fun u hu => all u (chain.subset hu)⟩
    · exact h.chains f k w ((putTrain_other _ _ _ _ ek).symm.trans hw)

theorem onTrain_gap {f : Train → Train} (h : r.Agrees full hole gap) (hg : gap = none ∨ gap = some z) (head : ∀ x, (f x).head = x.head)
    (tail : ∀ x, (f x).tail = x.tail) (lost : ∀ x, (f x).phase = x.phase) (chain : ∀ x, (f x).chain.Sublist x.chain)
    (kept : ∀ x, ∀ u ∈ x.chain, u ≠ z → u ∈ (f x).chain) (guard : ∀ x u b, x.guard = some (u, b) → u ≠ z → (f x).guard = some (u, b)) :
    (r.onTrain t f).Agrees full hole (some z) := by
  unfold Ride.onTrain
  split
  · next x hx => exact putTrain_gap h hg hx (head x) (tail x) (lost x) (chain x) (kept x) (guard x)
  · rcases hg with rfl | rfl
    · exact h.open_ _
    · exact h

theorem dropFromChain_agrees (h : r.Agrees full hole none) : (dropFromChain t z r).Agrees full hole (some z) :=
  onTrain_gap h (.inl rfl) (fun _ => rfl) (fun _ => rfl) (fun _ => rfl) (fun x => List.filter_sublist)
    (fun x u hu e => List.mem_filter.mpr ⟨hu, by simpa using e⟩) (fun _ _ _ e _ => e)

theorem dropGuard_agrees (h : r.Agrees full hole gap) (hg : gap = none ∨ gap = some z) : (dropGuard t z r).Agrees full hole (some z) :=
  onTrain_gap h hg (fun _ => rfl) (fun _ => rfl) (fun _ => rfl) (fun x => List.Sublist.refl _) (fun _ _ hu _ => hu)
    (fun x u b e hu => by simp [e, hu])

theorem onTrain_claim? (t : SlotIx) (f : Train → Train) (z : ZoneIx) : (r.onTrain t f).claim? z = r.claim? z :=
  (onTrain_within t f).claim? rfl z

theorem onTrain_train (t : SlotIx) (f : Train → Train) (k : SlotIx) :
    (r.onTrain t f).train? k = if k = t then (r.train? k).map f else r.train? k := by
  unfold Ride.onTrain
  split
  · next x h =>
    split
    · next e => subst e; rw [putTrain_same, h]; rfl
    · next e => exact putTrain_other _ _ _ _ e
  · next h =>
    split
    · next e => subst e; rw [h]; rfl
    · rfl

/-- A zone RESERVED for no other train is in no chain once it has left the train's. -/
theorem dropFromChain_unchained (h : r.Agrees true hole none) (hz : ∀ k, r.claim? z = some (.reserved k) → k = t) :
    ∀ k x, (dropFromChain t z r).train? k = some x → z ∉ x.chain := by
  intro k x hx hm
  rw [dropFromChain, onTrain_train] at hx
  split at hx
  · obtain ⟨w, -, rfl⟩ := Option.map_eq_some_iff.mp hx
    simp at hm
  · next e => exact e (hz k ((h.chains rfl k x hx).2 z hm))

theorem onTrain_unchained {f : Train → Train} (chain : ∀ x, (f x).chain = x.chain) (h : ∀ k x, r.train? k = some x → z ∉ x.chain) :
    ∀ k x, (r.onTrain t f).train? k = some x → z ∉ x.chain := by
  intro k x hx
  rw [onTrain_train] at hx
  split at hx
  · obtain ⟨w, hw, rfl⟩ := Option.map_eq_some_iff.mp hx
    rw [chain]
    exact h k w hw
  · exact h k x hx

/-- The guard of a train goes to CLEAR at most; every other claim stays (R27). -/
theorem releaseGuard_claim (hz : ∀ k, claim ≠ .guarded k) (h : r.claim? z = some claim) : (releaseGuard c t r).claim? z = some claim := by
  unfold releaseGuard
  split
  · exact h
  · next x hx =>
    split
    · exact h
    · next g _ hg =>
      dsimp only
      split
      · next e =>
        by_cases ez : z = g
        · subst ez
          rw [show (r.putTrain t { x with guard := none }).claim? z = r.claim? z from rfl, h] at e
          exact absurd (Option.some.inj e) (hz t)
        · rw [setClaim_apart ez]
          exact h
      · exact h

theorem releaseGuard_occupant (h : r.occupant? z = some k) : (releaseGuard c t r).occupant? z = some k := by
  unfold Ride.occupant? at h ⊢
  obtain ⟨cl, hc, ho⟩ := Option.bind_eq_some_iff.mp h
  rw [releaseGuard_claim (claim := cl) (fun j e => by subst e; cases ho) hc]
  exact ho

theorem releaseGuard_train (hx : r.train? t = some x) : (releaseGuard c t r).train? t = some { x with guard := none } := by
  simp only [releaseGuard, hx]
  split
  · next hg =>
    rw [hx, show ({ x with guard := none } : Train) = x by rw [← hg]]
  · next g _ hg =>
    split
    · rw [setClaim_train?, putTrain_same]
    · exact putTrain_same _ _ _

theorem releaseGuard_agrees (h : r.Agrees full hole none) : (releaseGuard c t r).Agrees full hole none := by
  unfold releaseGuard
  split
  · exact h
  · next x hx =>
    split
    · exact h
    · next g b hg =>
      have k : (r.putTrain t { x with guard := none }).Agrees full hole (some g) :=
        putTrain_gap h (.inl rfl) hx rfl rfl rfl (List.Sublist.refl _) (fun _ hu _ => hu)
          (fun u b' e hu => absurd (congrArg Prod.fst (Option.some.inj (hg.symm.trans e))).symm hu)
      dsimp only
      split
      · next e =>
        have occ : (r.putTrain t { x with guard := none }).occupant? g = none := by rw [Ride.occupant?, e]; rfl
        exact k.setClaim (.inr rfl) .clear (fun _ => by simp) (fun j ej => by rw [occ] at ej; cases ej)
          (k.unchained fun j ej => by rw [e] at ej; cases ej)
      · next e =>
        refine k.shut (fun j ej => ?_) (fun j ej => ?_)
        · obtain ⟨w, hw, hm⟩ := h.reserved g j (by simp) ej
          by_cases ek : j = t
          · subst ek
            rw [hx] at hw
            cases hw
            exact ⟨_, putTrain_same _ _ _, hm⟩
          · exact ⟨w, (putTrain_other _ _ _ _ ek).trans hw, hm⟩
        · obtain ⟨w, b', hw, hm⟩ := h.guarded g j (by simp) ej
          have ek : j ≠ t := by
            rintro rfl
            exact e ej
          exact ⟨w, b', (putTrain_other _ _ _ _ ek).trans hw, hm⟩

/-- A train takes a zone that names it as its guard; every zone but that and the earlier guard keeps its claim. -/
theorem takeGuard_agrees (h : r.Agrees full (some t) none) (hx : (r.train? t).isSome = true) (b : BoundaryIx) :
    (takeGuard c t z b r).Agrees full (some t) none := by
  unfold takeGuard
  split
  · exact h
  · next ho =>
    rw [not_not] at ho
    obtain ⟨x, hx⟩ := Option.isSome_iff_exists.mp hx
    have k := releaseGuard_agrees (c := c) (t := t) h
    have ho' := releaseGuard_occupant (c := c) (t := t) ho
    have hx' := releaseGuard_train (c := c) hx
    have k2 := k.setClaim_gap (c := c) (z := z) (.inl rfl) (.guarded t) (fun j e => .inl (by rw [ho'] at e; exact e.symm))
      (k.unchained_of_occupant ho')
    have hx2 : (setClaim c z (.guarded t) (releaseGuard c t r)).train? t = some { x with guard := none } := by
      rw [setClaim_train?]
      exact hx'
    have k3 : ((setClaim c z (.guarded t) (releaseGuard c t r)).onTrain t fun x => { x with guard := some (z, b) }).Agrees full (some t) (some z) := by
      simp only [Ride.onTrain, hx2]
      exact putTrain_gap k2 (.inr rfl) hx2 rfl rfl rfl (List.Sublist.refl _) (fun _ hu _ => hu) (fun _ _ e => by cases e)
    have hc : ∀ {cl}, (setClaim c z (.guarded t) (releaseGuard c t r)).claim? z = some cl → cl = .guarded t := by
      intro cl e
      rw [setClaim_claim?, if_pos rfl] at e
      obtain ⟨_, _, e⟩ := Option.map_eq_some_iff.mp e
      exact e.symm
    refine k3.shut (fun j e => ?_) (fun j e => ?_)
    · rw [onTrain_claim?] at e
      cases hc e
    · rw [onTrain_claim?] at e
      cases hc e
      refine ⟨{ x with guard := some (z, b) }, b, ?_, rfl⟩
      rw [onTrain_train, if_pos rfl, hx2]
      rfl

theorem takeGuard_claim (hz : u ≠ z) (plain : ∀ k, claim ≠ .guarded k) (h : r.claim? u = some claim) (b : BoundaryIx) :
    (takeGuard c t z b r).claim? u = some claim := by
  unfold takeGuard
  split
  · exact h
  · rw [onTrain_claim?, setClaim_apart hz]
    exact releaseGuard_claim plain h

/-! ### Zones set for the train that they name -/

/-- A zone that names the train left out takes a claim that names no holder without a record. -/
theorem setClaimOf_agrees (h : r.Agrees full (some t) none) {new : Claim} (plain : ∀ k, new ≠ .reserved k ∧ new ≠ .guarded k) :
    (setClaimOf c t z new r).Agrees full (some t) none := by
  unfold setClaimOf
  split
  · next ho =>
    exact h.setClaim (.inl rfl) new plain (fun j e => .inl (by rw [ho] at e; exact e.symm)) (h.unchained_of_occupant ho)
  · exact h

theorem setClaimOf_self (h : r.occupant? z = some t) (new : Claim) : (setClaimOf c t z new r).claim? z = some new := by
  obtain ⟨cl, hc, -⟩ := Option.bind_eq_some_iff.mp h
  rw [setClaimOf, if_pos h, setClaim_self hc]

theorem setClaimOf_apart (hz : u ≠ z) (new : Claim) : (setClaimOf c t z new r).claim? u = r.claim? u := by
  unfold setClaimOf
  split
  · exact setClaim_apart hz new
  · rfl

theorem setClaimOf_train (t : SlotIx) (z : ZoneIx) (new : Claim) (k : SlotIx) : (setClaimOf c t z new r).train? k = r.train? k :=
  (setClaimOf_within t z new).train? rfl k

theorem occupant_of (h : r.claim? z = some claim) (ho : claim.occupant = some t) : r.occupant? z = some t := by
  rw [Ride.occupant?, h]
  exact ho

theorem occupant_apart (h : b.claim? z = a.claim? z) (ho : a.occupant? z = some t) : b.occupant? z = some t := by
  rw [Ride.occupant?, h]
  exact ho

/-- The one zone that a list of at most four loses, as another goes to its front and four are kept. -/
theorem eq_fifth {l : List ZoneIx} {far : ZoneIx} (len : l.length ≤ Config.chainLimit) (hfar : (z :: l)[Config.chainLimit]? = some far)
    (hm : u ∈ l) (out : u ∉ (z :: l).take Config.chainLimit) : u = far := by
  obtain ⟨n, hn, hu⟩ := List.mem_iff_getElem.mp hm
  by_contra ne
  have pos : n + 1 < Config.chainLimit ∨ n + 1 = Config.chainLimit := by omega
  rcases pos with lt | eq
  · refine out (List.mem_iff_getElem.mpr ⟨n + 1, by simpa using ⟨lt, hn⟩, ?_⟩)
    rw [List.getElem_take]
    simpa using hu
  · rw [← eq, List.getElem?_cons_succ, List.getElem?_eq_getElem hn, hu] at hfar
    exact ne (Option.some.inj hfar)

theorem fifth_out {l : List ZoneIx} {far : ZoneIx} (nd : l.Nodup) (hfar : l[Config.chainLimit]? = some far) :
    far ∉ l.take Config.chainLimit := by
  intro hm
  obtain ⟨hlt, hget⟩ := List.getElem?_eq_some_iff.mp hfar
  obtain ⟨n, hn, hu⟩ := List.mem_iff_getElem.mp hm
  rw [List.getElem_take] at hu
  have hn' : n < Config.chainLimit := by simp at hn; omega
  have := (List.Nodup.getElem_inj_iff nd).mp (hu.trans hget.symm)
  omega

/-- A zone RESERVED for a train goes to the front of its chain, of which all but the zone `far` stay in it. -/
theorem putFront_gap {far : ZoneIx} (h : r.Agrees full (some t) (some z)) (hx : r.train? t = some x) (hz : r.claim? z = some (.reserved t))
    (out : full = true → z ∉ x.chain) (hfar : ∀ u ∈ x.chain, u ∉ (z :: x.chain).take Config.chainLimit → u = far) :
    (r.putTrain t { x with chain := (z :: x.chain).take Config.chainLimit }).Agrees full (some t) (some far) := by
  have mem : z ∈ (z :: x.chain).take Config.chainLimit := by simp [Config.chainLimit]
  refine ⟨fun u j g e => ?_, fun u j g e => ?_, fun j w g hw hl => ?_, fun f j w hw => ?_⟩
  · by_cases eu : u = z
    · subst eu
      cases hz.symm.trans e
      exact ⟨_, putTrain_same _ _ _, mem⟩
    · obtain ⟨w, hw, hm⟩ := h.reserved u j (fun e' => eu (Option.some.inj e')) e
      by_cases ej : j = t
      · subst ej
        cases hx.symm.trans hw
        refine ⟨_, putTrain_same _ _ _, ?_⟩
        by_contra hn
        exact g (congrArg some (hfar u hm hn))
      · exact ⟨w, (putTrain_other _ _ _ _ ej).trans hw, hm⟩
  · have eu : u ≠ z := by
      rintro rfl
      cases hz.symm.trans e
    obtain ⟨w, b, hw, hm⟩ := h.guarded u j (fun e' => eu (Option.some.inj e')) e
    by_cases ej : j = t
    · subst ej
      cases hx.symm.trans hw
      exact ⟨_, b, putTrain_same _ _ _, hm⟩
    · exact ⟨w, b, (putTrain_other _ _ _ _ ej).trans hw, hm⟩
  · have ej : j ≠ t := fun e => g (congrArg some e)
    exact h.named j w g ((putTrain_other _ _ _ _ ej).symm.trans hw) hl
  · by_cases ej : j = t
    · subst ej
      cases (putTrain_same _ _ _).symm.trans hw
      obtain ⟨nd, all⟩ := h.chains f j x hx
      refine ⟨(List.nodup_cons.mpr ⟨out f, nd⟩).sublist (List.take_sublist _ _), fun u hu => ?_⟩
      rcases List.mem_cons.mp (List.take_subset _ _ hu) with rfl | hm
      · exact hz
      · exact all u hm
    · exact h.chains f j w ((putTrain_other _ _ _ _ ej).symm.trans hw)

/-- A zone that names the train goes back to the front of its chain; a fifth zone goes to CLEAR (R26). -/
theorem reinsert_agrees (h : r.Agrees full (some t) none) (hx : r.train? t = some x) (short : x.chain.length ≤ Config.chainLimit) :
    (reinsert c t z r).Agrees full (some t) none := by
  unfold reinsert
  split
  · exact h
  · next ho =>
    rw [not_not] at ho
    have out := h.unchained_of_occupant ho
    obtain ⟨cl, hc, -⟩ := Option.bind_eq_some_iff.mp ho
    have k := h.setClaim_gap (c := c) (z := z) (.inl rfl) (.reserved t) (fun j e => .inl (by rw [ho] at e; exact e.symm)) out
    have hx' : (setClaim c z (.reserved t) r).train? t = some x := (setClaim_train? z _ t).trans hx
    have hz' : (setClaim c z (.reserved t) r).claim? z = some (.reserved t) := setClaim_self hc _
    have out' : full = true → z ∉ x.chain := fun f => out f t x hx
    clear out h
    generalize setClaim c z (.reserved t) r = r1 at k hx' hz'
    simp only [hx']
    split
    · next far hfar =>
      have kf := putFront_gap k hx' hz' out' fun u hm hn => eq_fifth short hfar hm hn
      split
      · next e =>
        refine kf.setClaim (.inr rfl) .clear (fun _ => by simp) (fun j ej => ?_) fun f j w hw hm => ?_
        · rw [Ride.occupant?, e] at ej; cases ej
        · obtain ⟨-, all⟩ := kf.chains f j w hw
          have ej : j = t := Claim.reserved.inj (Option.some.inj ((all far hm).symm.trans e))
          subst ej
          cases (putTrain_same _ _ _).symm.trans hw
          exact fifth_out (List.nodup_cons.mpr ⟨out' f, (k.chains f j x hx').1⟩) hfar hm
      · next e =>
        refine kf.shut (fun j ej => ?_) (fun j ej => ?_)
        · have ne : j ≠ t := by
            rintro rfl
            exact e ej
          have ez : far ≠ z := by
            rintro rfl
            cases hz'.symm.trans ej
            exact ne rfl
          obtain ⟨w, hw, hm⟩ := k.reserved far j (fun e' => ez (Option.some.inj e')) ej
          exact ⟨w, (putTrain_other _ _ _ _ ne).trans hw, hm⟩
        · have ez : far ≠ z := by
            rintro rfl
            cases hz'.symm.trans ej
          obtain ⟨w, b, hw, hm⟩ := k.guarded far j (fun e' => ez (Option.some.inj e')) ej
          by_cases ne : j = t
          · subst ne
            cases hx'.symm.trans hw
            exact ⟨_, b, putTrain_same _ _ _, hm⟩
          · exact ⟨w, b, (putTrain_other _ _ _ _ ne).trans hw, hm⟩
    · next hn =>
      have len : (z :: x.chain).length ≤ Config.chainLimit := List.getElem?_eq_none_iff.mp hn
      have kf := putFront_gap (far := z) k hx' hz' out' fun u hm hn' =>
        absurd (by rw [List.take_of_length_le len]; exact List.mem_cons_of_mem _ hm) hn'
      refine kf.shut (fun j ej => ?_) (fun j ej => ?_)
      · cases hz'.symm.trans ej
        exact ⟨_, putTrain_same _ _ _, by simp [Config.chainLimit]⟩
      · cases hz'.symm.trans ej

theorem reinsert_claim (hz : u ≠ z) (hc : claim.loose = false) (h : r.claim? u = some claim) : (reinsert c t z r).claim? u = some claim := by
  unfold reinsert
  split
  · exact h
  · have h1 : (setClaim c z (.reserved t) r).claim? u = some claim := (setClaim_apart hz _).trans h
    dsimp only
    split
    · exact h1
    · split
      · next far _ =>
        split
        · next e =>
          rw [setClaim_apart]
          · exact h1
          · rintro rfl
            have := h1.symm.trans e
            cases this
            cases hc
        · exact h1
      · exact h1

end Sys2Proof.Machine
end

section
/-! PROOF. The crossings and the events of boundaries, berths, stalls and deadlines keep the agreement of claims and records. -/

namespace Sys2Proof.Machine

variable {c : Ctx} {full : Bool} {a b d r : Ride} {t k : SlotIx} {x y : Train} {z u : ZoneIx} {claim : Claim}

/-- A ride whose claims and records agree, with no train and no zone left out. -/
abbrev Ride.Sound (full : Bool) (r : Ride) : Prop := r.Agrees full none none

/-! ### Crossings -/

/-- An unreserved entry leaves the zone in no chain and without a train on it (R24). -/
theorem takeFrom_agrees (h : r.Sound full) (hz : r.claim? z = some claim) (ho : claim.occupant = none) :
    (takeFrom c claim z r).Agrees full none (some z) ∧ (takeFrom c claim z r).occupant? z = none ∧
    ((takeFrom c claim z r).claim? z).isSome = true ∧
    (full = true → ∀ k x, (takeFrom c claim z r).train? k = some x → z ∉ x.chain) ∧
    ∀ u cl, cl.loose = false → r.claim? u = some cl → (takeFrom c claim z r).claim? u = some cl := by
  have occ : r.occupant? z = none := by rw [Ride.occupant?, hz]; exact ho
  have some_ : (r.claim? z).isSome = true := by rw [hz]; rfl
  have plain : (∀ k, claim ≠ .reserved k) → full = true → ∀ k x, r.train? k = some x → z ∉ x.chain := fun hp =>
    h.unchained fun k e => hp k (Option.some.inj (hz.symm.trans e))
  cases claim with
  | reserved v =>
    obtain ⟨x, hx, -⟩ := h.reserved z v (by simp) hz
    simp only [takeFrom, hx]
    have soft := closeElement_soft (c := c) (r := dropFromChain v z r) x.head
    refine ⟨soft.agrees (dropFromChain_agrees h), (soft.zone z).2 ?_, (soft.zone z).1.trans ?_, fun f => soft.unchained ?_,
      fun u cl hl hu => soft.claim hl ?_⟩
    · exact (occupant_of_claim (onTrain_claim? v _ z)).trans occ
    · rw [dropFromChain, onTrain_claim?]; exact some_
    · subst f
      exact dropFromChain_unchained h fun k e => (Claim.reserved.inj (Option.some.inj (hz.symm.trans e))).symm
    · rw [dropFromChain, onTrain_claim?]; exact hu
  | guarded v =>
    refine ⟨dropGuard_agrees h (.inl rfl), ?_, ?_, fun f => onTrain_unchained (fun _ => rfl) (plain (by simp) f), fun u cl _ hu => ?_⟩
    · exact (occupant_of_claim (onTrain_claim? v _ z)).trans occ
    · simp only [takeFrom, dropGuard, onTrain_claim?]; exact some_
    · simp only [takeFrom, dropGuard, onTrain_claim?]; exact hu
  | _ => exact ⟨h.open_ _, occ, some_, plain (by simp), fun _ _ _ hu => hu⟩

/-- A crossing that the zones allow: they agree with the records, the zone ahead is the nose's and the zone left the tail's (R24). -/
theorem settleCrossing_agrees {src dst : ZoneIx} {r' : Ride} (h : r.Sound full) (e : settleCrossing c t src dst r = some r') :
    r'.Sound full ∧ r'.claim? dst = some (.entry t) ∧ r'.claim? src = some (.exit t) ∧ src ≠ dst := by
  unfold settleCrossing at e
  split at e
  · cases e
  · next hs =>
    rw [not_not] at hs
    split at e
    · cases e
    · next claim hd =>
      split at e
      · cases e
      · next ho =>
        have ho' : claim.occupant = none := by simpa using ho
        have ne : src ≠ dst := by
          rintro rfl
          cases hs.symm.trans hd
          cases ho'
        -- once the zone ahead stands out, in no chain and free, the two claims are set
        have set : ∀ {a : Ride}, a.Agrees full none (some dst) → a.occupant? dst = none → (a.claim? dst).isSome = true →
            (full = true → ∀ k x, a.train? k = some x → dst ∉ x.chain) → a.claim? src = some (.occupied t) →
            (setClaim c src (.exit t) (setClaim c dst (.entry t) a)).Sound full ∧
            (setClaim c src (.exit t) (setClaim c dst (.entry t) a)).claim? dst = some (.entry t) ∧
            (setClaim c src (.exit t) (setClaim c dst (.entry t) a)).claim? src = some (.exit t) := by
          intro a ha occ hsome out hsrc
          have k := ha.setClaim (c := c) (.inr rfl) (.entry t) (fun _ => by simp) (fun j ej => by rw [occ] at ej; cases ej) out
          have hsrc' : (setClaim c dst (.entry t) a).claim? src = some (.occupied t) := (setClaim_apart ne _).trans hsrc
          obtain ⟨cl, hcl⟩ := Option.isSome_iff_exists.mp hsome
          refine ⟨k.setClaim (.inl rfl) (.exit t) (fun _ => by simp) (fun j ej => .inr ?_)
            (k.unchained fun j ej => by rw [hsrc'] at ej; cases ej), ?_, setClaim_self hsrc' _⟩
          · rw [Ride.occupant?, hsrc'] at ej; exact ej
          · rw [setClaim_apart ne.symm, setClaim_self hcl]
        split at e
        · next hh =>
          cases e
          have claims : ∀ u, (dropGuard t dst (dropFromChain t dst r)).claim? u = r.claim? u := fun u => by
            rw [dropGuard, onTrain_claim?, dropFromChain, onTrain_claim?]
          obtain ⟨s1, s2, s3⟩ := set (a := dropGuard t dst (dropFromChain t dst r)) (dropGuard_agrees (dropFromChain_agrees h) (.inr rfl))
            (by rw [Ride.occupant?, claims, hd]; exact ho') (by rw [claims, hd]; rfl)
            (fun f => by
              subst f
              refine onTrain_unchained (fun _ => rfl) (dropFromChain_unchained h fun k ek => ?_)
              cases hd.symm.trans ek
              exact Option.some.inj hh)
            ((claims src).trans hs)
          exact ⟨s1, s2, s3, ne⟩
        · cases e
          obtain ⟨t1, t2, t3, t4, t5⟩ := takeFrom_agrees (c := c) h hd ho'
          obtain ⟨s1, s2, s3⟩ := set t1 t2 t3 t4 (t5 src _ rfl hs)
          have soft := setZoneFault_soft (c := c)
            (r := setClaim c src (.exit t) (setClaim c dst (.entry t) (takeFrom c claim dst r))) dst .overrun
          exact ⟨soft.agrees s1, soft.claim rfl s2, soft.claim rfl s3, ne⟩

theorem unexpected_agrees (h : r.Sound full) (z : ZoneIx) : (unexpected c z r).Sound full := (setZoneFault_soft z _).agrees h

/-! ### Forward events -/

variable {bd : BoundaryDesc} {bi : BoundaryIx} {stamp : Nat}

theorem onApproach_agrees (h : r.Sound full) : (onApproach c bd stamp r).Sound full := by
  unfold onApproach
  split
  · exact unexpected_agrees h _
  · next t x hm =>
    obtain ⟨hx, -, lost⟩ := matching_spec hm
    have still : ∀ {y : Train}, y.head = x.head → y.tail = x.tail → y.chain = x.chain → y.guard = x.guard →
        (changeTrain c t x y r).Sound full := fun h1 h2 h3 h4 => changeTrain_still h hx h1 h2 (fun e => absurd e lost) h3 h4
    have overrun : ∀ {a : Ride}, a.Sound full →
        (if a.claim? bd.down = some (.reserved t) then a else setZoneFault c bd.down .overrun a).Sound full := by
      intro a ha
      split
      · exact ha
      · exact (setZoneFault_soft _ _).agrees ha
    split
    · exact loseTrain_agrees h hx
    · have moving : ∀ b : Bool, (if b = true then (changeTrain c t x { x with phase := .leaving, deadline := none, early := if b then countUp x.early else x.early } r).raise .early
          else changeTrain c t x { x with phase := .leaving, deadline := none, early := if b then countUp x.early else x.early } r).Sound full := by
        intro b
        cases b
        · exact still rfl rfl rfl rfl
        · exact (raise_soft _).agrees (still rfl rfl rfl rfl)
      have gone : ((changeTrain c t x { x with phase := .leaving, deadline := none, dir := .forward } r).raise .overrun).Sound full :=
        (raise_soft _).agrees (still rfl rfl rfl rfl)
      split
      · exact moving _
      · exact moving _
      · exact overrun gone
      · exact overrun gone
      · exact still rfl rfl rfl rfl
      · exact loseTrain_agrees h hx
      · exact loseTrain_agrees h hx
      · exact loseTrain_agrees h hx
      · exact h

theorem entered_agrees (h : r.Sound full) {v : Nat} (hd : r.claim? bd.down = some (.entry t)) (hu : r.claim? bd.up = some (.exit t))
    (ne : bd.up ≠ bd.down) : (entered c t bi bd v stamp r).Sound full := by
  unfold entered
  split
  · next x d hx _ =>
    dsimp only
    generalize hr1 : changeTrain c t x _ r = r1
    have h1 : r1.Sound full := by
      subst hr1
      exact changeTrain_agrees h hx (.inr (.inr ⟨occupant_of hd rfl, fun u e => by cases e; exact ⟨ne, occupant_of hu rfl⟩⟩)) rfl rfl
    have h2 : (if d.window v = .inWindow then r1 else setZoneFault c bd.down .speed r1).Sound full := by
      split
      · exact h1
      · exact (setZoneFault_soft _ _).agrees h1
    split
    · split
      · exact releaseGuard_agrees h2
      · exact h2
    · exact h2
  · exact h

theorem onNoseIn_agrees {interval : Nat} (h : r.Sound full) : (onNoseIn c bi bd interval stamp r).Sound full := by
  unfold onNoseIn
  split
  · exact unexpected_agrees h _
  · next t x hm =>
    obtain ⟨hx, -, lost⟩ := matching_spec hm
    split
    · exact loseTrain_agrees h hx
    · have h1 := (recordEntry_soft bd.down (crossingSpeed bd.gate interval)).agrees h
      dsimp only
      split
      · exact loseTrain_agrees h1 ((recordEntry_train _ _ _).trans hx)
      · next h2 =>
        obtain ⟨s, hd, hu, ne⟩ := settleCrossing_agrees h1 h2
        exact entered_agrees s hd hu ne

/-- A train that straddles a boundary has its two zones on either side of it, both named for it (R51). -/
theorem straddling_named (h : r.Sound full) (hm : r.straddling bd = some (t, x)) :
    r.train? t = some x ∧ bd.up ≠ bd.down ∧ r.occupant? bd.up = some t ∧ r.occupant? bd.down = some t := by
  obtain ⟨hx, hp, lost⟩ := matching_spec hm
  obtain ⟨hh, ht⟩ := h.named t x (by simp) hx lost
  simp only [Bool.or_eq_true, Bool.and_eq_true, beq_iff_eq] at hp
  rcases hp with ⟨e1, e2⟩ | ⟨e1, e2⟩
  · obtain ⟨ne, occ⟩ := ht _ e2
    rw [e1] at hh ne
    exact ⟨hx, ne.symm, hh, occ⟩
  · obtain ⟨ne, occ⟩ := ht _ e2
    rw [e1] at hh ne
    exact ⟨hx, ne, occ, hh⟩

/-- The zones beside a boundary as a tail clears it: the train is left out until its record follows. -/
theorem clearBehind_agrees (h : r.Agrees full (some t) none) (hx : (r.train? t).isSome = true) (ne : bd.up ≠ bd.down)
    (hd : r.occupant? bd.down = some t) :
    (clearBehind c t bi bd r).Agrees full (some t) none ∧ (clearBehind c t bi bd r).claim? bd.down = some (.occupied t) := by
  obtain ⟨cl, hc, ho⟩ := Option.bind_eq_some_iff.mp hd
  unfold clearBehind
  split
  · have hd' : (takeGuard c t bd.up bi r).occupant? bd.down = some t :=
      occupant_of (takeGuard_claim ne.symm (fun k e => by subst e; cases ho) hc bi) ho
    exact ⟨setClaimOf_agrees (takeGuard_agrees h hx bi) (fun _ => by simp), setClaimOf_self hd' _⟩
  · have hd' : (setClaimOf c t bd.up .clear r).occupant? bd.down = some t := occupant_apart (setClaimOf_apart ne.symm _) hd
    exact ⟨setClaimOf_agrees (setClaimOf_agrees h (fun _ => by simp)) (fun _ => by simp), setClaimOf_self hd' _⟩

theorem onTailClear_agrees (h : r.Sound full) : (onTailClear c bi bd stamp r).Sound full := by
  unfold onTailClear
  split
  · exact unexpected_agrees h _
  · next t x hm =>
    obtain ⟨hx, ne, -, hd⟩ := straddling_named h hm
    obtain ⟨k, hk⟩ := clearBehind_agrees (c := c) (bi := bi) (h.leave _) (by rw [hx]; rfl) ne hd
    have soft := closeElement_soft (c := c) (r := clearBehind c t bi bd r) bd.up
    have h1 := soft.agrees k
    have hk1 := soft.claim rfl hk
    generalize closeElement c bd.up (clearBehind c t bi bd r) = r1 at h1 hk1
    have named : ∀ {y : Train}, y.head = bd.down → y.tail = none → r1.Names t y := fun e1 e2 =>
      ⟨e1 ▸ occupant_of hk1 rfl, fun u hu => by rw [e2] at hu; cases hu⟩
    dsimp only
    split
    · next hn => exact h1.close fun w hw _ => by rw [hn] at hw; cases hw
    · next w hw =>
      split
      · split
        · exact changeTrain_closes h1 hw (named rfl rfl) rfl rfl
        · exact changeTrain_closes h1 hw (named rfl rfl) rfl rfl
      · exact settleTrain_agrees h1 (occupant_of hk1 rfl) _ _
      · exact changeTrain_closes h1 hw (named rfl rfl) rfl rfl

/-! ### Rollback -/

theorem onRetreat_agrees (h : r.Sound full) : (onRetreat c bd stamp r).Sound full := by
  unfold onRetreat
  split
  · exact unexpected_agrees h _
  · next t x hm =>
    obtain ⟨hx, hp, lost⟩ := matching_spec hm
    split
    · exact loseTrain_agrees h hx
    · have hh := (h.named t x (by simp) hx lost).1
      rw [beq_iff_eq] at hp
      rw [hp] at hh
      have k := rollBack_agrees (c := c) (bd := bd) (tail := none) (h.leave (some t)) hh (fun u e => by cases e)
        (fun z => r.occupant? z == some t)
      -- the claims stand through the rollback
      refine settleTrain_agrees (k.leave _) ?_ _ _
      obtain ⟨cl, hc, ho⟩ := Option.bind_eq_some_iff.mp hh
      refine occupant_of (claim := cl) ?_ ho
      exact Changes.claim_kept (rollBack_changes (o := false) (q := false) t bd bd.up none _) bd.up cl (Claim.loose_of_occupant ho) hc

theorem onNoseBack_agrees (h : r.Sound full) (short : r.short) : (onNoseBack c bd r).Sound full := by
  unfold onNoseBack
  split
  · exact unexpected_agrees h _
  · next t x hm =>
    obtain ⟨hx, ne, hu, -⟩ := straddling_named h hm
    have k := setClaimOf_agrees (c := c) (z := bd.up) (new := .occupied t) (h.leave (some t)) (fun _ => by simp)
    have k2 := reinsert_agrees (c := c) (z := bd.down) k ((setClaimOf_train _ _ _ _).trans hx) (short.1 t x hx)
    exact rollBack_agrees k2 (occupant_of (reinsert_claim ne rfl (setClaimOf_self hu _)) rfl) (fun u e => by cases e) _

theorem onBacking_agrees (h : r.Sound full) : (onBacking c bd r).Sound full := by
  unfold onBacking
  split
  · exact unexpected_agrees h _
  · next t x hm =>
    obtain ⟨hx, ne, hu, hd⟩ := straddling_named h hm
    have k := setClaimOf_agrees (c := c) (z := bd.up) (new := .entry t) (h.leave (some t)) (fun _ => by simp)
    have k2 := setClaimOf_agrees (c := c) (z := bd.down) (new := .exit t) k (fun _ => by simp)
    have hd' : (setClaimOf c t bd.up (.entry t) r).occupant? bd.down = some t := occupant_apart (setClaimOf_apart ne.symm _) hd
    refine rollBack_agrees k2 (occupant_of ((setClaimOf_apart ne _).trans (setClaimOf_self hu _)) rfl) (fun u e => ?_) _
    cases e
    exact ⟨ne.symm, occupant_of (setClaimOf_self hd' _) rfl⟩

theorem onReverseApproach_agrees (h : r.Sound full) : (onReverseApproach c bi bd r).Sound full := by
  unfold onReverseApproach
  split
  · exact unexpected_agrees h _
  · next t x hm =>
    obtain ⟨hx, -, lost⟩ := matching_spec hm
    split
    · exact loseTrain_agrees h hx
    · exact (raise_soft _).agrees ((closeWhere_soft _).agrees (changeTrain_still h hx rfl rfl (fun e => absurd e lost) rfl rfl))

theorem onReverseNoseIn_agrees {interval : Nat} (h : r.Sound full) : (onReverseNoseIn c bi bd interval r).Sound full := by
  unfold onReverseNoseIn
  split
  · exact unexpected_agrees h _
  · next t x hm =>
    obtain ⟨hx, -, -⟩ := matching_spec hm
    split
    · exact loseTrain_agrees h hx
    · have h1 := (recordEntry_soft bd.up (crossingSpeed bd.gate interval)).agrees h
      dsimp only
      split
      · exact loseTrain_agrees h1 ((recordEntry_train _ _ _).trans hx)
      · next h2 =>
        obtain ⟨s, hu, hd, ne⟩ := settleCrossing_agrees h1 h2
        refine (addHold_soft _ _).agrees (crossReverse_agrees (s.leave _) (occupant_of hu rfl) (fun u e => ?_) _ _)
        cases e
        exact ⟨ne, occupant_of hd rfl⟩

theorem onReverseNoseBack_agrees (h : r.Sound full) : (onReverseNoseBack c bi bd r).Sound full := by
  unfold onReverseNoseBack
  split
  · exact unexpected_agrees h _
  · next t x hm =>
    obtain ⟨hx, ne, -, hd⟩ := straddling_named h hm
    obtain ⟨cl, hc, ho⟩ := Option.bind_eq_some_iff.mp hd
    have k := takeGuard_agrees (c := c) (z := bd.up) (h.leave (some t)) (by rw [hx]; rfl) bi
    have hd' : (takeGuard c t bd.up bi r).occupant? bd.down = some t :=
      occupant_of (takeGuard_claim ne.symm (fun k e => by subst e; cases ho) hc bi) ho
    exact crossReverse_agrees (setClaimOf_agrees k (fun _ => by simp)) (occupant_of (setClaimOf_self hd' _) rfl) (fun u e => by cases e) _ _

theorem onReverseBacking_agrees (h : r.Sound full) : (onReverseBacking c bd r).Sound full := by
  unfold onReverseBacking
  split
  · exact unexpected_agrees h _
  · next t x hm =>
    obtain ⟨hx, ne, hu, hd⟩ := straddling_named h hm
    have k := setClaimOf_agrees (c := c) (z := bd.up) (new := .exit t) (h.leave (some t)) (fun _ => by simp)
    have k2 := setClaimOf_agrees (c := c) (z := bd.down) (new := .entry t) k (fun _ => by simp)
    have hd' : (setClaimOf c t bd.up (.exit t) r).occupant? bd.down = some t := occupant_apart (setClaimOf_apart ne.symm _) hd
    refine crossReverse_agrees k2 (occupant_of (setClaimOf_self hd' _) rfl) (fun u e => ?_) _ _
    cases e
    exact ⟨ne, occupant_of ((setClaimOf_apart ne _).trans (setClaimOf_self hu _)) rfl⟩

theorem onReverseRetreat_agrees (h : r.Sound full) : (onReverseRetreat c bi bd stamp r).Sound full := by
  unfold onReverseRetreat
  split
  · exact unexpected_agrees h _
  · next t x hm =>
    obtain ⟨hx, hp, lost⟩ := matching_spec hm
    split
    · exact loseTrain_agrees h hx
    · split
      · have hh := (h.named t x (by simp) hx lost).1
        rw [beq_iff_eq] at hp
        rw [hp] at hh
        exact settleTrain_agrees (h.leave _) hh _ _
      · exact h

theorem onReverseTailClear_agrees (h : r.Sound full) (short : r.short) : (onReverseTailClear c bd stamp r).Sound full := by
  unfold onReverseTailClear
  split
  · exact unexpected_agrees h _
  · next t x hm =>
    obtain ⟨hx, ne, hu, -⟩ := straddling_named h hm
    have k := setClaimOf_agrees (c := c) (z := bd.up) (new := .occupied t) (h.leave (some t)) (fun _ => by simp)
    have k2 := reinsert_agrees (c := c) (z := bd.down) k ((setClaimOf_train _ _ _ _).trans hx) (short.1 t x hx)
    have soft := closeElement_soft (c := c) (r := reinsert c t bd.down (setClaimOf c t bd.up (.occupied t) r)) bd.down
    have h1 := soft.agrees k2
    have hk1 := soft.claim rfl (reinsert_claim ne rfl (setClaimOf_self (c := c) hu (.occupied t)))
    generalize closeElement c bd.down (reinsert c t bd.down (setClaimOf c t bd.up (.occupied t) r)) = r1 at h1 hk1
    dsimp only
    split
    · next hn => exact h1.close fun w hw _ => by rw [hn] at hw; cases hw
    · next w hw =>
      split
      · exact settleTrain_agrees h1 (occupant_of hk1 rfl) _ _
      · exact changeTrain_closes h1 hw ⟨occupant_of hk1 rfl, fun u e => by cases e⟩ rfl rfl

/-- Every event of a boundary keeps the agreement (R85). -/
theorem handEvent_agrees {e : PassageEvent} (h : r.Sound full) (short : r.short) : (handEvent c bi bd stamp e r).Sound full := by
  unfold handEvent
  split
  · exact onApproach_agrees h
  · exact onRetreat_agrees h
  · exact onNoseIn_agrees h
  · exact onNoseBack_agrees h short
  · exact onBacking_agrees h
  · exact onTailClear_agrees h
  · exact onReverseApproach_agrees h
  · exact onReverseRetreat_agrees h
  · exact onReverseNoseIn_agrees h
  · exact onReverseNoseBack_agrees h
  · exact onReverseBacking_agrees h
  · exact onReverseTailClear_agrees h short
  · exact (report_soft _).agrees ((setZoneFault_soft _ _).agrees ((setZoneFault_soft _ _).agrees h))

/-! ### Berths, stalls and deadlines -/

theorem onBerth_agrees (h : r.Sound full) : (onBerth c z r).Sound full := by
  unfold onBerth
  split
  · exact h
  · next t x hm =>
    obtain ⟨hx, -, lost⟩ := matching_spec hm
    split
    · exact bringToRest_agrees h hx lost
    · exact h

theorem onStall_agrees {dir : Direction} (h : r.Sound full) : (onStall c bd dir r).Sound full := by
  unfold onStall
  dsimp only
  split
  · exact unexpected_agrees h _
  · next t x hm =>
    obtain ⟨hx, -, lost⟩ := matching_spec hm
    exact makeOverdue_agrees h hx lost _

theorem onJourneyExpiry_agrees (h : r.Sound full) : (onJourneyExpiry c t r).Sound full := by
  unfold onJourneyExpiry
  split
  · exact h
  · next x hx =>
    split
    · split
      · next hp => exact makeOverdue_agrees h hx (by rcases hp.2 with e | e <;> simp [e]) _
      · exact h
    · exact h

theorem onStopExpiry_agrees (h : r.Sound full) : (onStopExpiry c t r).Sound full := by
  unfold onStopExpiry
  split
  · exact h
  · next x hx =>
    split
    · split
      · split
        · next hp =>
          split
          · exact makeOverdue_agrees h hx (by simp [hp]) _
          · exact bringToRest_agrees h hx (by simp [hp])
        · next hp => exact makeOverdue_agrees h hx (by simp [hp]) _
        · exact h
      · exact h
    · exact h

end Sys2Proof.Machine
end

section
/-! PROOF. Drives at rest and no demand (R136, R150): what no operation but an open command and a new demand ends. -/

namespace Sys2Proof.Machine

variable {c : Ctx} {a b r : Ride} {t : SlotIx} {x y : Train} {z : ZoneIx}

/-- Every configured channel has the target 0, and no station holds a demand. -/
structure Ride.AtRest (c : Ctx) (r : Ride) : Prop where
  drives : ∀ i x, r.channel? i = some x → (c.map.drive i).isSome = true → x.target = 0
  demands : ∀ st x, r.station? st = some x → x.state.isPending = false

theorem Ride.AtRest.within {p : Parts} (h : a.AtRest c) (k : Ride.Within p a b) (hc : p.channels = false)
    (hs : p.stations = false) : b.AtRest c :=
  ⟨fun i x hx => h.drives i x (k.channel? hc i ▸ hx), fun st x hx => h.demands st x (k.station? hs st ▸ hx)⟩

theorem putStation_rest {st : StationIx} {x : StationRec} (h : r.AtRest c) (hx : x.state.isPending = false) : (r.putStation st x).AtRest c := by
  refine ⟨h.drives, fun u y hy => ?_⟩
  change tget (tput r.stations st (some x)) u = some y at hy
  rw [tget_tput] at hy
  split at hy
  · cases hy
    exact hx
  · exact h.demands u y hy

theorem putChannel_rest {i : ChannelIx} {x : Channel} (h : r.AtRest c) (hx : (c.map.drive i).isSome = true → x.target = 0) :
    (r.putChannel i x).AtRest c := by
  refine ⟨fun u y hy hu => ?_, h.demands⟩
  change tget (tput r.channels i (some x)) u = some y at hy
  rw [tget_tput] at hy
  split at hy
  · next e =>
    cases hy
    exact hx (e ▸ hu)
  · exact h.drives u y hy hu

/-! ### Stations -/

/-- Only a demand makes a station PENDING (R148, R149). -/
theorem next_pending {p : Bool} {st : StationState} {e : StationEvent} (h : (st.next p e).isPending = true) :
    st.isPending = true ∨ ∃ source due, e = .demand source due := by
  cases e with
  | demand source due => exact .inr ⟨source, due, rfl⟩
  | _ => cases st <;> cases p <;> simp_all [StationState.next, StationState.isPending, loadedState]

theorem stationEvent_rest {st : StationIx} {e : StationEvent} (h : r.AtRest c) (he : ∀ source due, e ≠ .demand source due) :
    (stationEvent c st e r).AtRest c := by
  unfold stationEvent
  split
  · exact h
  · next x hx =>
    have h1 : (r.putStation st { x with state := x.state.next (c.stationProofs st) e }).AtRest c := by
      refine putStation_rest h ?_
      by_contra hn
      rcases next_pending (by simpa using hn) with k | ⟨source, due, rfl⟩
      · rw [h.demands st x hx] at k
        cases k
      · exact he source due rfl
    dsimp only
    split <;> split
    · exact (h1.within (raise_within _) rfl rfl).within (report_within _) rfl rfl
    · exact h1.within (report_within _) rfl rfl
    · exact h1.within (raise_within _) rfl rfl
    · exact h1

theorem zoneStationEvent_rest {e : StationEvent} (h : r.AtRest c) (he : ∀ source due, e ≠ .demand source due) :
    (zoneStationEvent c z e r).AtRest c := by
  unfold zoneStationEvent
  split
  · exact stationEvent_rest h he
  · exact h

theorem occupantStationEvent_rest {e : StationEvent} (h : r.AtRest c) (he : ∀ source due, e ≠ .demand source due) :
    (occupantStationEvent c t z e r).AtRest c := by
  unfold occupantStationEvent
  split
  · exact zoneStationEvent_rest h he
  · exact h

/-- A pair forms no demand under a latched ride stop (R148). -/
theorem pairingChange_rest {st : StationIx} {side : Side} {on : Bool} (latched : r.latched = true) (h : r.AtRest c) :
    (pairingChange c st side on r).AtRest c := by
  unfold pairingChange
  split
  · next x d hx hd =>
    dsimp only
    split
    · exact h
    · generalize (if on = true then x.pairing.press side (dueAfter c.now d.pairWindow)
        else x.pairing.letGo side (match side with | .a => c.active d.dispatchB | .b => c.active d.dispatchA)) = res
      have h1 : (r.putStation st { x with pairing := res.pairing }).AtRest c := putStation_rest h (h.demands st x hx)
      have h2 : (if res.late = true then (r.putStation st { x with pairing := res.pairing }).raise .latePair
          else r.putStation st { x with pairing := res.pairing }).AtRest c := by
        split
        · exact h1.within (raise_within _) rfl rfl
        · exact h1
      have l2 : (if res.late = true then (r.putStation st { x with pairing := res.pairing }).raise .latePair
          else r.putStation st { x with pairing := res.pairing }).latched = true := by
        split <;> exact latched
      split
      · unfold formDemand
        rw [if_neg fun k => by rw [l2] at k; exact Bool.noConfusion k.2.1]
        exact h2
      · exact h2
  · exact h

/-! ### Claims and trains -/

theorem setClaim_rest {new : Claim} (h : r.AtRest c) : (setClaim c z new r).AtRest c := by
  unfold setClaim
  split
  · exact h
  · next x _ =>
    have h1 : (claimToSwitch c z x.claim new (r.putZone z { x with claim := new })).AtRest c :=
      (h.within (putZone_within z { x with claim := new }) rfl rfl).within (claimToSwitch_within z _ new) rfl rfl
    unfold claimToStation
    split
    · exact zoneStationEvent_rest h1 (by simp)
    · exact zoneStationEvent_rest h1 (by simp)
    · exact h1

theorem changeTrain_rest (h : r.AtRest c) : (changeTrain c t x y r).AtRest c := by
  have tell : ∀ (p : Prop) [Decidable p] (a : Ride) z e, (∀ source due, e ≠ StationEvent.demand source due) → a.AtRest c →
      (if p then occupantStationEvent c t z e a else a).AtRest c := by
    intro p _ a z e he ha
    split
    · exact occupantStationEvent_rest ha he
    · exact ha
  unfold changeTrain
  exact tell _ _ _ _ (by simp) (tell _ _ _ _ (by simp) (tell _ _ _ _ (by simp) (h.within (putTrain_within t y) rfl rfl)))

theorem returnChain_rest (h : r.AtRest c) : (returnChain c t r).AtRest c := by
  unfold returnChain
  split
  · exact h
  · refine foldl_induct (Ride.AtRest c) _ (fun r z k => ?_) _ _ (h.within (putTrain_within t _) rfl rfl)
    split
    · exact setClaim_rest k
    · exact k

theorem provenOpen_rest (h : r.AtRest c) : (provenOpen c z r).AtRest c := by
  unfold provenOpen
  split
  · exact h
  · split
    · exact h
    · split
      · exact changeTrain_rest h
      · exact h

theorem provenClosed_rest (h : r.AtRest c) : (provenClosed c z r).AtRest c := by
  unfold provenClosed
  split
  · exact h
  · split
    · exact h
    · split
      · exact zoneStationEvent_rest (returnChain_rest h) (by simp)
      · exact h

/-! ### Elements -/

theorem brakeBecomes_rest {st : BrakeState} {cmd : ElementCommand} (h : r.AtRest c) : (brakeBecomes c z st cmd r).AtRest c := by
  have h1 : (r.putElement z (.brake st cmd)).AtRest c := h.within (putElement_within z _) rfl rfl
  unfold brakeBecomes
  dsimp only
  split
  · exact provenOpen_rest h1
  · exact provenClosed_rest h1
  · exact (h1.within (raise_within _) rfl rfl).within (report_within _) rfl rfl
  · exact h1

theorem brakeCommand_rest {cmd : ElementCommand} {st : BrakeState} (h : r.AtRest c) : (brakeCommand c z cmd st r).AtRest c := by
  unfold brakeCommand
  split
  · exact h.within (putElement_within z _) rfl rfl
  all_goals exact brakeBecomes_rest h

theorem brakeProofChange_rest (h : r.AtRest c) : (brakeProofChange c z r).AtRest c := by
  unfold brakeProofChange
  split
  · dsimp only
    split
    · exact h
    · exact brakeBecomes_rest h
  · exact h

theorem proofExpiry_rest (h : r.AtRest c) : (proofExpiry c z r).AtRest c := by
  unfold proofExpiry
  split
  · exact brakeBecomes_rest h
  · exact brakeBecomes_rest h
  · exact h

theorem driveArrives_rest {cmd : ElementCommand} (h : r.AtRest c) : (driveArrives c z cmd r).AtRest c := by
  unfold driveArrives
  split
  · exact provenClosed_rest (h.within (putElement_within z _) rfl rfl)
  · exact provenOpen_rest (h.within (putElement_within z _) rfl rfl)

theorem aimed_target (ch : Channel) (target due : Nat) : (ch.aimed target due).1.target = target := by
  unfold Channel.aimed
  split
  · rfl
  · split
    · next e => exact e.symm
    · rfl

theorem stepped_target (ch : Channel) (size due : Nat) : (ch.stepped size due).1.target = ch.target := by
  unfold Channel.stepped
  dsimp only
  generalize (if ch.target < ch.code then _ else _) = code
  split
  · next e => exact e
  · rfl

/-- A close gives a channel the target 0 (R133, R136). -/
theorem driveClose_rest (h : r.AtRest c) : (driveCommand c z .close r).AtRest c := by
  unfold driveCommand
  split
  · exact h
  · split
    · next i _ _ _ ch d _ _ =>
      have ht : (if stopsAtOnce r d .close then (ch.restingAt 0, true)
          else ch.aimed (ElementCommand.close.codeOn d) (dueAfter c.now d.interval)).1.target = 0 := by
        split
        · rfl
        · exact aimed_target ..
      generalize (if stopsAtOnce r d .close then (ch.restingAt 0, true)
        else ch.aimed (ElementCommand.close.codeOn d) (dueAfter c.now d.interval)) = aim at ht
      have h1 : (r.putChannel i aim.1).AtRest c := putChannel_rest h fun _ => ht
      dsimp only
      split
      · exact driveArrives_rest h1
      · exact h1.within (driveInFlight_within z _) rfl rfl
    · exact h

/-- A step of a channel leaves its target (R135). -/
theorem channelStep_rest {i : ChannelIx} (h : r.AtRest c) : (channelStep c i r).AtRest c := by
  unfold channelStep
  split
  · next ch d hc hd =>
    split
    · next due _ =>
      have h1 : (r.putChannel i (ch.stepped (stepSize d ch.falling r.latched) (dueAfter due d.interval)).1).AtRest c :=
        putChannel_rest h fun hi => (stepped_target ..).trans (h.drives i ch hc hi)
      dsimp only
      split
      · unfold channelArrival
        split
        · exact h1
        · split
          · split
            · exact driveArrives_rest h1
            · exact h1
          · exact h1
      · exact h1
    · exact h
  · exact h

theorem closeElement_rest (h : r.AtRest c) : (closeElement c z r).AtRest c := by
  have under : (closeUnderTrain c z r).AtRest c := by
    unfold closeUnderTrain
    split
    · exact h
    · split
      · exact h
      · split
        · exact changeTrain_rest h
        · exact h
  unfold closeElement
  split
  · exact h
  · unfold commandElement
    split
    · exact brakeCommand_rest under
    · exact driveClose_rest under
    · exact under

theorem closeWhere_rest {q : ZoneIx → Bool} (h : r.AtRest c) : (closeWhere c q r).AtRest c :=
  overAll_induct (Ride.AtRest c) _ (fun z _ k => by
    split
    · exact closeElement_rest k
    · exact k) r h

/-! ### The latching of the ride stop -/

/-- The stop gives a configured channel the target 0, and touches no other (R136). -/
theorem channelStop_channel (i j : ChannelIx) (w : Channel) (h : (channelStop c i r).channel? j = some w) :
    (j = i ∧ (c.map.drive i).isSome = true → w.target = 0) ∧ (j ≠ i → r.channel? j = some w) := by
  unfold channelStop at h
  split at h
  · next ch d hc hd =>
    have ht : (if d.profile = .immediate then (ch.restingAt 0, true) else ch.aimed 0 (dueAfter c.now d.interval)).1.target = 0 := by
      split
      · rfl
      · exact aimed_target ..
    generalize (if d.profile = .immediate then (ch.restingAt 0, true) else ch.aimed 0 (dueAfter c.now d.interval)) = aim at h ht
    have put : ∀ r' : Ride, r'.channel? j = (r.putChannel i aim.1).channel? j → r'.channel? j = some w →
        (j = i ∧ (c.map.drive i).isSome = true → w.target = 0) ∧ (j ≠ i → r.channel? j = some w) := by
      intro r' e k
      rw [e] at k
      change tget (tput r.channels i (some aim.1)) j = some w at k
      rw [tget_tput] at k
      split at k
      · next e => cases k; exact ⟨fun _ => ht, fun hn => absurd e hn⟩
      · next hn => exact ⟨fun e => absurd e.1 hn, fun _ => k⟩
    dsimp only at h
    split at h
    · exact put _ rfl h
    · split at h
      · split at h
        · exact put _ ((driveArrives_within _ _).channel? rfl j) h
        · exact put _ rfl h
      · exact put _ rfl h
  · next hn =>
    refine ⟨fun ⟨e, hd⟩ => ?_, fun _ => h⟩
    subst e
    obtain ⟨d, hd⟩ := Option.isSome_iff_exists.mp hd
    exact absurd hd (hn w d h)

theorem stationEvent_station {st u : StationIx} {e : StationEvent} {w : StationRec} (h : (stationEvent c st e r).station? u = some w) :
    (u = st → ∃ x, r.station? st = some x ∧ w = { x with state := x.state.next (c.stationProofs st) e }) ∧
    (u ≠ st → r.station? u = some w) := by
  unfold stationEvent at h
  split at h
  · next hn =>
    refine ⟨fun e => ?_, fun _ => h⟩
    subst e
    rw [hn] at h
    cases h
  · next x hx =>
    have put : (r.putStation st { x with state := x.state.next (c.stationProofs st) e }).station? u = some w := by
      dsimp only at h
      split at h <;> split at h
      · exact ((((raise_within _).trans (report_within _)).station? rfl u).symm.trans h)
      · exact ((report_within _).station? rfl u).symm.trans h
      · exact h
      · exact h
    change tget (tput r.stations st (some _)) u = some w at put
    rw [tget_tput] at put
    split at put
    · next e =>
      cases put
      exact ⟨fun _ => ⟨x, hx, rfl⟩, fun hn => absurd e hn⟩
    · next hn => exact ⟨fun e => absurd e hn, fun _ => put⟩

/-- The latching of the ride stop leaves every channel's target at 0 and no demand (R136, R150, R160). -/
theorem stopRide_rest : (r.stopRide c).AtRest c := by
  unfold Ride.stopRide
  dsimp only
  generalize overAll (fun (z : ZoneIx) r => closeElement c z r) r = r1
  have drives : ∀ i x, (overAll (fun (i : ChannelIx) r => channelStop c i r) r1).channel? i = some x → (c.map.drive i).isSome = true →
      x.target = 0 := by
    intro i
    refine overAll_establish (fun _ => True) (fun i (r : Ride) => ∀ x, r.channel? i = some x → (c.map.drive i).isSome = true → x.target = 0)
      (fun (i : ChannelIx) r => channelStop c i r) (fun _ _ h => h) (fun i r _ x hx hd => ?_) (fun j i r _ k x hx hd => ?_) r1 trivial i
    · exact (channelStop_channel i i x hx).1 ⟨rfl, hd⟩
    · by_cases e : i = j
      · exact (channelStop_channel j i x hx).1 ⟨e, e ▸ hd⟩
      · exact k x ((channelStop_channel j i x hx).2 e) hd
  generalize overAll (fun (i : ChannelIx) r => channelStop c i r) r1 = r2 at drives
  have within : Ride.Within .station r2 (overAll (fun (st : StationIx) r => stationEvent c st .cancel r) r2) :=
    .overAll (fun st _ => stationEvent_within st _) r2
  refine ⟨fun i x hx => drives i x (within.channel? rfl i ▸ hx), fun st => ?_⟩
  have cancelled : ∀ (st : StationIx) (r : Ride) (x : StationRec), (stationEvent c st .cancel r).station? st = some x →
      x.state.isPending = false := by
    intro st r x hx
    obtain ⟨w, -, rfl⟩ := (stationEvent_station hx).1 rfl
    cases w.state <;> rfl
  refine overAll_establish (fun _ => True) (fun st (r : Ride) => ∀ x, r.station? st = some x → x.state.isPending = false)
    (fun (st : StationIx) r => stationEvent c st .cancel r) (fun _ _ h => h) (fun st r _ x hx => cancelled st r x hx)
    (fun u st r _ k x hx => ?_) r2 trivial st
  by_cases e : st = u
  · subst e
    exact cancelled st r x hx
  · exact k x ((stationEvent_station hx).2 e)

end Sys2Proof.Machine
end

section
/-! PROOF. What the events of the track, the deadlines and the function inputs do, as sequences of a few acts: closes and reports, claims
set, holds and faults added, speeds recorded, records replaced. -/

namespace Sys2Proof.Machine

/-- A deadline of at most 600,000 ms, with an early bound that fits, which a STOP deadline lacks (Table 3-1). -/
def Deadline.Fits (dl : Deadline) : Prop :=
  dl.duration ≤ 600000 ∧ (∀ early, dl.early = some early → early ≤ 600000) ∧ (dl.kind = .stop → dl.early = none)

/-- A record replaced: the label stands, and what Table 3-1 bounds stays in its bounds. -/
structure Train.Moved (c : Ctx) (x y : Train) : Prop where
  label : y.label = x.label
  early : x.early ≤ Config.countLimit → y.early ≤ Config.countLimit
  overdue : x.overdue ≤ Config.countLimit → y.overdue ≤ Config.countLimit
  chain : x.chain.length ≤ Config.chainLimit → y.chain.length ≤ Config.chainLimit
  speed : (∀ v, x.lastSpeed = some v → v ≤ Config.speedLimit) → ∀ v, y.lastSpeed = some v → v ≤ Config.speedLimit
  awaited : (x.awaited.isSome = true ↔ x.phase = .overdue) → (y.awaited.isSome = true ↔ y.phase = .overdue)
  deadline : c.map.inRange → (∀ dl, x.deadline = some dl → dl.Fits) → ∀ dl, y.deadline = some dl → dl.Fits

variable {c : Ctx} {p : Bool} {P : List ZoneIx → Prop} {a b d r : Ride} {t : SlotIx} {x y w : Train} {z : ZoneIx}

theorem Train.Moved.refl (x : Train) : x.Moved c x :=
  ⟨rfl, fun h => h, fun h => h, fun h => h, fun h => h, fun h => h, fun _ h => h⟩

theorem Train.Moved.trans (h : x.Moved c y) (k : y.Moved c w) : x.Moved c w :=
  ⟨k.label.trans h.label, fun e => k.early (h.early e), fun e => k.overdue (h.overdue e), fun e => k.chain (h.chain e),
    fun e => k.speed (h.speed e), fun e => k.awaited (h.awaited e), fun m e => k.deadline m (h.deadline m e)⟩

/-- A record replaced that keeps its label, its counts, its speed and its chain. -/
theorem Train.Moved.of (same : y.label = x.label ∧ y.early = x.early ∧ y.overdue = x.overdue ∧ y.chain = x.chain ∧ y.lastSpeed = x.lastSpeed)
    (awaited : (x.awaited.isSome = true ↔ x.phase = .overdue) → (y.awaited.isSome = true ↔ y.phase = .overdue))
    (deadline : ∀ dl, y.deadline = some dl → x.deadline = some dl ∨ (c.map.inRange → dl.Fits)) : x.Moved c y := by
  obtain ⟨label, early, overdue, chain, speed⟩ := same
  exact ⟨label, fun h => early ▸ h, fun h => overdue ▸ h, fun h => chain ▸ h, fun h v e => h v (speed ▸ e), awaited,
    fun m h dl e => (deadline dl e).elim (h dl) fun f => f m⟩

/-! ### The deadlines that are handed out -/

theorem inRange_release {dz : ZoneDesc} (h : dz.inRange = true) : dz.release ≤ 600000 ∧ dz.stop ≤ 120000 ∧ dz.slack ≤ 255 := by
  simp only [ZoneDesc.inRange, Bool.and_eq_true, within_eq_true_iff, decide_eq_true_eq] at h
  obtain ⟨⟨⟨⟨⟨⟨⟨⟨-, slack⟩, -⟩, -⟩, -⟩, release⟩, stop⟩, -⟩, -⟩ := h
  exact ⟨release.2, stop.2, slack.2⟩

theorem stopAllowance_fits (h : c.map.inRange) (z : ZoneIx) (start : Nat) : (deadlineFrom .stop start (c.stopAllowance z)).Fits := by
  refine ⟨?_, by simp [deadlineFrom], fun _ => rfl⟩
  show c.stopAllowance z ≤ 600000
  unfold Ctx.stopAllowance
  cases hz : c.map.zone z with
  | none => simp
  | some dz => exact ((inRange_release (h.1 z dz hz)).2.1).trans (by decide)

theorem releaseAllowance_fits (h : c.map.inRange) (z : ZoneIx) (start : Nat) :
    (deadlineFrom .journey start (c.releaseAllowance z)).Fits := by
  refine ⟨?_, by simp [deadlineFrom], fun _ => rfl⟩
  show c.releaseAllowance z ≤ 600000
  unfold Ctx.releaseAllowance
  cases hz : c.map.zone z with
  | none => simp
  | some dz => exact (inRange_release (h.1 z dz hz)).1

/-- The deadline of a crossing (R99 to R101). -/
theorem journey_fits {dz : ZoneDesc} (h : dz.inRange = true) (run v start : Nat) :
    ({ kind := .journey, start := start, duration := (dz.journey run v).1, early := (dz.journey run v).2 } : Deadline).Fits := by
  refine ⟨((ZoneDesc.journeyRanges_of_inRange h).duration run v).2, fun early e => ?_, fun e => by cases e⟩
  unfold ZoneDesc.journey at e
  split at e
  · cases e
  · cases e
    exact Nat.min_le_left _ _

theorem Train.Nudged.moved (short : ∀ chain, P chain → chain.length ≤ Config.chainLimit) (h : Train.Nudged c p P x y) : x.Moved c y := by
  cases h with
  | returned => exact ⟨rfl, fun h => h, fun h => h, fun _ => by simp, fun h => h, fun h => h, fun _ h => h⟩
  | stopped running =>
    exact .of (by simp) (fun h => by simp [running] at h ⊢; exact h) fun dl e => .inr fun m => by cases e; exact stopAllowance_fits m _ _
  | released may rest =>
    refine .of (by simp) (fun h => ?_) fun dl e => .inr fun m => by cases e; exact releaseAllowance_fits m _ _
    rcases rest with e | e <;> simp [e] at h ⊢ <;> exact h
  | reserved chain named => exact ⟨rfl, fun h => h, fun h => h, fun _ => short chain named, fun h => h, fun h => h, fun _ h => h⟩
  | directed may d => exact .of (by simp) (fun h => h) fun dl e => .inl e

theorem Train.Led.moved (short : ∀ chain, P chain → chain.length ≤ Config.chainLimit) (h : Train.Led c p P x y) : x.Moved c y := by
  induction h with
  | refl => exact .refl x
  | tail _ k ih => exact ih.trans (k.moved short)

/-! ### Acts -/

/-- One act on the ride. -/
inductive Ride.Act (c : Ctx) (r : Ride) : Ride → Prop
  | quiet {b : Ride} (led : Ride.Led c true noChain r b) (narrow : Changes false false true r b) (presented : b.presented = r.presented)
      (rest : r.latched = true → r.AtRest c → b.AtRest c) : Act c r b
  | claim (z : ZoneIx) (new : Claim) : Act c r (setClaim c z new r)
  | hold (z : ZoneIx) (src : HoldSource) : Act c r (addHold c z src r)
  | fault (z : ZoneIx) (cause : ZoneFault) : Act c r (setZoneFault c z cause r)
  | speed (z : ZoneIx) (v : Nat) (le : v ≤ Config.speedLimit) : Act c r (recordEntry z v r)
  | put (t : SlotIx) (x y : Train) (hx : r.train? t = some x) (moved : x.Moved c y) : Act c r (r.putTrain t y)
  | change (t : SlotIx) (x y : Train) (hx : r.train? t = some x) (moved : x.Moved c y) : Act c r (changeTrain c t x y r)

/-- A sequence of acts. -/
def Ride.Acts (c : Ctx) : Ride → Ride → Prop := Relation.ReflTransGen (Ride.Act c)

namespace Ride.Acts

theorem refl (a : Ride) : Ride.Acts c a a := Relation.ReflTransGen.refl

theorem one (h : Ride.Act c a b) : Ride.Acts c a b := Relation.ReflTransGen.single h

theorem trans (h : Ride.Acts c a b) (k : Ride.Acts c b d) : Ride.Acts c a d := Relation.ReflTransGen.trans h k

/-- What every act keeps, a sequence keeps. -/
theorem induct (Q : Ride → Prop) (step : ∀ a b, Ride.Act c a b → Q a → Q b) (h : Ride.Acts c a b) (ha : Q a) : Q b := by
  induction h with
  | refl => exact ha
  | tail _ k ih => exact step _ _ k ih

theorem overAll {n : Nat} {f : Fin n → Ride → Ride} (h : ∀ i r, Ride.Acts c r (f i r)) (r : Ride) : Ride.Acts c r (overAll f r) :=
  overAll_induct (fun r' => Ride.Acts c r r') f (fun i r' k => k.trans (h i r')) r (.refl r)

theorem foldl {α : Type} {f : Ride → α → Ride} (h : ∀ r x, Ride.Acts c r (f r x)) (l : List α) (r : Ride) :
    Ride.Acts c r (l.foldl f r) :=
  foldl_induct (fun r' => Ride.Acts c r r') f (fun r' x k => k.trans (h r' x)) l r (.refl r)

end Ride.Acts

theorem raise_acts (n : Notice) : Ride.Acts c r (r.raise n) :=
  .one (.quiet (.of_within (raise_within n) rfl rfl) (raise_changes n) ((raise_within n).presented rfl) fun _ h => h.within (raise_within n) rfl rfl)

theorem report_acts (cause : Cause) : Ride.Acts c r (r.report cause) :=
  .one (.quiet (.of_within (report_within cause) rfl rfl) (report_changes cause) ((report_within cause).presented rfl) fun _ h => h.within (report_within cause) rfl rfl)

theorem stationEvent_acts (st : StationIx) (e : StationEvent) (he : (∀ source due, e ≠ .demand source due) ∨ r.latched = false) :
    Ride.Acts c r (stationEvent c st e r) :=
  .one (.quiet (.of_within (stationEvent_within st e) rfl rfl) (stationEvent_changes st e) ((stationEvent_within st e).presented rfl)
    fun l h => stationEvent_rest h (he.resolve_right (by simp [l])))

theorem pairingChange_acts (st : StationIx) (side : Side) (on : Bool) : Ride.Acts c r (pairingChange c st side on r) :=
  .one (.quiet (.of_within (pairingChange_within st side on) rfl rfl) (pairingChange_changes st side on)
    ((pairingChange_within st side on).presented rfl) fun l h => pairingChange_rest l h)

theorem closeElement_acts (z : ZoneIx) : Ride.Acts c r (closeElement c z r) :=
  .one (.quiet (closeElement_led z) (closeElement_changes z) ((closeElement_within z).presented rfl)
    fun _ h => closeElement_rest h)

theorem closeWhere_acts (q : ZoneIx → Bool) : Ride.Acts c r (closeWhere c q r) :=
  .one (.quiet (closeWhere_led q) (closeWhere_changes q) ((closeWhere_within q).presented rfl)
    fun _ h => closeWhere_rest h)

theorem returnChain_acts (h : r.train? t = some x) (rest : x.phase = .held) : Ride.Acts c r (returnChain c t r) :=
  .one (.quiet (returnChain_led h rest) (returnChain_changes t) ((returnChain_within t).presented rfl)
    fun _ h => returnChain_rest h)

/-! ### The operations of the train table -/

theorem loseTrain_acts (hx : r.train? t = some x) : Ride.Acts c r (loseTrain c t x r) :=
  ((Ride.Acts.one (.change t x _ hx (.of (by simp) (fun _ => by simp) (fun dl e => by cases e)))).trans (raise_acts _)).trans (report_acts _)

theorem makeOverdue_acts (aw : Awaited) (hx : r.train? t = some x) : Ride.Acts c r (makeOverdue c t x aw r) := by
  have h := ((Ride.Acts.one (c := c) (.change t x
      { x with phase := .overdue, deadline := none, awaited := some aw, overdue := countUp x.overdue } hx
      ⟨rfl, fun h => h, fun _ => countUp_le _, fun h => h, fun h => h, fun _ => by simp, fun _ _ dl e => by cases e⟩)).trans
    (raise_acts .overdue)).trans (.one (.hold x.head .overdue))
  unfold makeOverdue
  dsimp only
  split
  · exact h.trans (report_acts _)
  · exact h

/-- The return of a chain whatever the phase of its train. -/
theorem returnChain_acts' (h : r.train? t = some x) : Ride.Acts c r (returnChain c t r) := by
  simp only [returnChain, h]
  have h1 : Ride.Acts c r (r.putTrain t { x with chain := [] }) :=
    .one (.put t x _ h ⟨rfl, fun h => h, fun h => h, fun _ => Nat.zero_le _, fun h => h, fun h => h, fun _ h => h⟩)
  refine h1.trans (.foldl (fun r z => ?_) _ _)
  split
  · exact .one (.claim z _)
  · exact .refl r

theorem bringToRest_acts (hx : r.train? t = some x) : Ride.Acts c r (bringToRest c t x r) := by
  refine (Ride.Acts.one (.change t x _ hx (.of (by simp) (fun _ => ?_) (fun dl e => by cases e)))).trans
    (returnChain_acts' (changeTrain_train t x _))
  cases c.map.isSpur x.head <;> simp

theorem settleTrain_acts (z : ZoneIx) (dir : Direction) (stamp : Nat) : Ride.Acts c r (settleTrain c t z dir stamp r) := by
  unfold settleTrain
  split
  · exact .refl r
  · next x hx =>
    refine .one (.change t x _ hx (.of (by simp) (fun _ => ?_) (fun dl e => .inr fun m => ?_)))
    · cases c.map.isStopping z <;> simp
    · cases e
      exact stopAllowance_fits m _ _

/-! ### Chains, guards and crossings -/

theorem onTrain_acts {f : Train → Train} (h : ∀ x : Train, x.Moved c (f x)) : Ride.Acts c r (r.onTrain t f) := by
  unfold Ride.onTrain
  split
  · next x hx => exact .one (.put t x _ hx (h x))
  · exact .refl r

/-- A record replaced but for its chain, which gets no longer, and its guard. -/
theorem moved_of_chain (chain : List ZoneIx) (guard : Option (ZoneIx × BoundaryIx))
    (h : x.chain.length ≤ Config.chainLimit → chain.length ≤ Config.chainLimit) : x.Moved c { x with chain := chain, guard := guard } :=
  ⟨rfl, fun h => h, fun h => h, h, fun h => h, fun h => h, fun _ h => h⟩

theorem dropFromChain_acts (z : ZoneIx) : Ride.Acts c r (dropFromChain t z r) :=
  onTrain_acts fun x => moved_of_chain _ x.guard fun h => (List.length_filter_le _ _).trans h

theorem dropGuard_acts (z : ZoneIx) : Ride.Acts c r (dropGuard t z r) := onTrain_acts fun x => moved_of_chain x.chain _ fun h => h

theorem reinsert_acts (z : ZoneIx) : Ride.Acts c r (reinsert c t z r) := by
  unfold reinsert
  split
  · exact .refl r
  · have h1 : Ride.Acts c r (setClaim c z (.reserved t) r) := .one (.claim z _)
    dsimp only
    split
    · exact h1
    · next x hx =>
      have h2 := h1.trans (.one (.put t x _ hx (moved_of_chain ((z :: x.chain).take Config.chainLimit) x.guard fun _ => List.length_take_le _ _)))
      split
      · split
        · exact h2.trans (.one (.claim _ _))
        · exact h2
      · exact h2

theorem releaseGuard_acts : Ride.Acts c r (releaseGuard c t r) := by
  unfold releaseGuard
  split
  · exact .refl r
  · next x hx =>
    split
    · exact .refl r
    · have h1 : Ride.Acts c r (r.putTrain t { x with guard := none }) := .one (.put t x _ hx (moved_of_chain x.chain none fun h => h))
      dsimp only
      split
      · exact h1.trans (.one (.claim _ _))
      · exact h1

theorem takeGuard_acts (z : ZoneIx) (bi : BoundaryIx) : Ride.Acts c r (takeGuard c t z bi r) := by
  unfold takeGuard
  split
  · exact .refl r
  · exact (releaseGuard_acts.trans (.one (.claim z _))).trans (onTrain_acts fun x => moved_of_chain x.chain _ fun h => h)

theorem takeFrom_acts (claim : Claim) (z : ZoneIx) : Ride.Acts c r (takeFrom c claim z r) := by
  unfold takeFrom
  split
  · split
    · exact (dropFromChain_acts z).trans (closeElement_acts _)
    · exact .refl r
  · exact dropGuard_acts z
  · exact .refl r

theorem setClaimOf_acts (z : ZoneIx) (new : Claim) : Ride.Acts c r (setClaimOf c t z new r) := by
  unfold setClaimOf
  split
  · exact .one (.claim z new)
  · exact .refl r

theorem settleCrossing_acts {src dst : ZoneIx} {r' : Ride} (h : settleCrossing c t src dst r = some r') : Ride.Acts c r r' := by
  unfold settleCrossing at h
  split at h
  · cases h
  · split at h
    · cases h
    · split at h
      · cases h
      · split at h
        · cases h
          exact (((dropFromChain_acts dst).trans (dropGuard_acts dst)).trans (.one (.claim dst _))).trans (.one (.claim src _))
        · cases h
          exact (((takeFrom_acts _ dst).trans (.one (.claim dst _))).trans (.one (.claim src _))).trans (.one (.fault dst _))

/-! ### Events -/

variable {bd : BoundaryDesc} {bi : BoundaryIx} {stamp : Nat}

theorem unexpected_acts (z : ZoneIx) : Ride.Acts c r (unexpected c z r) := .one (.fault z _)

theorem crossingSpeed_le (gate interval : Nat) : crossingSpeed gate interval ≤ Config.speedLimit := Nat.min_le_left _ _

theorem onApproach_acts : Ride.Acts c r (onApproach c bd stamp r) := by
  unfold onApproach
  split
  · exact unexpected_acts _
  · next t x hm =>
    have hx := (matching_spec hm).1
    split
    · exact loseTrain_acts hx
    · have early : ∀ b : Bool, x.phase ≠ .overdue → Ride.Acts c r (changeTrain c t x
          { x with phase := .leaving, deadline := none, early := if b then countUp x.early else x.early } r) := by
        intro b hp
        refine .one (.change t x _ hx ⟨rfl, fun h => ?_, fun h => h, fun h => h, fun h => h, fun h => ?_, fun _ _ dl e => by cases e⟩)
        · cases b
          · exact h
          · exact countUp_le _
        · simp only [hp, iff_false] at h
          simp [h]
      have moving : ∀ b : Bool, x.phase ≠ .overdue → Ride.Acts c r
          (if b = true then (changeTrain c t x { x with phase := .leaving, deadline := none, early := if b then countUp x.early else x.early } r).raise .early
            else changeTrain c t x { x with phase := .leaving, deadline := none, early := if b then countUp x.early else x.early } r) := by
        intro b hp
        cases b
        · exact early false hp
        · exact (early true hp).trans (raise_acts _)
      have overrun : x.phase ≠ .overdue → Ride.Acts c r
          (if ((changeTrain c t x { x with phase := .leaving, deadline := none, dir := .forward } r).raise .overrun).claim? bd.down =
              some (.reserved t) then (changeTrain c t x { x with phase := .leaving, deadline := none, dir := .forward } r).raise .overrun
            else setZoneFault c bd.down .overrun
              ((changeTrain c t x { x with phase := .leaving, deadline := none, dir := .forward } r).raise .overrun)) := by
        intro hp
        have gone : Ride.Acts c r ((changeTrain c t x { x with phase := .leaving, deadline := none, dir := .forward } r).raise .overrun) := by
          refine (Ride.Acts.one (.change t x _ hx (.of (by simp) (fun h => ?_) (fun dl e => by cases e)))).trans (raise_acts _)
          simp only [hp, iff_false] at h
          simp [h]
        split
        · exact gone
        · exact gone.trans (.one (.fault _ _))
      split
      · next hp => exact moving _ (by simp [hp])
      · next hp => exact moving _ (by simp [hp])
      · next hp => exact overrun (by simp [hp])
      · next hp => exact overrun (by simp [hp])
      · exact .one (.change t x _ hx (.of (by simp) (fun _ => by simp) (fun dl e => .inl e)))
      · exact loseTrain_acts hx
      · exact loseTrain_acts hx
      · exact loseTrain_acts hx
      · exact .refl r

theorem entered_acts {v : Nat} (le : v ≤ Config.speedLimit) : Ride.Acts c r (entered c t bi bd v stamp r) := by
  unfold entered
  split
  · next x dz hx hz =>
    dsimp only
    generalize hr1 : changeTrain c t x _ r = r1
    have h1 : Ride.Acts c r r1 := by
      subst hr1
      exact .one (.change t x _ hx ⟨rfl, fun h => h, fun h => h, fun h => h, fun _ v' e => by cases e; exact le, fun _ => by simp,
        fun m _ dl e => by cases e; exact journey_fits (m.1 _ _ hz) _ _ _⟩)
    have h2 : Ride.Acts c r (if dz.window v = .inWindow then r1 else setZoneFault c bd.down .speed r1) := by
      split
      · exact h1
      · exact h1.trans (.one (.fault _ _))
    split
    · split
      · exact h2.trans releaseGuard_acts
      · exact h2
    · exact h2
  · exact .refl r

theorem onNoseIn_acts {interval : Nat} : Ride.Acts c r (onNoseIn c bi bd interval stamp r) := by
  unfold onNoseIn
  split
  · exact unexpected_acts _
  · next t x hm =>
    have hx := (matching_spec hm).1
    split
    · exact loseTrain_acts hx
    · have h1 : Ride.Acts c r (recordEntry bd.down (crossingSpeed bd.gate interval) r) := .one (.speed _ _ (crossingSpeed_le _ _))
      dsimp only
      split
      · exact h1.trans (loseTrain_acts ((recordEntry_train _ _ _).trans hx))
      · next h2 => exact (h1.trans (settleCrossing_acts h2)).trans (entered_acts (crossingSpeed_le _ _))

theorem clearBehind_acts : Ride.Acts c r (clearBehind c t bi bd r) := by
  unfold clearBehind
  split
  · exact (takeGuard_acts _ bi).trans (setClaimOf_acts _ _)
  · exact (setClaimOf_acts _ _).trans (setClaimOf_acts _ _)

theorem onTailClear_acts : Ride.Acts c r (onTailClear c bi bd stamp r) := by
  unfold onTailClear
  split
  · exact unexpected_acts _
  · next t x hm =>
    have h1 : Ride.Acts c r (closeElement c bd.up (clearBehind c t bi bd r)) := clearBehind_acts.trans (closeElement_acts _)
    dsimp only
    split
    · exact h1
    · next y hy =>
      split
      · next hp =>
        split
        · exact h1.trans (.one (.change t y _ hy (.of (by simp) (fun h => by simp [hp] at h ⊢; exact h) (fun dl e => .inl e))))
        · refine h1.trans (.one (.change t y _ hy (.of (by simp) (fun h => by simp [hp] at h ⊢; exact h) (fun dl e => .inr fun m => ?_))))
          cases e
          exact stopAllowance_fits m _ _
      · exact h1.trans (settleTrain_acts _ _ _)
      · exact h1.trans (.one (.change t y _ hy (.of (by simp) (fun h => h) (fun dl e => .inl e))))

theorem rollBack_acts (head : ZoneIx) (tail : Option ZoneIx) (was : ZoneIx → Bool) : Ride.Acts c r (rollBack c t bd head tail was r) := by
  unfold rollBack
  split
  · exact .refl r
  · next x hx =>
    have h1 : Ride.Acts c r (changeTrain c t x
        { x with phase := .rollback, head := head, tail := tail, dir := .reverse, deadline := none, awaited := none } r) :=
      .one (.change t x _ hx (.of (by simp) (fun _ => by simp) (fun dl e => by cases e)))
    have h2 := h1.trans (.one (.hold head .rollback))
    dsimp only
    split
    · exact (h2.trans (closeWhere_acts _)).trans (raise_acts _)
    · exact ((h2.trans (closeWhere_acts _)).trans (raise_acts _)).trans (report_acts _)

theorem onRetreat_acts : Ride.Acts c r (onRetreat c bd stamp r) := by
  unfold onRetreat
  split
  · exact unexpected_acts _
  · next t x hm =>
    split
    · exact loseTrain_acts (matching_spec hm).1
    · exact (rollBack_acts _ _ _).trans (settleTrain_acts _ _ _)

theorem onNoseBack_acts : Ride.Acts c r (onNoseBack c bd r) := by
  unfold onNoseBack
  split
  · exact unexpected_acts _
  · exact ((setClaimOf_acts _ _).trans (reinsert_acts _)).trans (rollBack_acts _ _ _)

theorem onBacking_acts : Ride.Acts c r (onBacking c bd r) := by
  unfold onBacking
  split
  · exact unexpected_acts _
  · exact ((setClaimOf_acts _ _).trans (setClaimOf_acts _ _)).trans (rollBack_acts _ _ _)

theorem onReverseApproach_acts : Ride.Acts c r (onReverseApproach c bi bd r) := by
  unfold onReverseApproach
  split
  · exact unexpected_acts _
  · next t x hm =>
    have hx := (matching_spec hm).1
    split
    · exact loseTrain_acts hx
    · exact ((Ride.Acts.one (.change t x _ hx (.of (by simp) (fun _ => by simp) (fun dl e => by cases e)))).trans (closeWhere_acts _)).trans
        (raise_acts _)

theorem crossReverse_acts (head : ZoneIx) (tail : Option ZoneIx) (dir : Direction) {speed : Option Nat}
    (le : ∀ v, speed = some v → v ≤ Config.speedLimit) : Ride.Acts c r (crossReverse c t head tail dir speed r) := by
  unfold crossReverse
  split
  · exact .refl r
  · next x hx =>
    dsimp only
    generalize hr1 : changeTrain c t x _ r = r1
    have h1 : Ride.Acts c r r1 := by
      subst hr1
      refine .one (.change t x _ hx ⟨rfl, fun h => h, fun h => h, fun h => h, fun h v e => ?_, fun _ => by simp, fun _ _ dl e => by cases e⟩)
      cases speed with
      | none => exact h v e
      | some u => exact le v e
    split
    · exact h1
    · exact h1.trans (closeWhere_acts _)

theorem onReverseNoseIn_acts {interval : Nat} : Ride.Acts c r (onReverseNoseIn c bi bd interval r) := by
  unfold onReverseNoseIn
  split
  · exact unexpected_acts _
  · next t x hm =>
    have hx := (matching_spec hm).1
    split
    · exact loseTrain_acts hx
    · have h1 : Ride.Acts c r (recordEntry bd.up (crossingSpeed bd.gate interval) r) := .one (.speed _ _ (crossingSpeed_le _ _))
      dsimp only
      split
      · exact h1.trans (loseTrain_acts ((recordEntry_train _ _ _).trans hx))
      · next h2 =>
        refine ((h1.trans (settleCrossing_acts h2)).trans (crossReverse_acts _ _ _ fun v e => ?_)).trans (.one (.hold _ _))
        cases e
        exact crossingSpeed_le _ _

theorem onReverseNoseBack_acts : Ride.Acts c r (onReverseNoseBack c bi bd r) := by
  unfold onReverseNoseBack
  split
  · exact unexpected_acts _
  · exact ((takeGuard_acts _ bi).trans (setClaimOf_acts _ _)).trans (crossReverse_acts _ _ _ fun v e => by cases e)

theorem onReverseBacking_acts : Ride.Acts c r (onReverseBacking c bd r) := by
  unfold onReverseBacking
  split
  · exact unexpected_acts _
  · exact ((setClaimOf_acts _ _).trans (setClaimOf_acts _ _)).trans (crossReverse_acts _ _ _ fun v e => by cases e)

theorem onReverseRetreat_acts : Ride.Acts c r (onReverseRetreat c bi bd stamp r) := by
  unfold onReverseRetreat
  split
  · exact unexpected_acts _
  · next t x hm =>
    split
    · exact loseTrain_acts (matching_spec hm).1
    · split
      · exact settleTrain_acts _ _ _
      · exact .refl r

theorem onReverseTailClear_acts : Ride.Acts c r (onReverseTailClear c bd stamp r) := by
  unfold onReverseTailClear
  split
  · exact unexpected_acts _
  · next t x hm =>
    have h1 : Ride.Acts c r (closeElement c bd.down (reinsert c t bd.down (setClaimOf c t bd.up (.occupied t) r))) :=
      ((setClaimOf_acts _ _).trans (reinsert_acts _)).trans (closeElement_acts _)
    dsimp only
    split
    · exact h1
    · next y hy =>
      split
      · exact h1.trans (settleTrain_acts _ _ _)
      · exact h1.trans (.one (.change t y _ hy (.of (by simp) (fun h => h) (fun dl e => .inl e))))

theorem boundaryFaulted_acts : Ride.Acts c r (boundaryFaulted c bd r) :=
  ((Ride.Acts.one (.fault _ _)).trans (.one (.fault _ _))).trans (report_acts _)

/-- Every event of a boundary is a sequence of acts (R85). -/
theorem handEvent_acts {e : PassageEvent} : Ride.Acts c r (handEvent c bi bd stamp e r) := by
  unfold handEvent
  split
  · exact onApproach_acts
  · exact onRetreat_acts
  · exact onNoseIn_acts
  · exact onNoseBack_acts
  · exact onBacking_acts
  · exact onTailClear_acts
  · exact onReverseApproach_acts
  · exact onReverseRetreat_acts
  · exact onReverseNoseIn_acts
  · exact onReverseNoseBack_acts
  · exact onReverseBacking_acts
  · exact onReverseTailClear_acts
  · exact boundaryFaulted_acts

theorem onBerth_acts : Ride.Acts c r (onBerth c z r) := by
  unfold onBerth
  split
  · exact .refl r
  · next t x hm =>
    split
    · exact bringToRest_acts (matching_spec hm).1
    · exact .refl r

theorem onStall_acts {dir : Direction} : Ride.Acts c r (onStall c bd dir r) := by
  unfold onStall
  dsimp only
  split
  · exact unexpected_acts _
  · next t x hm => exact makeOverdue_acts _ (matching_spec hm).1

theorem onJourneyExpiry_acts : Ride.Acts c r (onJourneyExpiry c t r) := by
  unfold onJourneyExpiry
  split
  · exact .refl r
  · next x hx =>
    split
    · split
      · exact makeOverdue_acts _ hx
      · exact .refl r
    · exact .refl r

theorem onStopExpiry_acts : Ride.Acts c r (onStopExpiry c t r) := by
  unfold onStopExpiry
  split
  · exact .refl r
  · next x hx =>
    split
    · split
      · split
        · split
          · exact makeOverdue_acts _ hx
          · exact bringToRest_acts hx
        · exact makeOverdue_acts _ hx
        · exact .refl r
      · exact .refl r
    · exact .refl r

/-- A function input's change is a sequence of acts, or removes an INPUT hold (R38). -/
theorem functionChange_acts (f : InputFunction) (on : Bool) :
    Ride.Acts c r (functionChange c f on r) ∨ ∃ z, functionChange c f on r = removeHold z .input r := by
  have proof : ∀ st, Ride.Acts c r (proofInputChange c st on r) := fun st => by
    unfold proofInputChange
    split
    · split
      · exact stationEvent_acts st _ (.inl (by simp))
      · exact .refl r
    · exact stationEvent_acts st _ (.inl (by simp))
  cases f with
  | none => exact .inl (.refl r)
  | estop =>
    refine .inl ?_
    simp only [functionChange]
    split
    · exact report_acts _
    · exact .refl r
  | zoneHold z =>
    simp only [functionChange]
    split
    · exact .inl (.one (.hold z _))
    · split
      · exact .inl (.refl r)
      · exact .inr ⟨z, rfl⟩
  | dispatchA st => exact .inl (pairingChange_acts st _ on)
  | dispatchB st => exact .inl (pairingChange_acts st _ on)
  | restraint st => exact .inl (proof st)
  | gate st => exact .inl (proof st)

theorem inputFound_acts (i : InputIx) : Ride.Acts c r (inputFound c i r) := by
  unfold inputFound
  split
  · split
    · exact .one (.hold _ _)
    · exact .refl r
  · split
    · exact report_acts _
    · exact .refl r
  · exact .refl r

theorem stationFound_within (st : StationIx) : Ride.Within .station r (stationFound c st r) := by
  unfold stationFound
  split
  · dsimp only
    split
    · exact ((putStation_within st _).mono rfl).trans (stationEvent_within st _)
    · exact (putStation_within st _).mono rfl
  · exact .refl r

theorem stationFound_rest {st : StationIx} (h : r.AtRest c) : (stationFound c st r).AtRest c := by
  unfold stationFound
  split
  · next x d hx _ =>
    have h1 : (r.putStation st { x with pairing := pairingFound c d }).AtRest c := putStation_rest h (h.demands st x hx)
    dsimp only
    split
    · exact stationEvent_rest h1 (by simp)
    · exact h1
  · exact h

theorem stationFound_acts (st : StationIx) : Ride.Acts c r (stationFound c st r) :=
  .one (.quiet (.of_within (stationFound_within st) rfl rfl) (stationFound_changes st) ((stationFound_within st).presented rfl)
    fun _ h => stationFound_rest h)

end Sys2Proof.Machine
end

section
/-! PROOF. Brake outputs (R35, R36): a close turns its zone's output off, an open command turns on its own zone's alone, and what adds
a hold or a fault closes. -/

namespace Sys2Proof.Machine

variable {i : Instr} {s t : State} {c : Ctx} {w o q : Bool} {a b r : Ride} {z u : ZoneIx} {x : Train} {k : SlotIx}

/-- The zone's element asserts no output. -/
def Ride.OutputOff (r : Ride) (z : ZoneIx) : Prop := ∀ e, r.element? z = some e → e.output = false

/-- The zone has no hold source and no fault. -/
def Ride.Unheld (r : Ride) (z : ZoneIx) : Prop := (∀ src, r.held z src = false) ∧ r.zoneFault z = none

/-- Every output asserted is in a zone without hold source or fault. -/
def Ride.Braked (r : Ride) : Prop := ∀ z, r.OutputOff z ∨ r.Unheld z

/-- Every output is de-asserted. -/
def Ride.Shut (r : Ride) : Prop := ∀ z, r.OutputOff z

theorem elementOutput_iff (s : State) (z : ZoneIx) : s.elementOutput z = false ↔ s.ride.OutputOff z := by
  unfold State.elementOutput Ride.OutputOff
  cases he : s.ride.element? z with
  | none => simp
  | some e =>
    cases e with
    | brake st cmd => cases st <;> simp [BrakeState.output, Element.output]
    | drive st cmd => simp [Element.output]

theorem Ride.OutputOff.congr (h : a.OutputOff z) (e : b.element? z = a.element? z) : b.OutputOff z := fun x hx => h x (e ▸ hx)

theorem Ride.OutputOff.changes (h : a.OutputOff z) (k : Changes w false q a b) : b.OutputOff z := k.output_off z h

theorem Ride.Shut.changes (h : a.Shut) (k : Changes w false q a b) : b.Shut := fun z => (h z).changes k

theorem Ride.Shut.braked (h : a.Shut) : a.Braked := fun z => .inl (h z)

theorem Ride.Unheld.changes (h : a.Unheld z) (k : Changes false o q a b) : b.Unheld z :=
  ⟨fun src => (k.keeps.holds z src).trans (h.1 src), (k.keeps.faults z).trans h.2⟩

/-- Changes that are not wide and open nothing keep outputs out of held and faulted zones. -/
theorem Ride.Braked.changes (h : a.Braked) (k : Changes false false q a b) : b.Braked := fun z =>
  (h z).imp (fun e => e.changes k) fun e => e.changes k

theorem Ride.Braked.within {p : Parts} (h : a.Braked) (k : Ride.Within p a b) (hz : p.zones = false)
    (he : p.elements = false) : b.Braked := fun z => by
  refine (h z).imp (fun e => e.congr (k.element? he z)) fun e => ?_
  unfold Ride.Unheld Ride.held Ride.zoneFault
  rw [k.zone? hz]
  exact e

theorem channelStep_within (j : ChannelIx) : Ride.Within .element r (channelStep c j r) := by
  unfold channelStep
  split
  · split
    · dsimp only
      split
      · exact ((putChannel_within j _).mono rfl).trans ((channelArrival_within _ _ _).mono rfl)
      · exact (putChannel_within j _).mono rfl
    · exact .refl r
  · exact .refl r

theorem windowExpiry_within (st : StationIx) : Ride.Within { stations := true } r (windowExpiry st r) := by
  unfold windowExpiry
  split
  · exact putStation_within st _
  · exact .refl r

/-! ### What a command to an element leaves of every element -/

theorem brakeBecomes_element (z : ZoneIx) (st : BrakeState) (cmd : ElementCommand) (u : ZoneIx) :
    (brakeBecomes c z st cmd r).element? u = if u = z then some (.brake st cmd) else r.element? u := by
  have h : (brakeBecomes c z st cmd r).element? u = (r.putElement z (.brake st cmd)).element? u := by
    unfold brakeBecomes
    dsimp only
    split
    · exact (provenOpen_within z).element? rfl u
    · exact (provenClosed_within z).element? rfl u
    · exact ((raise_within _).trans (report_within _)).element? rfl u
    · rfl
  rw [h]
  exact tget_tput ..

/-- The record a command leaves of a brake (Tables 7-3 and 7-4). -/
def Ctx.brakeTaking (c : Ctx) (z : ZoneIx) (cmd : ElementCommand) (st : BrakeState) : BrakeState :=
  match st.commanded cmd (c.proofDue z) with
  | .fault cause => .fault cause
  | .opened => .opened
  | .closed => .closed
  | flight => flight.atLevels (c.brakeLevels z).1 (c.brakeLevels z).2

theorem brakeCommand_element (z : ZoneIx) (cmd : ElementCommand) (st : BrakeState) (u : ZoneIx) :
    (brakeCommand c z cmd st r).element? u = if u = z then some (.brake (c.brakeTaking z cmd st) cmd) else r.element? u := by
  unfold brakeCommand Ctx.brakeTaking
  cases st.commanded cmd (c.proofDue z) with
  | fault cause => exact tget_tput ..
  | opened => exact brakeBecomes_element ..
  | closed => exact brakeBecomes_element ..
  | opening due => exact brakeBecomes_element ..
  | closing due => exact brakeBecomes_element ..

theorem brakeTaking_close (z : ZoneIx) (st : BrakeState) (cmd : ElementCommand) :
    (Element.brake (c.brakeTaking z .close st) cmd).output = false := by
  have key : ∀ p q, (BrakeState.atLevels (.closing (c.proofDue z)) p q).output = false := by
    intro p q
    cases p <;> cases q <;> rfl
  unfold Ctx.brakeTaking
  cases st <;> simp only [BrakeState.commanded]
  case fault => rfl
  case closed => rfl
  all_goals
    generalize (c.brakeLevels z).1 = p
    generalize (c.brakeLevels z).2 = q
    cases p <;> cases q <;> rfl

theorem driveArrives_element (z : ZoneIx) (cmd : ElementCommand) (u : ZoneIx) :
    (driveArrives c z cmd r).element? u =
      if u = z then some (.drive (if cmd = .close then .closed else .opened) cmd) else r.element? u := by
  unfold driveArrives
  cases cmd with
  | close => exact ((provenClosed_within z).element? rfl u).trans (tget_tput ..)
  | openRun => exact ((provenOpen_within z).element? rfl u).trans (tget_tput ..)
  | openCreep => exact ((provenOpen_within z).element? rfl u).trans (tget_tput ..)

/-- A command to a DRIVE element changes its own zone's element alone, into a DRIVE element. -/
theorem driveCommand_element (z : ZoneIx) (cmd : ElementCommand) :
    (∀ u, u ≠ z → (driveCommand c z cmd r).element? u = r.element? u) ∧
    ((driveCommand c z cmd r).element? z = r.element? z ∨ ∃ st, (driveCommand c z cmd r).element? z = some (.drive st cmd)) := by
  unfold driveCommand
  split
  · exact ⟨fun _ _ => rfl, .inl rfl⟩
  · split
    · next i _ _ _ ch d _ _ =>
      generalize (if stopsAtOnce r d cmd then (ch.restingAt 0, true) else ch.aimed (cmd.codeOn d) (dueAfter c.now d.interval)) = aim
      dsimp only
      split
      · refine ⟨fun u hu => ?_, .inr ⟨_, (driveArrives_element z cmd z).trans (if_pos rfl)⟩⟩
        rw [driveArrives_element, if_neg hu]
        rfl
      · exact ⟨fun u hu => tget_tput_other _ _ _ _ hu, .inr ⟨_, tget_tput_same ..⟩⟩
    · exact ⟨fun _ _ => rfl, .inl rfl⟩

/-- A command changes its own zone's element alone. -/
theorem commandElement_apart (cmd : ElementCommand) (hu : u ≠ z) : (commandElement c z cmd r).element? u = r.element? u := by
  unfold commandElement
  split
  · rw [brakeCommand_element, if_neg hu]
  · exact (driveCommand_element z cmd).1 u hu
  · rfl

theorem commandElement_close_off : (commandElement c z .close r).OutputOff z := by
  intro e he
  unfold commandElement at he
  split at he
  · rw [brakeCommand_element, if_pos rfl] at he
    cases he
    exact brakeTaking_close ..
  · next h =>
    rcases (driveCommand_element (c := c) (r := r) z .close).2 with k | ⟨st, k⟩
    · rw [k, h] at he
      cases he
      rfl
    · rw [k] at he
      cases he
      rfl
  · next h => rw [h] at he; cases he

/-- A close turns the zone's output off (R36, R126). -/
theorem closeElement_off : (closeElement c z r).OutputOff z := by
  unfold closeElement
  split
  · next h => intro e he; rw [h] at he; cases he
  · exact commandElement_close_off

/-- Every zone that a close reaches has its output off, and none is turned on. -/
theorem closeWhere_off {p : ZoneIx → Bool} (h : p z = true) : (closeWhere c p r).OutputOff z := by
  refine overAll_establish (fun _ => True) (fun u r => p u = true → r.OutputOff u)
    (fun (z : ZoneIx) r => if p z then closeElement c z r else r) (fun _ _ h => h) (fun u r _ hu => ?_) (fun v u r _ k hu => ?_) r
    trivial z h
  · rw [if_pos hu]
    exact closeElement_off
  · split
    · exact (k hu).changes (w := false) (q := false) (closeElement_changes v)
    · exact k hu

/-- The latching of the ride stop turns every output off (R36, R160). -/
theorem stopRide_shut : (r.stopRide c).Shut := fun z => by
  have h : (overAll (fun (z : ZoneIx) r => closeElement c z r) r).OutputOff z :=
    overAll_establish (fun _ => True) (fun u (r : Ride) => r.OutputOff u) (fun (z : ZoneIx) r => closeElement c z r) (fun _ _ h => h)
      (fun u r _ => closeElement_off) (fun v u r _ k => k.changes (w := false) (q := false) (closeElement_changes v)) r trivial z
  exact (h.changes (w := false) (q := false) (overAll_changes (fun i _ => channelStop_changes i) _)).changes (w := false) (q := false)
    (overAll_changes (fun st _ => stationEvent_changes st _) _)

/-! ### Holds and faults -/

/-- Changes to other zones' holds and faults do not reach a zone. -/
theorem putZone_unheld {y : ZoneRec} (hu : u ≠ z) (h : r.Unheld u) : (r.putZone z y).Unheld u := by
  have e : (r.putZone z y).zone? u = r.zone? u := tget_tput_other _ _ _ _ hu
  unfold Ride.Unheld Ride.held Ride.zoneFault
  rw [e]
  exact h

/-- A zone record replaced and its element closed (R36). -/
theorem putZone_close_braked {y : ZoneRec} (h : r.Braked) : (closeElement c z (r.putZone z y)).Braked := fun u => by
  by_cases hu : u = z
  · exact .inl (hu ▸ closeElement_off)
  · have close := closeElement_changes (w := false) (o := false) (q := false) (c := c) (r := r.putZone z y) z
    refine (h u).imp (fun e => ?_) fun e => (putZone_unheld hu e).changes close
    exact Ride.OutputOff.changes (a := r.putZone z y) (fun x hx => e x hx) close

/-- A zone record replaced by one with no more holds and no more of a fault. -/
theorem putZone_braked {y : ZoneRec} {x : ZoneRec} (hx : r.zone? z = some x)
    (holds : ∀ src, y.holds? src = true → x.holds? src = true) (fault : y.fault.isSome = true → x.fault.isSome = true) (h : r.Braked) :
    (r.putZone z y).Braked := fun u => by
  by_cases hu : u = z
  · subst hu
    have e : (r.putZone u y).zone? u = some y := tget_tput_same ..
    refine (h u).imp (fun k e he => k e he) fun k => ⟨fun src => ?_, ?_⟩
    · rw [Ride.held, e]
      have := k.1 src
      rw [Ride.held, hx] at this
      by_contra hn
      exact absurd (holds src (by simpa using hn)) (by simpa using this)
    · rw [Ride.zoneFault, e]
      have := k.2
      rw [Ride.zoneFault, hx] at this
      by_contra hn
      have f := fault (Option.isSome_iff_ne_none.mpr hn)
      rw [show x.fault = none from this] at f
      cases f
  · exact (h u).imp (fun k e he => k e he) (putZone_unheld hu)

theorem addHold_braked (src : HoldSource) (h : r.Braked) : (addHold c z src r).Braked := by
  unfold addHold
  split
  · exact h
  · split
    · exact h
    · exact putZone_close_braked h

theorem withoutBit_get {n : Nat} {v : BitVec n} {j l : Nat} (h : (withoutBit v l).getLsbD j = true) : v.getLsbD j = true := by
  simp only [withoutBit, BitVec.getLsbD_and, Bool.and_eq_true] at h
  exact h.1

theorem removeHold_braked (src : HoldSource) (h : r.Braked) : (removeHold z src r).Braked := by
  unfold removeHold
  split
  · exact h
  · next hx => exact putZone_braked hx (fun _ k => withoutBit_get k) (fun k => k) h

theorem setZoneFault_braked (cause : ZoneFault) (h : r.Braked) : (setZoneFault c z cause r).Braked := by
  have h2 : (if cause = .boundary then r.raise .fault else (r.raise .fault).report .zoneFault).Braked := by
    split
    · exact h.within (raise_within _) rfl rfl
    · exact (h.within (raise_within _) rfl rfl).within (report_within _) rfl rfl
  unfold setZoneFault
  dsimp only
  split
  · exact h2
  · split
    · exact h2
    · exact putZone_close_braked h2

theorem recordEntry_braked (v : Nat) (h : r.Braked) : (recordEntry z v r).Braked := by
  unfold recordEntry
  split
  · next hx => exact putZone_braked hx (fun _ k => k) (fun k => k) h
  · exact h

theorem clearZoneFault_braked (h : r.Braked) : (clearZoneFault z r).Braked := by
  unfold clearZoneFault
  split
  · next hx => exact putZone_braked hx (fun _ k => k) (fun k => (by cases k)) h
  · exact h

theorem Ride.Act.braked (h : Ride.Act c a b) (k : a.Braked) : b.Braked := by
  cases h with
  | quiet led narrow presented rest => exact k.changes narrow
  | claim z new => exact k.changes (setClaim_changes z new (.inl rfl))
  | hold z src => exact addHold_braked src k
  | fault z cause => exact setZoneFault_braked cause k
  | speed z v le => exact recordEntry_braked v k
  | put t x y hx moved => exact k.within (putTrain_within t y) rfl rfl
  | change t x y hx moved => exact k.within (changeTrain_within t x y) rfl rfl

theorem Ride.Acts.braked (h : Ride.Acts c a b) (k : a.Braked) : b.Braked := h.induct Ride.Braked (fun _ _ e => e.braked) k

/-! ### Opening -/

theorem readyToReserve_unheld (h : readyToReserve c r x = true) : r.Unheld x.head ∧ r.latched = false := by
  simp only [readyToReserve, Bool.and_eq_true, Bool.not_eq_true'] at h
  obtain ⟨⟨⟨⟨⟨⟨latched, -⟩, -⟩, -⟩, zone⟩, -⟩, -⟩ := h
  obtain ⟨zr, hz, k⟩ := option_any_some zone
  simp only [Bool.and_eq_true, beq_iff_eq] at k
  refine ⟨⟨fun src => ?_, ?_⟩, latched⟩
  · simp [Ride.held, hz, ZoneRec.holds?, k.1]
  · simp [Ride.zoneFault, hz, k.2]

/-- An open command turns on its own zone's output alone (R35). -/
theorem openElement_braked (creep : Bool) (h : r.Braked) (free : r.Unheld z) : (openElement c z creep r).Braked := fun u => by
  by_cases hu : u = z
  · subst hu
    exact .inr (free.changes (o := true) (q := false) (openElement_changes u creep rfl))
  · unfold openElement
    split
    · exact h u
    · have station := zoneStationEvent_changes (w := false) (o := false) (q := false) (c := c) (r := r) z .openCommand
      refine (h.changes station u).imp (fun e => e.congr (commandElement_apart _ hu)) fun e => ?_
      exact e.changes (o := true) (q := false) (commandElement_changes z _ (.inr rfl))

/-- What a reservation changes before its open command is neither a hold, a fault nor an element. -/
theorem chainReserved_unheld (chain : List ZoneIx) (h : r.Unheld u) : (chainReserved c k x chain r).Unheld u := by
  unfold chainReserved
  exact Ride.Unheld.changes (a := r.putTrain k { x with chain := chain }) (o := false) (q := true) h
    ((foldl_changes (fun r z => setClaim_changes z _ (.inl rfl)) _ _).trans (foldl_changes (fun r z => reservedAt_changes _ z) _ _))

theorem chainReserved_braked (chain : List ZoneIx) (h : r.Braked) : (chainReserved c k x chain r).Braked := by
  unfold chainReserved
  exact (h.within (putTrain_within k { x with chain := chain }) rfl rfl).changes (q := true)
    ((foldl_changes (fun r z => setClaim_changes z _ (.inl rfl)) _ _).trans (foldl_changes (fun r z => reservedAt_changes _ z) _ _))

theorem reserveChain_braked (chain : List ZoneIx) (creep : Bool) (hx : r.train? k = some x) (free : r.Unheld x.head) (h : r.Braked) :
    (reserveChain c k chain creep r).Braked := by
  rw [reserveChain_eq hx]
  exact openElement_braked creep ((chainReserved_braked chain h).within (putPresented_within k none) rfl rfl) (chainReserved_unheld chain free)

theorem reserveIfAvailable_braked (h : r.Braked) (k : SlotIx) : (reserveIfAvailable c k r).Braked := by
  unfold reserveIfAvailable
  split
  · next x chain hx _ =>
    split
    · next he =>
      rw [Bool.and_eq_true] at he
      exact reserveChain_braked chain false hx (readyToReserve_unheld (eligible_ready he.1)).1 h
    · exact h
  · exact h

theorem reconsider_braked (h : r.Braked) : (reconsider c r).Braked :=
  overAll_induct Ride.Braked _ (fun k _ e => reserveIfAvailable_braked e k) _ (h.within (presentations_within (c := c) r) rfl rfl)

/-- With no output asserted and nothing to reserve, the reconsideration asserts none. -/
theorem reconsider_shut (calm : c.calm r) (h : r.Shut) : (reconsider c r).Shut := fun z =>
  (h z).congr ((reconsider_calm calm).element? rfl z)

/-- The end of a step leaves outputs asserted in zones without hold or fault alone, and none where the ride stop is latched: told of the
latch, if it is new, and shut already, if it is not. -/
theorem conclude_braked {before after : Ride} (h : after.Braked) (shut : before.latched = true → after.latched = true → after.Shut) :
    (conclude c before after).Braked ∧ ((conclude c before after).latched = true → (conclude c before after).Shut) := by
  have told : (tellLatched c before after).Braked ∧ ((tellLatched c before after).latched = true → (tellLatched c before after).Shut) := by
    unfold tellLatched
    split
    · exact ⟨stopRide_shut.braked, fun _ => stopRide_shut⟩
    · next hn =>
      refine ⟨h, fun l => shut ?_ l⟩
      rw [l] at hn
      simpa using hn
  unfold conclude
  dsimp only
  split
  · next hl =>
    rw [Bool.and_eq_true] at hl
    have latched : ((reconsider c (tellLatched c before after)).stopRide c).latched = true :=
      (stopRide_changes (w := true) (o := true) (q := true)).latched hl.2
    have e := reconsider_shut (c := c) (.inr latched) stopRide_shut
    exact ⟨e.braked, fun _ => e⟩
  · next hn =>
    refine ⟨reconsider_braked told.1, fun l => ?_⟩
    have l1 : (tellLatched c before after).latched = true := by
      rw [l] at hn
      simpa using hn
    exact reconsider_shut (.inr l1) (told.2 l1)

/-! ### The operations -/

/-- The operations that are no sequence of acts: what removes holds, causes and faults, locks a faulted switch, and makes, frees and
steps a train. -/
inductive OddOp (i : Instr) (s : State) : Ride → Prop
  | lift (zones : List ZoneIx) (src : HoldSource)
      (who : (∃ dt f, i = .releaseHold dt f) ∨ (∃ dt f, i = .applySelection dt f) ∧ src = .link ∨
        ((∃ dt j, i = .functionInputChange dt j) ∨ ∃ dt j high, i = .functionInputRawChange dt j high) ∧ src = .input) :
      OddOp i s (zones.foldl (fun r z => removeHold z src r) s.ride)
  | resume (latched : s.ride.latched = true) (free : s.resumeBarred = false) : OddOp i s { s.ride with causes := 0#11 }
  | clearZone (z : ZoneIx) : OddOp i s (clearZoneFault z s.ride)
  | clearElement (z : ZoneIx) (faulted : s.ride.elementFaulted z = true) : OddOp i s (brakeBecomes s.ctx z .closed .close s.ride)
  | clearSwitch (w : SwitchIx) (side : Side) : OddOp i s (lockSwitch s.ctx w side s.ride)
  | admitted {dt f} (who : i = .admitTrain dt f) (mode : s.mode = .maintenance) (t : SlotIx) (z : ZoneIx) (d : ZoneDesc) (label : Nat)
      (lo : 1 ≤ label) (hi : label ≤ 255) (zone : s.map.zone z = some d) (fresh : s.ride.labelUsed label = false)
      (room : s.ride.trainCount < s.map.admissionLimit) (free : s.ride.freeIx = some t) (can : s.canAdmit z d = true) :
      OddOp i s (admitAt s.ctx t z label s.ride)
  | retire {dt f} (who : i = .retire dt f) (mode : s.mode = .maintenance) (t : SlotIx) (x : Train) (train : s.ride.train? t = some x) :
      OddOp i s (retireTrain s.ctx t s.ride)
  | step (mode : s.mode = .maintenance) (t : SlotIx) (x : Train) (chain : List ZoneIx)
      (train : s.ride.train? t = some x) (can : stepChain s.ctx s.ride t x = some chain) :
      OddOp i s (takeStep s.ctx t x chain s.ride)

theorem requestMove_acts (w : SwitchIx) (side : Side) (src : MoveSource) : Ride.Acts c r (requestMove c w side src r) :=
  .one (.quiet (.of_within (requestMove_within w side src) rfl rfl) (requestMove_changes w side src)
    ((requestMove_within w side src).presented rfl) fun _ h => h.within (requestMove_within w side src) rfl rfl)

theorem brakeProofChange_acts (z : ZoneIx) : Ride.Acts c r (brakeProofChange c z r) :=
  .one (.quiet (brakeProofChange_led z rfl) (brakeProofChange_changes z) ((brakeProofChange_within z).presented rfl)
    fun _ h => brakeProofChange_rest h)

theorem proofTaken_acts (line : ProofLine) : Ride.Acts c r (proofTaken c line r) := by
  unfold proofTaken
  split
  · exact brakeProofChange_acts _
  · split
    · exact .one (.quiet (.of_within (switchProofChange_within _ _ _) rfl rfl) (switchProofChange_changes _ _ _)
        ((switchProofChange_within _ _ _).presented rfl) fun _ h => h.within (switchProofChange_within _ _ _) rfl rfl)
    · exact .refl r

/-- An operation on the ride is a sequence of acts, or one of those that are none. -/
theorem RideOp.acts (op : RideOp i s r) : Ride.Acts s.ctx s.ride r ∨ OddOp i s r := by
  cases op with
  | hold who inUse z => exact .inl (.one (.hold z _))
  | release who inUse z src => exact .inr (.lift [z] src (.inl ⟨_, _, who⟩))
  | apply who inUse zones hold =>
    cases hold with
    | true => exact .inl (.foldl (fun r z => .one (.hold z _)) _ _)
    | false => exact .inr (.lift zones .link (.inr (.inl ⟨⟨_, _, who⟩, rfl⟩)))
  | stop who => exact .inl (report_acts _)
  | resume who inUse latched free => exact .inr (.resume latched free)
  | clearZone who inUse z => exact .inr (.clearZone z)
  | clearElement who inUse z faulted => exact .inr (.clearElement z faulted)
  | clearSwitch who inUse w side => exact .inr (.clearSwitch w side)
  | dispatch who st e free => exact .inl (stationEvent_acts st e (.inr free))
  | cancel who st => exact .inl (stationEvent_acts st _ (.inl (by simp)))
  | move who w side => exact .inl (requestMove_acts w side _)
  | admitted who mode t z d label lo hi zone fresh room free can => exact .inr (.admitted who mode t z d label lo hi zone fresh room free can)
  | retire who mode t x train => exact .inr (.retire who mode t x train)
  | step who mode t x chain train can => exact .inr (.step mode t x chain train can)
  | event who b d stamp e => exact .inl handEvent_acts
  | berth who z => exact .inl onBerth_acts
  | derive who levels =>
    refine .inl (.overAll (fun b r => ?_) _)
    split
    · split
      · exact boundaryFaulted_acts
      · exact .refl r
    · exact .refl r
  | stall who d dir => exact .inl onStall_acts
  | journey who => exact .inl onJourneyExpiry_acts
  | stopping who => exact .inl onStopExpiry_acts
  | proof who => exact .inl (proofTaken_acts _)
  | proofTimer who => exact .inl (.one (.quiet (proofExpiry_led _) (proofExpiry_changes _) ((proofExpiry_within _).presented rfl)
      fun _ h => proofExpiry_rest h))
  | moveTimer who due =>
    exact .inl (.one (.quiet (.of_within (faultSwitch_within _ _) rfl rfl) (faultSwitch_changes _ _ (moveDue_sound due))
      ((faultSwitch_within _ _).presented rfl) fun _ h => h.within (faultSwitch_within _ _) rfl rfl))
  | drive who => exact .inl (.one (.quiet (channelStep_led _ rfl) (channelStep_changes _) ((channelStep_within _).presented rfl)
      fun _ h => channelStep_rest h))
  | input who f on =>
    refine (functionChange_acts f on).imp (fun h => h) fun ⟨z, h⟩ => ?_
    rw [h]
    refine .lift [z] .input (.inr (.inr ⟨?_, rfl⟩))
    exact who.imp (fun e => ⟨_, _, e⟩) fun ⟨high, e⟩ => ⟨_, _, high, e⟩
  | levels who => exact .inl (.trans (.overAll (fun j r => inputFound_acts j) _) (.overAll (fun st r => stationFound_acts st) _))
  | wait who => exact .inl (stationEvent_acts _ _ (.inl (by simp)))

/-- Every act is a small change that opens nothing. -/
theorem Ride.Act.changes (h : Ride.Act c a b) : Changes true false true a b := by
  cases h with
  | quiet led narrow presented rest => exact narrow.mono (by simp) (by simp) (by simp)
  | claim z new => exact setClaim_changes z new (.inl rfl)
  | hold z src => exact addHold_changes z src rfl
  | fault z cause => exact setZoneFault_changes z cause rfl
  | speed z v le => exact recordEntry_changes z v
  | put t x y hx moved =>
    exact putTrain_changes hx moved.label (.inl rfl) (fun h => moved.chain (h.1 t x hx)) fun e v => ⟨moved.early e, moved.overdue v⟩
  | change t x y hx moved =>
    exact changeTrain_changes hx moved.label (.inl rfl) (fun h => moved.chain (h.1 t x hx)) fun e v => ⟨moved.early e, moved.overdue v⟩

theorem Ride.Acts.changes (h : Ride.Acts c a b) : Changes true false true a b :=
  h.induct (Changes true false true a) (fun _ _ e k => k.trans e.changes) (.refl a)

theorem removeHolds_changes (zones : List ZoneIx) (src : HoldSource) :
    Changes true false true r (zones.foldl (fun r z => removeHold z src r) r) := foldl_changes (fun _ z => removeHold_changes z src rfl) _ _

/-- The ride of a RETIRE: the elements and the holds are those of a sequence of small changes and of a slot freed. -/
theorem retireTrain_braked (h : r.Braked) : (retireTrain c k r).Braked := by
  have claims : Changes false false true r (clearZonesOf c k r) := overAll_changes (fun z r => by
    split
    · exact setClaim_changes z _ (.inl rfl)
    · exact .refl r) r
  have freed := (((h.changes claims).within (putPresented_within k none) rfl rfl).within (withdrawSwitches_within k) rfl rfl).within (freeSlot_within k) rfl rfl
  exact freed.changes (q := true) (closeWhere_changes _)

theorem retireTrain_shut (h : r.Shut) : (retireTrain c k r).Shut := by
  have claims : Changes false false true r (clearZonesOf c k r) := overAll_changes (fun z r => by
    split
    · exact setClaim_changes z _ (.inl rfl)
    · exact .refl r) r
  have freed : ((withdrawSwitches k ((clearZonesOf c k r).putPresented k none)).freeSlot k).Shut :=
    fun z => (((h.changes claims z).congr ((putPresented_within k none).element? rfl z)).congr
      ((withdrawSwitches_within k).element? rfl z)).congr ((freeSlot_within k).element? rfl z)
  exact freed.changes (w := false) (q := true) (closeWhere_changes _)

theorem admitAt_changes (label : Nat) :
    Changes false false true (r.putTrain k (admittedTrain (c.map.isSpur z) z label)) (admitAt c k z label r) := by
  unfold admitAt
  dsimp only
  split
  · exact setClaim_changes z _ (.inl rfl)
  · exact (setClaim_changes z _ (.inl rfl)).trans (zoneStationEvent_changes z _)

theorem clearElement_braked (h : r.Braked) : (brakeBecomes c z .closed .close r).Braked := by
  refine Ride.Braked.changes (a := r.putElement z (.brake .closed .close)) (fun u => ?_) (brakeBecomes_after z .closed .close)
  by_cases hu : u = z
  · subst hu
    refine .inl fun e he => ?_
    change tget (tput _ _ _) _ = _ at he
    rw [tget_tput_same] at he
    cases he
    rfl
  · exact (h u).imp (fun e => e.congr (tget_tput_other _ _ _ _ hu)) fun e => e

theorem clearElement_shut (h : r.Shut) : (brakeBecomes c z .closed .close r).Shut := fun u e he => by
  rw [brakeBecomes_element] at he
  split at he
  · cases he
    rfl
  · exact h u e he

theorem OddOp.braked (op : OddOp i s r) (h : s.ride.Braked) : r.Braked := by
  cases op with
  | lift zones src who => exact foldl_induct Ride.Braked _ (fun _ _ e => removeHold_braked src e) _ _ h
  | resume latched free => exact h
  | clearZone z => exact clearZoneFault_braked h
  | clearElement z faulted => exact clearElement_braked h
  | clearSwitch w side => exact h.within (lockSwitch_within w side) rfl rfl
  | admitted who mode t z d label => exact (h.within (putTrain_within t _) rfl rfl).changes (admitAt_changes label)
  | retire who mode t x train => exact retireTrain_braked h
  | step mode t x chain train can =>
    have ready := readyToReserve_unheld (stepChain_spec can).2.1
    have put : (s.ride.putTrain t { x with stepping := true }).Braked := h.within (putTrain_within t _) rfl rfl
    have grant := grantChain_within (c := s.ctx) (r := s.ride.putTrain t { x with stepping := true }) t x.head chain
    refine reserveChain_braked (x := { x with stepping := true }) chain true ?_ ?_ (put.within grant rfl rfl)
    · rw [grant.train? rfl]
      exact putTrain_same ..
    · exact Ride.Unheld.changes (a := s.ride.putTrain t { x with stepping := true }) (o := false) (q := false) ready.1
        (grantChain_changes t _ _)

theorem OddOp.shut (op : OddOp i s r) (h : s.ride.Shut) (latched : s.ride.latched = true) : r.Shut := by
  cases op with
  | lift zones src who => exact h.changes (removeHolds_changes zones src)
  | resume latched free => exact h
  | clearZone z => 
    unfold clearZoneFault
    split
    · exact h
    · exact h
  | clearElement z faulted => exact clearElement_shut h
  | clearSwitch w side => exact fun z => (h z).congr ((lockSwitch_within w side).element? rfl z)
  | admitted who mode t z d label => exact Ride.Shut.changes (a := s.ride.putTrain t _) h (admitAt_changes label)
  | retire who mode t x train => exact retireTrain_shut h
  | step mode t x chain train can =>
    rw [(readyToReserve_unheld (stepChain_spec can).2.1).2] at latched
    cases latched

theorem RideOp.braked (op : RideOp i s r) (h : s.ride.Braked) : r.Braked :=
  op.acts.elim (fun k => k.braked h) fun k => k.braked h

/-- No operation turns an output on under a latched ride stop (R160). -/
theorem RideOp.shut (op : RideOp i s r) (h : s.ride.Shut) (latched : s.ride.latched = true) : r.Shut :=
  op.acts.elim (fun k => h.changes k.changes) fun k => k.shut h latched

/-! ### The invariant -/

theorem State.brakesInvariant_iff (s : State) : s.brakesInvariant ↔ s.ride.Braked ∧ (s.ride.latched = true → s.ride.Shut) := by
  constructor
  · intro h
    have on : ∀ z, ¬ s.ride.OutputOff z → s.ride.Unheld z ∧ s.ride.latched = false := fun z hz => by
      rw [← elementOutput_iff] at hz
      obtain ⟨holds, fault, latched⟩ := h z (by simpa using hz)
      exact ⟨⟨holds, fault⟩, latched⟩
    refine ⟨fun z => Classical.or_iff_not_imp_left.mpr fun hz => (on z hz).1, fun latched z => by_contra fun hz => ?_⟩
    rw [(on z hz).2] at latched
    cases latched
  · rintro ⟨braked, shut⟩ z hz
    have off : ¬ s.ride.OutputOff z := fun h => by
      rw [← elementOutput_iff] at h
      rw [h] at hz
      cases hz
    obtain ⟨holds, fault⟩ := (braked z).resolve_left off
    exact ⟨holds, fault, by_contra fun hl => off (shut (by simpa using hl) z)⟩

theorem builtRide_shut : (builtRide c r).Shut := fun z e he => by
  change tget (tgen _) _ = _ at he
  rw [tget_tgen] at he
  unfold freshElement at he
  split at he <;> cases he <;> rfl

theorem Effect.brakes_kept {a b : State} (h : Effect i a b) (k : a.brakesInvariant) : b.brakesInvariant := by
  rw [State.brakesInvariant_iff] at k ⊢
  cases h with
  | takeUp who pass =>
    have shut (c : Ctx) : (takeUpRide c a.ride).Shut := builtRide_shut.changes (w := false) (q := false) takeUpRide_after
    exact conclude_braked (shut _).braked fun _ _ => shut _
  | putAway who mode empty =>
    have e : (Machine.putAway a).ride.Empty :=
      (report_changes (w := true) (o := true) (q := true) .start).empty ⟨rfl, rfl, rfl, rfl, rfl, rfl, rfl⟩
    have shut : (Machine.putAway a).ride.Shut := fun z x hx => by
      rw [Ride.element?, e.elements, tget_replicate] at hx
      cases hx
    exact ⟨shut.braked, fun _ => shut⟩
  | toAuto who mode => exact conclude_braked k.1 fun _ => k.2
  | toMaintenance who mode =>
    exact conclude_braked (k.1.changes (q := false) cancelDemands_changes) fun l _ => (k.2 l).changes (w := false) (q := false) cancelDemands_changes
  | ride r op => exact conclude_braked (op.braked k.1) fun l _ => op.shut (k.2 l) l
  | @window dt st who =>
    have same : (windowExpiry st a.ride).latched = a.ride.latched := (windowExpiry_within st).latched rfl
    exact ⟨k.1.changes (q := false) (windowExpiry_changes st), fun l =>
      (k.2 (same ▸ l)).changes (w := false) (q := false) (windowExpiry_changes st)⟩
  | _ => exact k

/-- Settles O14: what adds a hold or a fault, and what latches the ride stop, closes; only an open command asserts an output, for a train
ready to go. -/
theorem brakesStayShut : Obligations.BrakesStayShut := by
  intro s t hs h
  refine step_keeps State.brakesInvariant (fun _ _ _ h => h) (fun s t _ h => ?_) (fun _ _ _ h => h.brakes_kept) hs h
  obtain ⟨_, _, _, rfl⟩ := h
  have shut : (startUpReset s).ride.Shut := fun z x hx => by
    change tget (Vector.replicate 48 none) z = some x at hx
    rw [tget_replicate] at hx
    cases hx
  exact (State.brakesInvariant_iff _).mpr ⟨shut.braked, fun _ => shut⟩

end Sys2Proof.Machine
end

section
/-! PROOF. Hold sources leave a zone only by what removes them (R37, R38, R42). -/

namespace Sys2Proof.Machine

variable {i : Instr} {s t : State} {c : Ctx} {w o q : Bool} {a b d r : Ride} {z u : ZoneIx} {x : Train} {k : SlotIx} {src : HoldSource}

/-- Every zone has the hold sources, the fault and the entry speed it had. -/
def Ride.SameZones (a b : Ride) : Prop :=
  ∀ z, (b.zone? z).map (fun x => (x.holds, x.fault, x.entrySpeed)) = (a.zone? z).map fun x => (x.holds, x.fault, x.entrySpeed)

namespace Ride.SameZones

theorem refl (a : Ride) : a.SameZones a := fun _ => rfl

theorem trans (h : a.SameZones b) (k : b.SameZones d) : a.SameZones d := fun z => (k z).trans (h z)

theorem of_changes (h : Changes false o q a b) : a.SameZones b := h.zone_kept

theorem of_within {p : Parts} (h : Ride.Within p a b) (e : p.zones = false) : a.SameZones b := fun z => by rw [h.zone? e]

theorem cases (h : a.SameZones b) (z : ZoneIx) : (a.zone? z = none ∧ b.zone? z = none) ∨
    ∃ x y, a.zone? z = some x ∧ b.zone? z = some y ∧ y.holds = x.holds ∧ y.fault = x.fault ∧ y.entrySpeed = x.entrySpeed := by
  have k := h z
  cases ha : a.zone? z with
  | none =>
    rw [ha] at k
    exact .inl ⟨rfl, Option.map_eq_none_iff.mp k⟩
  | some x =>
    rw [ha] at k
    obtain ⟨y, hy, e⟩ := Option.map_eq_some_iff.mp k
    simp only [Prod.mk.injEq] at e
    exact .inr ⟨x, y, rfl, hy, e⟩

theorem held (h : a.SameZones b) (z : ZoneIx) (src : HoldSource) : b.held z src = a.held z src := by
  rcases h.cases z with ⟨ha, hb⟩ | ⟨x, y, ha, hb, e, -⟩ <;> simp [Ride.held, ZoneRec.holds?, *]

theorem fault (h : a.SameZones b) (z : ZoneIx) : b.zoneFault z = a.zoneFault z := by
  rcases h.cases z with ⟨ha, hb⟩ | ⟨x, y, ha, hb, -, e, -⟩ <;> simp [Ride.zoneFault, *]

theorem speed (h : a.SameZones b) (z : ZoneIx) : b.entrySpeed z = a.entrySpeed z := by
  rcases h.cases z with ⟨ha, hb⟩ | ⟨x, y, ha, hb, -, -, e⟩ <;> simp [Ride.entrySpeed, *]

end Ride.SameZones

/-! ### Operations that leave every zone's holds and fault -/

theorem clearZonesOf_sameZones : r.SameZones (clearZonesOf c k r) :=
  .of_changes (o := false) (q := true) (overAll_changes (fun z r => by
    split
    · exact setClaim_changes z _ (.inl rfl)
    · exact .refl r) r)

theorem retireTrain_sameZones : r.SameZones (retireTrain c k r) :=
  (((clearZonesOf_sameZones.trans (.of_within (putPresented_within k none) rfl)).trans (.of_within (withdrawSwitches_within k) rfl)).trans
    (.of_within (freeSlot_within k) rfl)).trans (.of_changes (o := false) (q := false) (closeWhere_changes _))

theorem admitAt_sameZones (label : Nat) : r.SameZones (admitAt c k z label r) :=
  (Ride.SameZones.of_within (putTrain_within k _) rfl).trans (.of_changes (admitAt_changes label))

theorem chainReserved_sameZones (chain : List ZoneIx) : r.SameZones (chainReserved c k x chain r) := by
  unfold chainReserved
  exact (Ride.SameZones.of_within (putTrain_within k _) rfl).trans (.of_changes (o := false) (q := true)
    ((foldl_changes (fun r z => setClaim_changes z _ (.inl rfl)) _ _).trans (foldl_changes (fun r z => reservedAt_changes _ z) _ _)))

theorem reserveChain_sameZones (chain : List ZoneIx) (creep : Bool) : r.SameZones (reserveChain c k chain creep r) := by
  cases hx : r.train? k with
  | none =>
    simp only [reserveChain, hx]
    exact .refl r
  | some x =>
    rw [reserveChain_eq hx]
    exact ((chainReserved_sameZones chain).trans (.of_within (putPresented_within k none) rfl)).trans
      (.of_changes (o := true) (q := false) (openElement_changes _ creep rfl))

theorem takeStep_sameZones (chain : List ZoneIx) : r.SameZones (takeStep c k x chain r) := by
  unfold takeStep
  exact ((Ride.SameZones.of_within (putTrain_within k _) rfl).trans (.of_within (grantChain_within _ _ _) rfl)).trans
    (reserveChain_sameZones _ _)

theorem clearElement_sameZones : r.SameZones (brakeBecomes c z .closed .close r) :=
  (Ride.SameZones.of_within (putElement_within z _) rfl).trans (.of_changes (brakeBecomes_after z .closed .close))

/-! ### Holds through the operations -/

theorem putZone_held {y x : ZoneRec} (hx : r.zone? u = some x) (holds : x.holds? src = true → y.holds? src = true)
    (h : r.held z src = true) : (r.putZone u y).held z src = true := by
  by_cases hz : z = u
  · subst hz
    have e : (r.putZone z y).zone? z = some y := tget_tput_same ..
    rw [Ride.held, hx] at h
    rw [Ride.held, e]
    exact holds h
  · have e : (r.putZone u y).zone? z = r.zone? z := tget_tput_other _ _ _ _ hz
    rw [Ride.held, e]
    exact h

theorem Changes.held (k : Changes false o q a b) (h : a.held z src = true) : b.held z src = true := (k.keeps.holds z src).trans h

theorem addHold_held {src' : HoldSource} (h : r.held z src = true) : (addHold c u src' r).held z src = true := by
  unfold addHold
  split
  · exact h
  · next x hx =>
    split
    · exact h
    · have put : (r.putZone u { x with holds := withBit x.holds src'.bit }).held z src = true :=
        putZone_held hx (fun k => withBit_get x.holds _ _ k) h
      exact (closeElement_changes (o := false) (q := false) u).held put

theorem setZoneFault_held {cause : ZoneFault} (h : r.held z src = true) : (setZoneFault c u cause r).held z src = true := by
  have h2 : (if cause = .boundary then r.raise .fault else (r.raise .fault).report .zoneFault).held z src = true := by
    split
    · exact h
    · exact ((Ride.SameZones.of_within (report_within _) rfl).held z src).trans h
  unfold setZoneFault
  dsimp only
  generalize (if cause = .boundary then r.raise .fault else (r.raise .fault).report .zoneFault) = r2 at h2
  split
  · exact h2
  · next x hx =>
    split
    · exact h2
    · have put : (r2.putZone u { x with fault := some cause }).held z src = true := putZone_held hx (fun k => k) h2
      exact (closeElement_changes (o := false) (q := false) u).held put

theorem recordEntry_held {v : Nat} (h : r.held z src = true) : (recordEntry u v r).held z src = true := by
  unfold recordEntry
  split
  · next x hx => exact putZone_held hx (fun k => k) h
  · exact h

/-- No act removes a hold source. -/
theorem Ride.Act.held (h : Ride.Act c a b) (k : a.held z src = true) : b.held z src = true := by
  cases h with
  | quiet led narrow presented rest => exact narrow.held k
  | claim u new => exact (setClaim_changes (o := false) u new (.inl rfl)).held k
  | hold u src' => exact addHold_held k
  | fault u cause => exact setZoneFault_held k
  | speed u v le => exact recordEntry_held k
  | put t x y hx moved => exact k
  | change t x y hx moved => exact ((Ride.SameZones.of_within (changeTrain_within t x y) rfl).held z src).trans k

theorem Ride.Acts.held (h : Ride.Acts c a b) (k : a.held z src = true) : b.held z src = true :=
  h.induct (fun r => r.held z src = true) (fun _ _ e => e.held) k

theorem withoutBit_other {n : Nat} {v : BitVec n} {j l : Nat} (ne : j ≠ l) (h : v.getLsbD j = true) : (withoutBit v l).getLsbD j = true := by
  have hj : j < n := by
    by_contra e
    rw [BitVec.getLsbD_of_ge v j (by omega)] at h
    cases h
  simp [withoutBit, h, hj, ne]

theorem removeHold_other {src' : HoldSource} (ne : src ≠ src') (h : r.held z src = true) : (removeHold u src' r).held z src = true := by
  unfold removeHold
  split
  · exact h
  · next x hx =>
    have bits : src.bit ≠ src'.bit := by cases src <;> cases src' <;> first | exact absurd rfl ne | decide
    exact putZone_held hx (fun k => withoutBit_other bits k) h

/-- What the step may not remove stays. -/
def MayNotLift (i : Instr) (src : HoldSource) : Prop :=
  (∀ dt f, i ≠ .releaseHold dt f) ∧ (src = .link → ∀ dt f, i ≠ .applySelection dt f) ∧
  (src = .input → (∀ dt j high, i ≠ .functionInputRawChange dt j high) ∧ ∀ dt j, i ≠ .functionInputChange dt j)

theorem clearZoneFault_held (h : r.held z src = true) : (clearZoneFault u r).held z src = true := by
  unfold clearZoneFault
  split
  · next x hx => exact putZone_held hx (fun k => k) h
  · exact h

theorem OddOp.held (op : OddOp i s r) (stays : MayNotLift i src) (h : s.ride.held z src = true) : r.held z src = true := by
  cases op with
  | lift zones src' who =>
    have ne : src ≠ src' := by
      rintro rfl
      obtain ⟨release, apply, input⟩ := stays
      rcases who with ⟨dt, f, e⟩ | ⟨⟨dt, f, e⟩, link⟩ | ⟨⟨dt, j, e⟩ | ⟨dt, j, high, e⟩, line⟩
      · exact release dt f e
      · exact apply link dt f e
      · exact (input line).2 dt j e
      · exact (input line).1 dt j high e
    exact foldl_induct (fun r : Ride => r.held z src = true) _ (fun _ _ e => removeHold_other ne e) _ _ h
  | resume latched free => exact h
  | clearZone u => exact clearZoneFault_held h
  | clearElement u faulted => exact (clearElement_sameZones.held z src).trans h
  | clearSwitch w side => exact ((Ride.SameZones.of_within (lockSwitch_within w side) rfl).held z src).trans h
  | admitted who mode t u d label => exact ((admitAt_sameZones label).held z src).trans h
  | retire who mode t x train => exact (retireTrain_sameZones.held z src).trans h
  | step mode t x chain train can => exact ((takeStep_sameZones chain).held z src).trans h

theorem Effect.held_kept {a b : State} (h : Effect i a b) (hi : takesUp i = false) (stays : MayNotLift i src)
    (k : a.ride.held z src = true) : b.ride.held z src = true := by
  have out : ∀ {p : Prop}, takesUp i = true → p := fun e => by rw [e] at hi; cases hi
  cases h with
  | takeUp who =>
    rcases who with ⟨⟨dt, f, e⟩, -⟩ | ⟨⟨dt, e⟩, -⟩ <;> exact out (by rw [e]; rfl)
  | putAway who | toAuto who | toMaintenance who => exact out (by rw [who]; rfl)
  | ride r op => exact conclude_narrow.held (op.acts.elim (fun e => e.held k) fun e => e.held stays k)
  | window who => exact ((Ride.SameZones.of_within (windowExpiry_within _) rfl).held z src).trans k
  | _ => exact k

/-- Settles O18: of the operations only the removal of a hold source removes one, and it names the source. -/
theorem holdSourcesStay : Obligations.HoldSourcesStay := by
  intro i s t z src h hr hi release apply input hs
  exact (exec_effects h hr).induct (fun r => r.ride.held z src = true) (fun _ _ e => e.held_kept hi ⟨release, apply, input⟩) hs

end Sys2Proof.Machine
end

section
/-! PROOF. The latching of the ride stop (R36, R136, R150, R160): once latched, no operation opens a brake, gives a drive a target or
forms a demand. -/

namespace Sys2Proof.Machine

variable {i : Instr} {s t : State} {c : Ctx} {a b r : Ride} {z : ZoneIx} {k : SlotIx}

theorem addHold_rest {src : HoldSource} (h : r.AtRest c) : (addHold c z src r).AtRest c := by
  unfold addHold
  split
  · exact h
  · split
    · exact h
    · exact closeElement_rest (h.within (putZone_within z _) rfl rfl)

theorem setZoneFault_rest {cause : ZoneFault} (h : r.AtRest c) : (setZoneFault c z cause r).AtRest c := by
  have h2 : (if cause = .boundary then r.raise .fault else (r.raise .fault).report .zoneFault).AtRest c := by
    split
    · exact h.within (raise_within _) rfl rfl
    · exact (h.within (raise_within _) rfl rfl).within (report_within _) rfl rfl
  unfold setZoneFault
  dsimp only
  split
  · exact h2
  · split
    · exact h2
    · exact closeElement_rest (h2.within (putZone_within z _) rfl rfl)

theorem recordEntry_rest {v : Nat} (h : r.AtRest c) : (recordEntry z v r).AtRest c := by
  unfold recordEntry
  split
  · exact h.within (putZone_within z _) rfl rfl
  · exact h

theorem Ride.Act.rest (h : Ride.Act c a b) (latched : a.latched = true) (k : a.AtRest c) : b.AtRest c := by
  cases h with
  | quiet led narrow presented rest => exact rest latched k
  | claim z new => exact setClaim_rest k
  | hold z src => exact addHold_rest k
  | fault z cause => exact setZoneFault_rest k
  | speed z v le => exact recordEntry_rest k
  | put t x y hx moved => exact k.within (putTrain_within t y) rfl rfl
  | change t x y hx moved => exact changeTrain_rest k

theorem Ride.Acts.rest (h : Ride.Acts c a b) (latched : a.latched = true) (k : a.AtRest c) : b.AtRest c :=
  (h.induct (fun r => r.latched = true ∧ r.AtRest c) (fun _ _ e h => ⟨e.changes.latched h.1, e.rest h.1 h.2⟩) ⟨latched, k⟩).2

theorem removeHold_rest {src : HoldSource} (h : r.AtRest c) : (removeHold z src r).AtRest c := by
  unfold removeHold
  split
  · exact h
  · exact h.within (putZone_within z _) rfl rfl

theorem clearZonesOf_rest (h : r.AtRest c) : (clearZonesOf c k r).AtRest c :=
  overAll_induct (Ride.AtRest c) _ (fun z _ e => by
    split
    · exact setClaim_rest e
    · exact e) r h

theorem retireTrain_rest (h : r.AtRest c) : (retireTrain c k r).AtRest c := by
  have freed := (((clearZonesOf_rest (k := k) h).within (putPresented_within k none) rfl rfl).within (withdrawSwitches_within k) rfl rfl).within
    (freeSlot_within k) rfl rfl
  exact closeWhere_rest freed

theorem admitAt_rest {label : Nat} (h : r.AtRest c) : (admitAt c k z label r).AtRest c := by
  have h1 := setClaim_rest (z := z) (new := .occupied k) (h.within (putTrain_within k (admittedTrain (c.map.isSpur z) z label)) rfl rfl)
  unfold admitAt
  dsimp only
  split
  · exact h1
  · exact zoneStationEvent_rest h1 (by simp)

theorem OddOp.rest (op : OddOp i s r) (latched : s.ride.latched = true) (h : s.ride.AtRest s.ctx) : r.AtRest s.ctx := by
  cases op with
  | lift zones src who => exact foldl_induct (Ride.AtRest s.ctx) _ (fun _ _ e => removeHold_rest e) _ _ h
  | resume _ free => exact ⟨h.drives, h.demands⟩
  | clearZone z =>
    unfold clearZoneFault
    split
    · exact h.within (putZone_within z _) rfl rfl
    · exact h
  | clearElement z faulted => exact brakeBecomes_rest h
  | clearSwitch w side => exact h.within (lockSwitch_within w side) rfl rfl
  | admitted who mode t z d label => exact admitAt_rest h
  | retire who mode t x train => exact retireTrain_rest h
  | step mode t x chain train can =>
    rw [(readyToReserve_unheld (stepChain_spec can).2.1).2] at latched
    cases latched

theorem RideOp.rest (op : RideOp i s r) (latched : s.ride.latched = true) (h : s.ride.AtRest s.ctx) : r.AtRest s.ctx :=
  op.acts.elim (fun k => k.rest latched h) fun k => k.rest latched h

/-! ### The end of a step -/

/-- The brakes close, the drives stop and no demand is left. -/
def Ride.Stopped (c : Ctx) (r : Ride) : Prop := r.Shut ∧ r.AtRest c

theorem stopRide_stopped : (r.stopRide c).Stopped c := ⟨stopRide_shut, stopRide_rest⟩

theorem reconsider_stopped (latched : r.latched = true) (h : r.Stopped c) : (reconsider c r).Stopped c :=
  ⟨reconsider_shut (.inr latched) h.1, h.2.within (reconsider_calm (.inr latched)) rfl rfl⟩

/-- A step that ends with the ride stop latched ends with the ride stopped: told of the latch, if it is new, and stopped already, if it is
not. -/
theorem conclude_stopped {before after : Ride} (h : before.latched = true → after.latched = true → after.Stopped c)
    (latched : (conclude c before after).latched = true) : (conclude c before after).Stopped c := by
  have told : (tellLatched c before after).latched = true → (tellLatched c before after).Stopped c := by
    intro l
    unfold tellLatched at l ⊢
    split
    · exact stopRide_stopped
    · next hn =>
      rw [if_neg hn] at l
      refine h ?_ l
      rw [l] at hn
      simpa using hn
  unfold conclude at latched ⊢
  dsimp only at latched ⊢
  split
  · next hl =>
    rw [Bool.and_eq_true] at hl
    exact reconsider_stopped ((stopRide_changes (w := true) (o := true) (q := true)).latched hl.2) stopRide_stopped
  · next hn =>
    rw [if_neg hn] at latched
    have l : (tellLatched c before after).latched = true := by
      rw [latched] at hn
      simpa using hn
    exact reconsider_stopped l (told l)

/-! ### The effects -/

theorem Ride.AtRest.of_map {c' : Ctx} (h : r.AtRest c) (e : c'.map = c.map) : r.AtRest c' :=
  ⟨fun i x hx hd => h.drives i x hx (e ▸ hd), h.demands⟩

theorem takeUpRide_rest : (takeUpRide c r).AtRest c := by
  have built : (builtRide c r).AtRest c := by
    refine ⟨fun j x hx _ => ?_, fun st x hx => ?_⟩
    · change tget (tgen _) j = some x at hx
      rw [tget_tgen] at hx
      obtain ⟨d, -, rfl⟩ := Option.map_eq_some_iff.mp hx
      rfl
    · change tget (tgen _) st = some x at hx
      rw [tget_tgen] at hx
      obtain ⟨d, -, rfl⟩ := Option.map_eq_some_iff.mp hx
      rfl
  refine overAll_induct (Ride.AtRest c) _ (fun w r k => ?_) _ (overAll_induct (Ride.AtRest c) _ (fun z _ k => brakeProofChange_rest k) _ built)
  unfold reportFreshSwitch
  split
  · exact (k.within (raise_within _) rfl rfl).within (report_within _) rfl rfl
  · exact k

/-- A ride without records is stopped. -/
theorem Ride.Empty.stopped (h : r.Empty) : r.Stopped c := by
  refine ⟨fun z x hx => ?_, fun j x hx => ?_, fun st x hx => ?_⟩
  · rw [Ride.element?, h.elements, tget_replicate] at hx
    cases hx
  · rw [Ride.channel?, h.channels, tget_replicate] at hx
    cases hx
  · rw [Ride.station?, h.stations, tget_replicate] at hx
    cases hx

/-- With the ride stop latched, the command has no map left to write or to install. -/
def Settled (i : Instr) (s : State) : Prop :=
  (∀ dt kind len body crc, i ≠ .hostDataBlock dt kind len body crc) ∧ (∀ dt f, i ≠ .reloadMap dt f) ∧
  ∀ dt, i = .load dt → s.mode ≠ .loading

/-- No operation on the ride is a command that writes or installs a map. -/
theorem RideOp.settled (op : RideOp i s r) : Settled i s := by
  unfold Settled
  cases op with
  | event who | berth who | input who => rcases who with rfl | ⟨high, rfl⟩ <;> simp
  | proof who => rcases who with rfl | rfl <;> simp
  | hold who | release who | apply who | stop who | resume who | clearZone who | clearElement who | clearSwitch who | dispatch who
  | cancel who | move who | admitted who | retire who | step who | derive who | stall who | journey who | stopping who
  | proofTimer who | moveTimer who | drive who | levels who | wait who => subst who; simp

/-- With the ride stop latched, the ride is stopped. -/
def StopsWhere (i : Instr) (s : State) : Prop := s.ride.latched = true → s.ride.Stopped s.ctx ∧ Settled i s

theorem Effect.stopsWhere {a b : State} (h : Effect i a b) (k : StopsWhere i a) : StopsWhere i b := by
  have same {v : State} (hr : v.ride = a.ride) (hm : v.map = a.map) (hd : v.mode = a.mode) : StopsWhere i v := fun l => by
    rw [hr] at l
    obtain ⟨⟨shut, rest⟩, settled⟩ := k l
    unfold Ride.Stopped Settled
    rw [hr, hd]
    exact ⟨⟨shut, rest.of_map hm⟩, settled⟩
  cases h with
  | write who => exact fun l => absurd who ((k l).2.1 _ _ _ _ _)
  | reload who => exact fun l => absurd who ((k l).2.2.1 _ _)
  | install who mode => exact fun l => absurd mode ((k l).2.2.2 _ who)
  | loadFails who mode => exact fun l => absurd mode ((k l).2.2.2 _ who)
  | raise n => exact fun l => ⟨⟨(k l).1.1, (k l).1.2.within (raise_within n) rfl rfl⟩, (k l).2⟩
  | sent who snapshot => exact fun l => ⟨⟨(k l).1.1, ⟨(k l).1.2.drives, (k l).1.2.demands⟩⟩, (k l).2⟩
  | routeMode who w d old new h kind => exact fun l => ⟨⟨(k l).1.1, ⟨(k l).1.2.drives, (k l).1.2.demands⟩⟩, (k l).2⟩
  | takeUp who pass =>
    intro l
    have shut (c : Ctx) : (takeUpRide c a.ride).Shut := builtRide_shut.changes (w := false) (q := false) takeUpRide_after
    refine ⟨conclude_stopped (fun _ _ => ⟨shut _, takeUpRide_rest⟩) l, ?_, ?_, fun _ _ e => by cases e⟩
    · rintro dt kind len body crc rfl
      rcases who with ⟨⟨_, _, e⟩, -⟩ | ⟨⟨_, e⟩, -⟩ <;> cases e
    · rintro dt f rfl
      rcases who with ⟨⟨_, _, e⟩, -⟩ | ⟨⟨_, e⟩, -⟩ <;> cases e
  | putAway who mode empty =>
    intro l
    have e : (Machine.putAway a).ride.Empty :=
      (report_changes (w := true) (o := true) (q := true) .start).empty ⟨rfl, rfl, rfl, rfl, rfl, rfl, rfl⟩
    subst who
    exact ⟨e.stopped, by simp [Settled]⟩
  | toAuto who mode =>
    subst who
    exact fun l => ⟨conclude_stopped (fun l _ => ⟨(k l).1.1, (k l).1.2.of_map rfl⟩) l, by simp [Settled]⟩
  | toMaintenance who mode =>
    subst who
    refine fun l => ⟨conclude_stopped (fun l _ => ⟨(k l).1.1.changes (w := false) (q := false) cancelDemands_changes, ?_⟩) l, by simp [Settled]⟩
    exact overAll_induct (Ride.AtRest _) _ (fun st _ e => stationEvent_rest e (by simp)) _ ((k l).1.2.of_map rfl)
  | ride r op => exact fun l => ⟨conclude_stopped (fun l _ => ⟨op.shut (k l).1.1 l, op.rest l (k l).1.2⟩) l, op.settled⟩
  | @window dt st who =>
    intro l
    obtain ⟨⟨shut, rest⟩, settled⟩ := k (((windowExpiry_within st).latched rfl) ▸ l)
    refine ⟨⟨shut.changes (w := false) (q := false) (windowExpiry_changes st), ?_⟩, settled⟩
    unfold windowExpiry
    split
    · next hx =>
      have none := rest.demands _ _ hx
      exact putStation_rest rest none
    · exact rest
  | direct who inUse t x d train => exact fun l => ⟨⟨(k l).1.1, (k l).1.2.within (putTrain_within t _) rfl rfl⟩, (k l).2⟩
  | _ => exact same rfl rfl rfl

/-- Settles O16: every operation that latches is concluded with the stop, and what follows it in the step keeps the ride stopped. -/
theorem latchingStopsTheRide : Obligations.LatchingStopsTheRide := by
  intro i s t hs h latched
  have stopped : t.ride.Stopped t.ctx := by
    obtain ⟨t', ht, ⟨-, _, _, _, rfl⟩ | k⟩ := exec_outcome i s
    · rw [ht] at h
      cases h
      exact Ride.Empty.stopped ⟨rfl, rfl, rfl, rfl, rfl, rfl, rfl⟩
    · rw [ht] at h
      cases h
      refine (k.induct (StopsWhere i) (fun _ _ e => e.stopsWhere) (fun l => ?_) latched).1
      rw [show (s.advance i.wait).ride.latched = false from hs] at l
      cases l
  exact ⟨fun z => (elementOutput_iff t z).mpr (stopped.1 z), stopped.2.drives, stopped.2.demands⟩

end Sys2Proof.Machine
end

section
/-! PROOF. Claims and train records agree through every operation and the end of the step (R22, R51). -/

namespace Sys2Proof.Machine

variable {i : Instr} {s t : State} {c : Ctx} {full : Bool} {hole : Option SlotIx} {gap : Option ZoneIx} {a b r : Ride} {k : SlotIx}
  {x : Train} {z : ZoneIx}

/-! ### ADMIT, RETIRE and STEP -/

/-- A record made in a free slot, its train not yet named. -/
theorem putTrain_fresh (h : r.Sound full) (free : r.train? k = none) (hx : x.chain = []) : (r.putTrain k x).Agrees full (some k) none := by
  have other : ∀ {u y}, r.train? u = some y → (r.putTrain k x).train? u = some y := fun {u y} hu => by
    rw [putTrain_other _ _ _ _ fun e => by rw [e, free] at hu; cases hu]
    exact hu
  refine ⟨fun z u g e => ?_, fun z u g e => ?_, fun u y g hy hl => ?_, fun f u y hy => ?_⟩
  · obtain ⟨y, hy, hz⟩ := h.reserved z u g e
    exact ⟨y, other hy, hz⟩
  · obtain ⟨y, b, hy, hz⟩ := h.guarded z u g e
    exact ⟨y, b, other hy, hz⟩
  · rw [putTrain_other _ _ _ _ fun e => g (congrArg some e)] at hy
    exact h.named u y (by simp) hy hl
  · by_cases e : u = k
    · subst e
      rw [putTrain_same] at hy
      cases hy
      rw [hx]
      exact ⟨List.nodup_nil, fun z hz => by cases hz⟩
    · rw [putTrain_other _ _ _ _ e] at hy
      exact h.chains f u y hy

theorem admitAt_agrees (h : r.Sound full) (free : r.train? k = none) (clear : r.claim? z = some .clear) (label : Nat) :
    (admitAt c k z label r).Sound full := by
  have fresh := putTrain_fresh (x := admittedTrain (c.map.isSpur z) z label) h free rfl
  have clear' : (r.putTrain k (admittedTrain (c.map.isSpur z) z label)).claim? z = some .clear := clear
  have claimed : (setClaim c z (.occupied k) (r.putTrain k (admittedTrain (c.map.isSpur z) z label))).Agrees full (some k) none :=
    fresh.setClaim (.inl rfl) _ (by simp) (fun u hu => by rw [Ride.occupant?, clear'] at hu; cases hu)
      (fresh.unchained fun u e => by rw [clear'] at e; cases e)
  have sound : (setClaim c z (.occupied k) (r.putTrain k (admittedTrain (c.map.isSpur z) z label))).Sound full :=
    claimed.close fun x hx _ => by
      rw [setClaim_train?, putTrain_same] at hx
      cases hx
      exact ⟨occupant_of (setClaim_self clear' _) rfl, fun u hu => (by cases hu)⟩
  unfold admitAt
  dsimp only
  split
  · exact sound
  · exact Ride.Agrees.within sound (zoneStationEvent_within z _) rfl rfl

/-- The zones that name a train go to CLEAR, and no other zone's claim changes (R50). -/
theorem clearZonesOf_claim? (k : SlotIx) (u : ZoneIx) :
    (clearZonesOf c k r).claim? u = (r.claim? u).map fun cl => if cl.holder = some k then .clear else cl := by
  refine overAll_at _ (fun r : Ride => r.claim? u) u _ (fun r => ?_) (fun z r hz => ?_) r
  · cases hc : r.claim? u with
    | none => simp [hc]
    | some cl =>
      simp only [Option.bind_some, Option.map_some]
      split
      · exact setClaim_self hc _
      · exact hc
  · split
    · exact setClaim_apart (Ne.symm hz) _
    · rfl

theorem clearZonesOf_within (k : SlotIx) : Ride.Within .claim r (clearZonesOf c k r) :=
  .overAll (fun z r => by
    split
    · exact setClaim_within z _
    · exact .refl r) r

/-- A slot freed once no zone names its train. -/
theorem retireTrain_agrees (h : r.Sound full) : (retireTrain c k r).Sound full := by
  unfold retireTrain
  have claims : ∀ u, ((withdrawSwitches k ((clearZonesOf c k r).putPresented k none)).freeSlot k).claim? u =
      (r.claim? u).map fun cl => if cl.holder = some k then .clear else cl := fun u =>
    (((freeSlot_within k).claim? rfl u).trans ((withdrawSwitches_within k).claim? rfl u)).trans
      (((putPresented_within k none).claim? rfl u).trans (clearZonesOf_claim? k u))
  have trains : ∀ u, u ≠ k → ((withdrawSwitches k ((clearZonesOf c k r).putPresented k none)).freeSlot k).train? u = r.train? u := by
    intro u hu
    refine (tget_tput_other _ _ _ _ hu).trans ?_
    exact ((withdrawSwitches_within k).train? rfl u).trans (((putPresented_within k none).train? rfl u).trans
      ((clearZonesOf_within k).train? rfl u))
  have gone : ((withdrawSwitches k ((clearZonesOf c k r).putPresented k none)).freeSlot k).train? k = none := tget_tput_same ..
  generalize (withdrawSwitches k ((clearZonesOf c k r).putPresented k none)).freeSlot k = r' at claims trains gone
  have old : ∀ {u : ZoneIx} {cl : Claim}, r'.claim? u = some cl → cl ≠ .clear → r.claim? u = some cl ∧ cl.holder ≠ some k := by
    intro u cl e hn
    rw [claims] at e
    obtain ⟨cl', e', rfl⟩ := Option.map_eq_some_iff.mp e
    split at hn
    · exact absurd rfl hn
    · next hk => rw [if_neg hk]; exact ⟨e', hk⟩
  have kept : ∀ {u : ZoneIx} {cl : Claim}, r.claim? u = some cl → cl.holder ≠ some k → r'.claim? u = some cl := by
    intro u cl e hk
    rw [claims, e, Option.map_some, if_neg hk]
  have named : ∀ {u : ZoneIx} {j : SlotIx}, j ≠ k → r.occupant? u = some j → r'.occupant? u = some j := by
    intro u j hj e
    obtain ⟨cl, hc, ho⟩ := Option.bind_eq_some_iff.mp e
    refine Option.bind_eq_some_iff.mpr ⟨cl, kept hc ?_, ho⟩
    cases cl with
    | clear | reserved | guarded => cases ho
    | entry | occupied | exit => cases ho; exact fun e => hj (Option.some.inj e)
  have sound : r'.Sound full := by
    have apart : ∀ {u : SlotIx} {y : Train}, r'.train? u = some y → u ≠ k := fun {u y} hu e => by rw [e, gone] at hu; cases hu
    refine ⟨fun z u g e => ?_, fun z u g e => ?_, fun u y g hy hl => ?_, fun f u y hy => ?_⟩
    · obtain ⟨e', hk⟩ := old e (by simp)
      have hu : u ≠ k := fun eq => hk (congrArg some eq)
      rw [trains u hu]
      exact h.reserved z u g e'
    · obtain ⟨e', hk⟩ := old e (by simp)
      have hu : u ≠ k := fun eq => hk (congrArg some eq)
      rw [trains u hu]
      exact h.guarded z u g e'
    · have hu := apart hy
      rw [trains u hu] at hy
      obtain ⟨hh, ht⟩ := h.named u y (by simp) hy hl
      exact ⟨named hu hh, fun z hz => ⟨(ht z hz).1, named hu (ht z hz).2⟩⟩
    · have hu := apart hy
      rw [trains u hu] at hy
      obtain ⟨nodup, all⟩ := h.chains f u y hy
      exact ⟨nodup, fun z hz => kept (all z hz) fun e => hu (Option.some.inj e)⟩
  exact (closeWhere_soft _).agrees sound

/-- The chains that may be reserved: with `full`, those without a zone twice. -/
def Fresh (full : Bool) (chain : List ZoneIx) : Prop := full = true → chain.Nodup

theorem takeStep_agrees {chain : List ZoneIx} (h : r.Sound full) (hx : r.train? k = some x) (can : stepChain c r k x = some chain)
    (fresh : Fresh full chain) : (takeStep c k x chain r).Sound full := by
  obtain ⟨held, ready, -, -, available⟩ := stepChain_spec can
  have put : (r.putTrain k { x with stepping := true }).Sound full := h.putTrain_still hx rfl rfl rfl rfl fun e => e
  have grant := grantChain_within (c := c) (r := r.putTrain k { x with stepping := true }) k x.head chain
  have led : Ride.Led c true (Fresh full) (grantChain c k x.head chain (r.putTrain k { x with stepping := true })) (takeStep c k x chain r) := by
    refine reserveChain_led (x := { x with stepping := true }) true ((grant.train? rfl k).trans (putTrain_same ..)) fresh
      (readyToReserve_empty ready) (fun z hz => ?_) rfl
    rw [grant.claim? rfl]
    exact chainAvailable_clear available z hz
  exact led.agrees (fun f chain hc => hc f) (Ride.Agrees.within put grant rfl rfl)

/-! ### Every operation -/

theorem boundaryFaulted_soft {bd : BoundaryDesc} : r.Soft (boundaryFaulted c bd r) :=
  ((setZoneFault_soft _ _).trans (setZoneFault_soft _ _)).trans (report_soft _)

theorem functionChange_soft (f : InputFunction) (on : Bool) : r.Soft (functionChange c f on r) := by
  have proof : ∀ st, r.Soft (proofInputChange c st on r) := fun st => by
    unfold proofInputChange
    split
    · split
      · exact .within (stationEvent_within st _) rfl rfl
      · exact .refl r
    · exact .within (stationEvent_within st _) rfl rfl
  cases f with
  | none => exact .refl r
  | estop =>
    simp only [functionChange]
    split
    · exact report_soft _
    · exact .refl r
  | zoneHold z =>
    simp only [functionChange]
    split
    · exact addHold_soft z _
    · split
      · exact .refl r
      · exact removeHold_soft z _
  | dispatchA st => exact .within (pairingChange_within st _ on) rfl rfl
  | dispatchB st => exact .within (pairingChange_within st _ on) rfl rfl
  | restraint st => exact proof st
  | gate st => exact proof st

theorem inputFound_soft (j : InputIx) : r.Soft (inputFound c j r) := by
  unfold inputFound
  split
  · split
    · exact addHold_soft _ _
    · exact .refl r
  · split
    · exact report_soft _
    · exact .refl r
  · exact .refl r

theorem clearZoneFault_soft : r.Soft (clearZoneFault z r) := by
  unfold clearZoneFault
  split
  · next x hx => exact .putZone hx rfl
  · exact .refl r

theorem proofTaken_led (line : ProofLine) : Ride.Led c true noChain r (proofTaken c line r) := by
  unfold proofTaken
  split
  · exact brakeProofChange_led _ rfl
  · split
    · exact .of_within (switchProofChange_within _ _ _) rfl rfl
    · exact .refl r

theorem canAdmit_clear {d : ZoneDesc} (h : s.canAdmit z d = true) : s.ride.claim? z = some .clear := by
  simp only [State.canAdmit, Bool.and_eq_true] at h
  obtain ⟨zr, hz, k⟩ := option_any_some h.1.1.1.1
  rw [Bool.and_eq_true, beq_iff_eq] at k
  rw [Ride.claim?, hz, Option.map_some, k.1]

/-- Every operation keeps claims and records in agreement, where the chains that the map gives may be reserved. -/
theorem RideOp.agrees (op : RideOp i s r) (h : s.ride.Sound full) (short : s.ride.short)
    (hm : s.mode = .maintenance → ∀ z, Fresh full (chainFrom s.map (Config.chainLimit - 1) z)) : r.Sound full := by
  have led {r' : Ride} (k : Ride.Led s.ctx true noChain s.ride r') : r'.Sound full := k.agrees (fun _ _ => False.elim) h
  have soft {r' : Ride} (k : s.ride.Soft r') : r'.Sound full := k.agrees h
  cases op with
  | hold who inUse z => exact soft (addHold_soft z _)
  | release who inUse z src => exact soft (removeHold_soft z src)
  | apply who inUse zones hold =>
    refine soft (.foldl (fun r z => ?_) zones _)
    split
    · exact addHold_soft z _
    · exact removeHold_soft z _
  | stop who => exact soft (report_soft _)
  | resume who inUse latched free => exact h.of_same (fun _ => rfl) fun _ => rfl
  | clearZone who inUse z => exact soft clearZoneFault_soft
  | clearElement who inUse z faulted => exact led (brakeBecomes_led z _ _ fun _ => rfl)
  | clearSwitch who inUse w side => exact h.within (lockSwitch_within w side) rfl rfl
  | dispatch who st e free => exact h.within (stationEvent_within st e) rfl rfl
  | cancel who st => exact h.within (stationEvent_within st _) rfl rfl
  | move who w side => exact h.within (requestMove_within w side _) rfl rfl
  | admitted who mode t z d label lo hi zone fresh room free can =>
    exact admitAt_agrees h (freeIx_free free) (canAdmit_clear can) label
  | retire who mode t x train => exact retireTrain_agrees h
  | step who mode t x chain train can =>
    obtain ⟨z, rfl⟩ := prospectiveChain_from (stepChain_spec can).2.2.2.1
    exact takeStep_agrees h train can (hm mode z)
  | event who b d stamp e => exact handEvent_agrees h short
  | berth who z => exact onBerth_agrees h
  | derive who levels =>
    refine soft (.overAll (fun b r => ?_) _)
    split
    · split
      · exact boundaryFaulted_soft
      · exact .refl r
    · exact .refl r
  | stall who d dir => exact onStall_agrees h
  | journey who => exact onJourneyExpiry_agrees h
  | stopping who => exact onStopExpiry_agrees h
  | proof who => exact led (proofTaken_led _)
  | proofTimer who => exact led (proofExpiry_led _)
  | moveTimer who due => exact h.within (faultSwitch_within _ _) rfl rfl
  | drive who => exact led (channelStep_led _ rfl)
  | input who f on => exact soft (functionChange_soft f on)
  | levels who => exact soft ((Ride.Soft.overAll (fun j r => inputFound_soft j) _).trans (.overAll (fun st r => .within (stationFound_within st) rfl rfl) _))
  | wait who => exact h.within (stationEvent_within _ _) rfl rfl

theorem removeHold_within (src : HoldSource) : Ride.Within { zones := true } r (removeHold z src r) := by
  unfold removeHold
  split
  · exact .refl r
  · exact putZone_within z _

theorem clearZoneFault_within : Ride.Within { zones := true } r (clearZoneFault z r) := by
  unfold clearZoneFault
  split
  · exact putZone_within z _
  · exact .refl r

theorem addHold_within (src : HoldSource) : Ride.Within .element r (addHold c z src r) := by
  unfold addHold
  split
  · exact .refl r
  · split
    · exact .refl r
    · exact ((putZone_within z _).mono rfl).trans (closeElement_within z)

theorem setZoneFault_within (cause : ZoneFault) : Ride.Within .element r (setZoneFault c z cause r) := by
  have told : Ride.Within .element r (if cause = .boundary then r.raise .fault else (r.raise .fault).report .zoneFault) := by
    split
    · exact (raise_within _).mono rfl
    · exact ((raise_within _).trans (report_within _)).mono rfl
  unfold setZoneFault
  dsimp only
  split
  · exact told
  · split
    · exact told
    · exact (told.trans ((putZone_within z _).mono rfl)).trans (closeElement_within z)

theorem recordEntry_within (v : Nat) : Ride.Within { zones := true } r (recordEntry z v r) := by
  unfold recordEntry
  split
  · exact putZone_within z _
  · exact .refl r

/-- No act presents a chain or withdraws one. -/
theorem Ride.Act.presented (h : Ride.Act c a b) : b.presented = a.presented := by
  cases h with
  | quiet led narrow presented rest => exact presented
  | claim z new => exact (setClaim_within z new).presented rfl
  | hold z src => exact (addHold_within src).presented rfl
  | fault z cause => exact (setZoneFault_within cause).presented rfl
  | speed z v le => exact (recordEntry_within v).presented rfl
  | put t x y hx moved => rfl
  | change t x y hx moved => exact (changeTrain_within t x y).presented rfl

theorem Ride.Acts.presented (h : Ride.Acts c a b) : b.presented = a.presented :=
  h.induct (fun r => r.presented = a.presented) (fun _ _ e k => e.presented.trans k) rfl

/-- An operation presents no chain. -/
theorem RideOp.presents {P : List ZoneIx → Prop} (op : RideOp i s r) (h : s.ride.Presents P) : r.Presents P := by
  rcases op.acts with k | k
  · exact fun t chain ht => h t chain (by rw [← ht]; exact (congrArg (tget · t) k.presented).symm)
  · cases k with
    | lift zones src who =>
      exact foldl_induct (Ride.Presents P) _ (fun _ _ e => e.within (removeHold_within src) rfl) _ _ h
    | resume latched free => exact h
    | clearZone z => exact h.within clearZoneFault_within rfl
    | clearElement z faulted => exact h.within (brakeBecomes_within z _ _) rfl
    | clearSwitch w side => exact h.within (lockSwitch_within w side) rfl
    | admitted who mode t z d label =>
      have claimed := (h.within (putTrain_within t (admittedTrain (s.ctx.map.isSpur z) z label)) rfl).within
        (setClaim_within (c := s.ctx) z (.occupied t)) rfl
      unfold admitAt
      dsimp only
      split
      · exact claimed
      · exact claimed.within (zoneStationEvent_within z _) rfl
    | retire who mode t x train =>
      have cleared := presents_putPresented (t := t) (o := none) (h.within (clearZonesOf_within (c := s.ctx) t) rfl) (by simp)
      exact ((cleared.within (withdrawSwitches_within t) rfl).within (freeSlot_within t) rfl).within (closeWhere_within _) rfl
    | step mode t x chain train can =>
      exact reserveChain_presents true ((h.within (putTrain_within t _) rfl).within (grantChain_within (c := s.ctx) t x.head chain) rfl)

theorem conclude_agrees {before after : Ride} (hm : c.mode = .auto → ∀ z, Fresh full (chainFrom c.map (Config.chainLimit - 1) z))
    (presents : after.Presents (Fresh full)) (h : after.Agrees full hole gap) : (conclude c before after).Agrees full hole gap :=
  (conclude_led hm presents).agrees (fun f _ e => e f) h

/-! ### The invariant of claims -/

theorem fresh_false (chain : List ZoneIx) : Fresh false chain := fun e => by cases e

theorem Ride.Empty.sound (h : r.Empty) : r.Sound full := by
  have claim : ∀ z, r.claim? z = none := fun z => by rw [Ride.claim?, Ride.zone?, h.zones, tget_replicate]; rfl
  have train : ∀ u, r.train? u = none := fun u => by rw [Ride.train?, h.trains, tget_replicate]
  exact ⟨fun z u _ e => (by rw [claim] at e; cases e), fun z u _ e => (by rw [claim] at e; cases e),
    fun u x _ hx => (by rw [train] at hx; cases hx), fun _ u x hx => (by rw [train] at hx; cases hx)⟩

theorem reportFreshSwitch_within (w : SwitchIx) : Ride.Within { reports := true } r (reportFreshSwitch w r) := by
  unfold reportFreshSwitch
  split
  · exact (raise_within _).trans (report_within _)
  · exact .refl r

theorem takeUpRide_led : Ride.Led c true noChain (builtRide c r) (takeUpRide c r) :=
  (Ride.Led.overAll (fun z _ => brakeProofChange_led z rfl) (builtRide c r)).trans
    (.overAll (fun w _ => .of_within (reportFreshSwitch_within w) rfl rfl) _)

theorem takeUpRide_sound : (takeUpRide c r).Sound full := by
  have clear : ∀ {z : ZoneIx} {cl : Claim}, (builtRide c r).claim? z = some cl → cl = .clear := fun {z cl} e => by
    have zone : (builtRide c r).zone? z = (c.map.zone z).map fun _ => ZoneRec.fresh := tget_tgen ..
    rw [Ride.claim?, zone, Option.map_map] at e
    obtain ⟨d, -, e⟩ := Option.map_eq_some_iff.mp e
    exact e.symm
  refine takeUpRide_led.agrees (fun _ _ => False.elim) ⟨fun z u _ e => ?_, fun z u _ e => ?_, fun u x _ hx => ?_, fun _ u x hx => ?_⟩
  · cases clear e
  · cases clear e
  · change tget (Vector.replicate 16 none) u = some x at hx
    rw [tget_replicate] at hx
    cases hx
  · change tget (Vector.replicate 16 none) u = some x at hx
    rw [tget_replicate] at hx
    cases hx

theorem takeUpRide_presents {P : List ZoneIx → Prop} : (takeUpRide c r).Presents P := by
  have built : (builtRide c r).Presents P := fun t chain ht => by
    change tget (Vector.replicate 16 none) t = some chain at ht
    rw [tget_replicate] at ht
    cases ht
  exact overAll_induct (Ride.Presents P) _ (fun w _ e => e.within (reportFreshSwitch_within w) rfl) _
    (overAll_induct (Ride.Presents P) _ (fun z _ e => e.within (brakeProofChange_within z) rfl) _ built)

theorem Tweak.short {a b : Ride} (h : Tweak i a b) (k : a.short) : b.short := by
  cases h with
  | train who u spur z label lo hi fresh free =>
    refine ⟨fun t x hx => ?_, k.2⟩
    by_cases e : t = u
    · subst e
      rw [putTrain_same] at hx
      cases hx
      exact Nat.zero_le _
    · rw [putTrain_other _ _ _ _ e] at hx
      exact k.1 t x hx
  | free who u absent =>
    refine ⟨fun t x hx => ?_, k.2⟩
    change tget (tput a.trains u none) t = some x at hx
    rw [tget_tput] at hx
    split at hx
    · cases hx
    · exact k.1 t x hx
  | _ => exact k

theorem RideOp.short (op : RideOp i s r) (k : s.ride.short) : r.short := by
  rcases op.shape with h | ⟨-, a, b, h, tw, h'⟩
  · exact h.short k
  · exact h'.short (tw.short (h.short k))

theorem State.recordsInvariant.short (h : s.recordsInvariant) : s.ride.short :=
  ⟨fun t x hx => (h.1 t x hx).2.2.2.2.1, h.2.2.1⟩

/-- The invariant with the length of the chains, on which it rests (R26). -/
structure ClaimsHold (s : State) : Prop where
  sound : s.ride.Sound false
  short : s.ride.short
  ends : s.mode = .maintenance ∨ s.mode = .auto → ∀ b d, s.map.boundary b = some d → d.up ≠ d.down
  awaits : ∀ ref, s.link.heard.2 = .awaitingBlock ref → s.mode = .config

theorem State.claimsInvariant_iff (s : State) : s.claimsInvariant ↔ s.ride.Sound false ∧
    (s.mode = .maintenance ∨ s.mode = .auto → ∀ b d, s.map.boundary b = some d → d.up ≠ d.down) ∧
    ∀ ref, s.link.heard.2 = .awaitingBlock ref → s.mode = .config := by
  constructor
  · rintro ⟨reserved, guarded, named, ends, awaits⟩
    exact ⟨⟨fun z k _ => reserved z k, fun z k _ => guarded z k, fun k x _ => named k x, fun e => by cases e⟩, ends, awaits⟩
  · rintro ⟨sound, ends, awaits⟩
    exact ⟨fun z k => sound.reserved z k (by simp), fun z k => sound.guarded z k (by simp), fun k x => sound.named k x (by simp), ends, awaits⟩

theorem conclude_short {before after : Ride} (h : after.short) : (conclude c before after).short := (conclude_narrow (c := c)).short h

theorem conclude_claims {before after : Ride} (h : after.Sound false) : (conclude c before after).Sound false :=
  conclude_agrees (fun _ _ => fresh_false _) (fun _ chain _ => fresh_false chain) h

theorem Effect.claimsHold {a b : State} (h : Effect i a b) (k : ClaimsHold a) : ClaimsHold b := by
  have ride {m : Ride} (sound : m.Sound false) (short : m.short) : ClaimsHold { a with ride := m } := ⟨sound, short, k.ends, k.awaits⟩
  have out : ∀ {p : Prop}, a.mode = .config → a.mode = .maintenance ∨ a.mode = .auto → p := fun e h => by rcases h with h | h <;> rw [e] at h <;> cases h
  cases h with
  | link l bytes n ok => exact ⟨k.sound, k.short, k.ends, fun ref e => (ok ref e).elim (k.awaits ref) fun h => h⟩
  | raise n => exact ride (k.sound.within (raise_within n) rfl rfl) k.short
  | sent who snapshot => exact ride (k.sound.of_same (fun _ => rfl) fun _ => rfl) k.short
  | write who ref m awaited h => exact ⟨k.sound, k.short, fun e => out (k.awaits ref awaited) e, k.awaits⟩
  | reload who mode => exact ⟨k.sound, k.short, fun e => out mode e, k.awaits⟩
  | install who mode => exact ⟨k.sound, k.short, fun e => (by rcases e with e | e <;> rw [mode] at e <;> cases e), k.awaits⟩
  | loadFails who mode => exact ⟨k.sound, k.short, fun e => (by rcases e with e | e <;> cases e), fun _ _ => rfl⟩
  | takeUp who pass =>
    refine ⟨conclude_claims takeUpRide_sound, conclude_short (takeUpRide_after.short ⟨fun t x hx => ?_, fun t chain hc => ?_⟩), fun _ b d hd => ?_,
      fun ref e => ?_⟩
    · change tget (Vector.replicate 16 none) t = some x at hx
      rw [tget_replicate] at hx
      cases hx
    · change tget (Vector.replicate 16 none) t = some chain at hc
      rw [tget_replicate] at hc
      cases hc
    · exact (boundary_passed ((validate_passed pass).boundary b d hd)).ends
    · have e : a.link.heard.2 = .awaitingBlock ref := e
      rcases who with ⟨-, -, link⟩ | ⟨-, mode⟩
      · rw [link] at e
        cases e
      · rw [k.awaits ref e] at mode
        cases mode
  | putAway who mode empty =>
    have e : (Machine.putAway a).ride.Empty :=
      (report_changes (w := true) (o := true) (q := true) .start).empty ⟨rfl, rfl, rfl, rfl, rfl, rfl, rfl⟩
    refine ⟨e.sound, ⟨fun t x hx => ?_, fun t chain hc => ?_⟩, fun e => (by rcases e with e | e <;> cases e), fun _ _ => rfl⟩
    · rw [Ride.train?, e.trains, tget_replicate] at hx
      cases hx
    · rw [Ride.presented?, e.presented, tget_replicate] at hc
      cases hc
  | toAuto who mode =>
    exact ⟨conclude_claims k.sound, conclude_short k.short, fun _ => k.ends (.inl mode), fun ref e => absurd (k.awaits ref e) (by simp [mode])⟩
  | toMaintenance who mode =>
    refine ⟨conclude_claims ?_, conclude_short ?_, fun _ => k.ends (.inr mode), fun ref e => absurd (k.awaits ref e) (by simp [mode])⟩
    · exact k.sound.within (Ride.Within.overAll (fun st r => stationEvent_within st .cancel) a.ride) rfl rfl
    · exact (cancelDemands_changes (w := true) (o := true) (q := true)).short k.short
  | ride r op =>
    exact ride (conclude_claims (op.agrees k.sound k.short fun _ _ => fresh_false _)) (conclude_short (op.short k.short))
  | @window dt st who => exact ride (k.sound.within (windowExpiry_within st) rfl rfl) ((windowExpiry_changes (w := true) (o := true) (q := true) st).short k.short)
  | direct who inUse t x d train =>
    refine ride (k.sound.putTrain_still train rfl rfl rfl rfl fun e => e) ⟨fun u y hy => ?_, k.short.2⟩
    by_cases e : u = t
    · subst e
      rw [putTrain_same] at hy
      cases hy
      exact k.short.1 u x train
    · rw [putTrain_other _ _ _ _ e] at hy
      exact k.short.1 u y hy
  | _ => exact ⟨k.sound, k.short, k.ends, k.awaits⟩

/-- Settles O13: the operations keep claims and records in agreement, the end of a step moves no train, and a map taken up has passed
validation. -/
theorem claimsAgree : Obligations.ClaimsAgree := by
  intro s t hs hr h
  obtain ⟨sound, ends, awaits⟩ := (State.claimsInvariant_iff s).mp hs
  have k : ClaimsHold t := by
    refine step_keeps ClaimsHold (fun _ _ _ k => ⟨k.sound, k.short, k.ends, k.awaits⟩) (fun s t _ h => ?_) (fun _ _ _ h => h.claimsHold)
      ⟨sound, hr.short, ends, awaits⟩ h
    obtain ⟨_, _, _, rfl⟩ := h
    refine ⟨Ride.Empty.sound ⟨rfl, rfl, rfl, rfl, rfl, rfl, rfl⟩, ⟨fun t x hx => ?_, fun t chain hc => ?_⟩, fun e => ?_, fun _ e => (by cases e)⟩
    · change tget (Vector.replicate 16 none) t = some x at hx
      rw [tget_replicate] at hx
      cases hx
    · change tget (Vector.replicate 16 none) t = some chain at hc
      rw [tget_replicate] at hc
      cases hc
    · rcases e with e | e <;> cases e
  exact (State.claimsInvariant_iff t).mpr ⟨k.sound, k.ends, k.awaits⟩

end Sys2Proof.Machine
end

section
/-! PROOF. The train records stay in the bounds of Table 3-1: each comes from one that the step found, moved, or is an admitted one. -/

namespace Sys2Proof.Machine

variable {i : Instr} {s t : State} {c : Ctx} {p : Bool} {P : List ZoneIx → Prop} {a b d r : Ride} {z : ZoneIx} {k : SlotIx} {x y : Train}

/-- Every record of `b` is one of `a`, moved. -/
def Ride.Descends (c : Ctx) (a b : Ride) : Prop := ∀ k y, b.train? k = some y → ∃ x, a.train? k = some x ∧ x.Moved c y

namespace Ride.Descends

theorem refl (a : Ride) : Ride.Descends c a a := fun _ y h => ⟨y, h, .refl y⟩

theorem trans (h : Ride.Descends c a b) (k : Ride.Descends c b d) : Ride.Descends c a d := fun t w hw => by
  obtain ⟨y, hy, hyw⟩ := k t w hw
  obtain ⟨x, hx, hxy⟩ := h t y hy
  exact ⟨x, hx, hxy.trans hyw⟩

theorem within {q : Parts} (h : Ride.Within q a b) (trains : q.trains = false) : Ride.Descends c a b := fun t y hy =>
  ⟨y, (h.train? trains t).symm.trans hy, .refl y⟩

theorem led (short : ∀ chain, P chain → chain.length ≤ Config.chainLimit) (h : Ride.Led c p P a b) : Ride.Descends c a b := fun t y hy => by
  cases hx : a.train? t with
  | none => rw [(h.carries t).1 hx] at hy; cases hy
  | some x =>
    obtain ⟨y', hy', k⟩ := (h.carries t).2 x hx
    rw [hy] at hy'
    cases hy'
    exact ⟨x, rfl, k.moved short⟩

theorem putTrain (hx : r.train? k = some x) (moved : x.Moved c y) : Ride.Descends c r (r.putTrain k y) := fun t w hw => by
  by_cases e : t = k
  · subst e
    rw [putTrain_same] at hw
    cases hw
    exact ⟨x, hx, moved⟩
  · rw [putTrain_other _ _ _ _ e] at hw
    exact refl r t w hw

theorem freeSlot (k : SlotIx) : Ride.Descends c r (r.freeSlot k) := fun t w hw => by
  change tget (tput r.trains k none) t = some w at hw
  rw [tget_tput] at hw
  split at hw
  · cases hw
  · exact refl r t w hw

theorem foldl {α : Type} {f : Ride → α → Ride} (h : ∀ r x, Ride.Descends c r (f r x)) (l : List α) (r : Ride) :
    Ride.Descends c r (l.foldl f r) :=
  foldl_induct (fun r' => Ride.Descends c r r') f (fun r' x k => k.trans (h r' x)) l r (refl r)

end Ride.Descends

/-- No chain is named, so each that is named is short. -/
theorem noChain_short : ∀ chain, noChain chain → chain.length ≤ Config.chainLimit := fun _ => False.elim

theorem addHold_descends (src : HoldSource) : Ride.Descends c r (addHold c z src r) := by
  unfold addHold
  split
  · exact .refl r
  · split
    · exact .refl r
    · exact (Ride.Descends.within (putZone_within z _) rfl).trans (.led (p := false) noChain_short (closeElement_led z))

theorem setZoneFault_descends (cause : ZoneFault) : Ride.Descends c r (setZoneFault c z cause r) := by
  have told : Ride.Descends c r (if cause = .boundary then r.raise .fault else (r.raise .fault).report .zoneFault) := by
    split
    · exact .within (raise_within _) rfl
    · exact .within ((raise_within _).trans (report_within _)) rfl
  unfold setZoneFault
  dsimp only
  split
  · exact told
  · split
    · exact told
    · exact (told.trans (.within (putZone_within z _) rfl)).trans (.led (p := false) noChain_short (closeElement_led z))

theorem changeTrain_descends (hx : r.train? k = some x) (moved : x.Moved c y) : Ride.Descends c r (changeTrain c k x y r) := fun t w hw => by
  by_cases e : t = k
  · subst e
    rw [changeTrain_train] at hw
    cases hw
    exact ⟨x, hx, moved⟩
  · rw [changeTrain_other _ _ e] at hw
    exact Ride.Descends.refl r t w hw

theorem Ride.Act.descends (h : Ride.Act c a b) : Ride.Descends c a b := by
  cases h with
  | quiet led narrow presented rest => exact .led noChain_short led
  | claim z new => exact .within (setClaim_within z new) rfl
  | hold z src => exact addHold_descends src
  | fault z cause => exact setZoneFault_descends cause
  | speed z v le => exact .within (recordEntry_within v) rfl
  | put t x y hx moved => exact .putTrain hx moved
  | change t x y hx moved => exact changeTrain_descends hx moved

theorem Ride.Acts.descends (h : Ride.Acts c a b) : Ride.Descends c a b :=
  h.induct (fun r => Ride.Descends c a r) (fun _ _ e k => k.trans e.descends) (.refl a)

/-- A chain of at most four zones. -/
def Short (chain : List ZoneIx) : Prop := chain.length ≤ Config.chainLimit

theorem chainFrom_short (m : CircuitMap) (z : ZoneIx) : Short (chainFrom m (Config.chainLimit - 1) z) := chainFrom_length m _ z

theorem conclude_descends {before after : Ride} (h : after.Presents Short) : Ride.Descends c after (conclude c before after) :=
  .led (fun _ h => h) (conclude_led (P := Short) (fun _ z => chainFrom_short c.map z) h)

theorem reserveChain_descends {chain : List ZoneIx} (creep : Bool) (hx : r.train? k = some x) (short : Short chain) (empty : x.chain = []) :
    Ride.Descends c r (reserveChain c k chain creep r) := by
  rw [reserveChain_eq hx]
  have h1 : Ride.Carries c true Short r (chainReserved c k x chain r) := chainReserved_carries hx short empty
  refine Ride.Descends.trans (b := chainReserved c k x chain r) (fun t y hy => ?_)
    ((Ride.Descends.within (putPresented_within k none) rfl).trans (.led (p := true) noChain_short (openElement_led _ creep rfl)))
  cases ht : r.train? t with
  | none => rw [(h1 t).1 ht] at hy; cases hy
  | some w =>
    obtain ⟨y', hy', led⟩ := (h1 t).2 w ht
    rw [hy] at hy'
    cases hy'
    exact ⟨w, rfl, led.moved fun _ h => h⟩

theorem takeStep_descends {chain : List ZoneIx} (hx : r.train? k = some x) (can : stepChain c r k x = some chain) :
    Ride.Descends c r (takeStep c k x chain r) := by
  obtain ⟨held, ready, -, prospective, -⟩ := stepChain_spec can
  have stepping : x.Moved c { x with stepping := true } := .of (by simp) (fun h => h) fun dl e => .inl e
  have put := Ride.Descends.putTrain hx stepping
  have granted := grantChain_within (c := c) (r := r.putTrain k { x with stepping := true }) k x.head chain
  refine (put.trans (.within granted rfl)).trans (reserveChain_descends true ((granted.train? rfl k).trans (putTrain_same ..))
    (prospectiveChain_length prospective) (readyToReserve_empty (c := c) (r := r) (x := x) ready))

theorem clearZonesOf_descends : Ride.Descends c r (clearZonesOf c k r) := .within (clearZonesOf_within k) rfl

theorem retireTrain_descends : Ride.Descends c r (retireTrain c k r) :=
  (((clearZonesOf_descends.trans (.within (putPresented_within k none) rfl)).trans (.within (withdrawSwitches_within k) rfl)).trans (.freeSlot k)).trans
    (.led (p := false) noChain_short (closeWhere_led _))

/-- The trains of a ride with one admitted are its own and the one admitted (R72). -/
theorem admitAt_train? (label : Nat) (u : SlotIx) :
    (admitAt c k z label r).train? u = (r.putTrain k (admittedTrain (c.map.isSpur z) z label)).train? u := by
  have claimed := setClaim_within (c := c) (r := r.putTrain k (admittedTrain (c.map.isSpur z) z label)) z (.occupied k)
  unfold admitAt
  dsimp only
  split
  · exact claimed.train? rfl u
  · exact ((zoneStationEvent_within z _).train? rfl u).trans (claimed.train? rfl u)

/-- The records after an operation: those before it, moved, and for an ADMIT the one it makes. -/
theorem RideOp.descends (op : RideOp i s r) : Ride.Descends s.ctx s.ride r ∨
    ∃ k z label, 1 ≤ label ∧ label ≤ 255 ∧ s.ride.labelUsed label = false ∧ s.ride.trainCount < s.map.admissionLimit ∧
      ∀ u, r.train? u = (s.ride.putTrain k (admittedTrain (s.map.isSpur z) z label)).train? u := by
  rcases op.acts with h | h
  · exact .inl h.descends
  · cases h with
    | lift zones src who => exact .inl (.foldl (fun _ z => .within (removeHold_within src) rfl) zones _)
    | resume latched free => exact .inl (.refl s.ride)
    | clearZone z => exact .inl (.within clearZoneFault_within rfl)
    | clearElement z faulted => exact .inl (.led (p := true) noChain_short (brakeBecomes_led z _ _ fun _ => rfl))
    | clearSwitch w side => exact .inl (.within (lockSwitch_within w side) rfl)
    | admitted who mode k z d label lo hi zone fresh room free can => exact .inr ⟨k, z, label, lo, hi, fresh, room, admitAt_train? label⟩
    | retire who mode k x train => exact .inl retireTrain_descends
    | step mode k x chain train can => exact .inl (takeStep_descends train can)

/-! ### Records -/

/-- The records of the ride are in bounds, no two with one label. -/
structure Ride.Recorded (r : Ride) : Prop where
  bounds : ∀ k x, r.train? k = some x → x.inBounds
  labels : ∀ k u x y, r.train? k = some x → r.train? u = some y → x.label = y.label → k = u

theorem Train.Moved.inBounds (h : x.Moved c y) (k : x.inBounds) : y.inBounds := by
  obtain ⟨lo, hi, early, overdue, chain, speed⟩ := k
  exact ⟨h.label ▸ lo, h.label ▸ hi, h.early early, h.overdue overdue, h.chain chain, h.speed speed⟩

theorem Ride.Recorded.descends (h : a.Recorded) (k : Ride.Descends c a b) : b.Recorded := by
  refine ⟨fun t y hy => ?_, fun t u y w hy hw e => ?_⟩
  · obtain ⟨x, hx, moved⟩ := k t y hy
    exact moved.inBounds (h.bounds t x hx)
  · obtain ⟨x, hx, moved⟩ := k t y hy
    obtain ⟨v, hv, moved'⟩ := k u w hw
    exact h.labels t u x v hx hv (by rw [← moved.label, ← moved'.label, e])

theorem Ride.Recorded.same (h : a.Recorded) (same : ∀ k, b.train? k = a.train? k) : b.Recorded :=
  ⟨fun k x hx => h.bounds k x (same k ▸ hx), fun k u x y hx hy => h.labels k u x y (same k ▸ hx) (same u ▸ hy)⟩

theorem labelUsed_false {label : Nat} (h : r.labelUsed label = false) (hx : r.train? k = some x) : x.label ≠ label := by
  intro e
  have mem : (k, x) ∈ r.trainsList := by simp [Ride.trainsList, hx]
  have := List.any_eq_false.mp h (k, x) mem
  simp [e] at this

theorem Ride.Recorded.admitted {label : Nat} {spur : Bool} (h : a.Recorded) (lo : 1 ≤ label) (hi : label ≤ 255)
    (fresh : a.labelUsed label = false) (same : ∀ u, b.train? u = (a.putTrain k (admittedTrain spur z label)).train? u) : b.Recorded := by
  have cases : ∀ {u w}, b.train? u = some w → u = k ∧ w = admittedTrain spur z label ∨ u ≠ k ∧ a.train? u = some w := by
    intro u w hw
    rw [same] at hw
    by_cases e : u = k
    · subst e
      rw [putTrain_same] at hw
      cases hw
      exact .inl ⟨rfl, rfl⟩
    · rw [putTrain_other _ _ _ _ e] at hw
      exact .inr ⟨e, hw⟩
  refine ⟨fun u w hw => ?_, fun u v w w' hw hw' e => ?_⟩
  · rcases cases hw with ⟨rfl, rfl⟩ | ⟨-, hw⟩
    · exact ⟨lo, hi, Nat.zero_le _, Nat.zero_le _, Nat.zero_le _, fun v e => by cases e⟩
    · exact h.bounds u w hw
  · rcases cases hw with ⟨rfl, rfl⟩ | ⟨-, hw⟩ <;> rcases cases hw' with ⟨rfl, rfl⟩ | ⟨-, hw'⟩
    · rfl
    · exact absurd e.symm (labelUsed_false fresh hw')
    · exact absurd e (labelUsed_false fresh hw)
    · exact h.labels u v w w' hw hw' e

/-! ### Entry speeds -/

/-- Every entry speed fits its field (Table 2-1). -/
def Ride.Fitting (r : Ride) : Prop := ∀ z v, r.entrySpeed z = some v → v ≤ Config.speedLimit

theorem Ride.Fitting.same (h : a.Fitting) (k : a.SameZones b) : b.Fitting := fun z v e => h z v (k.speed z ▸ e)

theorem Ride.Fitting.putZone {w : ZoneRec} (h : r.Fitting) (fits : ∀ v, w.entrySpeed = some v → v ≤ Config.speedLimit) :
    (r.putZone z w).Fitting := fun u v e => by
  by_cases hu : u = z
  · subst hu
    have same : (r.putZone u w).zone? u = some w := tget_tput_same ..
    rw [Ride.entrySpeed, same] at e
    exact fits v e
  · have other : (r.putZone z w).zone? u = r.zone? u := tget_tput_other _ _ _ _ hu
    rw [Ride.entrySpeed, other] at e
    exact h u v e

/-- A zone record replaced that keeps its entry speed. -/
theorem Ride.Fitting.putZone_kept {v w : ZoneRec} (h : r.Fitting) (hv : r.zone? z = some v) (same : w.entrySpeed = v.entrySpeed) :
    (r.putZone z w).Fitting := h.putZone fun u e => h z u (by rw [Ride.entrySpeed, hv, Option.bind_some, ← same, e])

theorem Ride.Fitting.close (h : r.Fitting) (z : ZoneIx) : (closeElement c z r).Fitting :=
  h.same (.of_changes (o := false) (q := false) (closeElement_changes z))

theorem addHold_fitting (src : HoldSource) (h : r.Fitting) : (addHold c z src r).Fitting := by
  unfold addHold
  split
  · exact h
  · next hx =>
    split
    · exact h
    · exact Ride.Fitting.close (Ride.Fitting.putZone_kept h hx (by rfl)) z

theorem setZoneFault_fitting (cause : ZoneFault) (h : r.Fitting) : (setZoneFault c z cause r).Fitting := by
  have told : (if cause = .boundary then r.raise .fault else (r.raise .fault).report .zoneFault).Fitting := by
    split
    · exact h
    · exact Ride.Fitting.same (a := r.raise .fault) h (.of_within (report_within _) rfl)
  unfold setZoneFault
  dsimp only
  split
  · exact told
  · next hx =>
    split
    · exact told
    · exact Ride.Fitting.close (Ride.Fitting.putZone_kept told hx (by rfl)) z

theorem recordEntry_fitting {v : Nat} (le : v ≤ Config.speedLimit) (h : r.Fitting) : (recordEntry z v r).Fitting := by
  unfold recordEntry
  split
  · exact h.putZone fun u e => (by cases e; exact le)
  · exact h

theorem removeHold_fitting (src : HoldSource) (h : r.Fitting) : (removeHold z src r).Fitting := by
  unfold removeHold
  split
  · exact h
  · next hx => exact h.putZone_kept hx rfl

theorem clearZoneFault_fitting (h : r.Fitting) : (clearZoneFault z r).Fitting := by
  unfold clearZoneFault
  split
  · next hx => exact h.putZone_kept hx rfl
  · exact h

theorem Ride.Act.fitting (h : Ride.Act c a b) (k : a.Fitting) : b.Fitting := by
  cases h with
  | quiet led narrow presented rest => exact k.same (.of_changes narrow)
  | claim z new => exact k.same (.of_changes (o := false) (setClaim_changes z new (.inl rfl)))
  | hold z src => exact addHold_fitting src k
  | fault z cause => exact setZoneFault_fitting cause k
  | speed z v le => exact recordEntry_fitting le k
  | put t x y hx moved => exact k.same (.of_within (putTrain_within t y) rfl)
  | change t x y hx moved => exact k.same (.of_within (changeTrain_within t x y) rfl)

theorem RideOp.fitting (op : RideOp i s r) (h : s.ride.Fitting) : r.Fitting := by
  rcases op.acts with k | k
  · exact k.induct Ride.Fitting (fun _ _ e => e.fitting) h
  · cases k with
    | lift zones src who => exact foldl_induct Ride.Fitting _ (fun _ _ e => removeHold_fitting src e) _ _ h
    | resume latched free => exact h
    | clearZone z => exact clearZoneFault_fitting h
    | clearElement z faulted => exact h.same clearElement_sameZones
    | clearSwitch w side => exact h.same (.of_within (lockSwitch_within w side) rfl)
    | admitted who mode k z d label => exact h.same (admitAt_sameZones label)
    | retire who mode k x train => exact h.same retireTrain_sameZones
    | step mode k x chain train can => exact h.same (takeStep_sameZones chain)

/-! ### The invariant of records -/

/-- The ride's part of the invariant. -/
structure Ride.Kept (r : Ride) : Prop where
  recorded : r.Recorded
  short : r.Presents Short
  fitting : r.Fitting

theorem State.recordsInvariant_iff (s : State) : s.recordsInvariant ↔ s.ride.Kept :=
  ⟨fun ⟨h1, h2, h3, h4⟩ => ⟨⟨h1, h2⟩, h3, h4⟩, fun ⟨⟨h1, h2⟩, h3, h4⟩ => ⟨h1, h2, h3, h4⟩⟩

theorem Ride.Kept.conclude {before : Ride} (h : r.Kept) : (conclude c before r).Kept :=
  ⟨h.recorded.descends (conclude_descends h.short), conclude_presents (fun _ z => chainFrom_short c.map z) h.short,
    h.fitting.same (.of_changes conclude_narrow)⟩

theorem RideOp.kept (op : RideOp i s r) (h : s.ride.Kept) : r.Kept := by
  refine ⟨?_, op.presents h.short, op.fitting h.fitting⟩
  rcases op.descends with k | ⟨k, z, label, lo, hi, fresh, -, same⟩
  · exact h.recorded.descends k
  · exact h.recorded.admitted lo hi fresh same

/-- A change that leaves trains, presentations and entry speeds keeps the invariant. -/
theorem Ride.Kept.within {q : Parts} (h : a.Kept) (k : Ride.Within q a b) (zones : q.zones = false)
    (presented : q.presented = false) (trains : q.trains = false) : b.Kept :=
  ⟨h.recorded.same (k.train? trains), h.short.within k presented, h.fitting.same (.of_within k zones)⟩

/-- With no train, no presentation and no entry speed there is nothing to bound. -/
theorem Ride.Kept.of_none (trains : ∀ k, r.train? k = none) (presented : ∀ k, r.presented? k = none)
    (speeds : ∀ z, r.entrySpeed z = none) : r.Kept :=
  ⟨⟨fun k x h => (by rw [trains] at h; cases h), fun k u x y h => (by rw [trains] at h; cases h)⟩,
    fun k chain h => (by rw [presented] at h; cases h), fun z v h => (by rw [speeds] at h; cases h)⟩

theorem Ride.Empty.train (h : r.Empty) (k : SlotIx) : r.train? k = none := by rw [Ride.train?, h.trains, tget_replicate]

theorem Ride.Empty.kept (h : r.Empty) : r.Kept := by
  refine .of_none h.train (fun k => ?_) fun z => ?_
  · rw [Ride.presented?, h.presented, tget_replicate]
  · rw [Ride.entrySpeed, Ride.zone?, h.zones, tget_replicate]
    rfl

theorem builtRide_train (k : SlotIx) : (builtRide c r).train? k = none := tget_replicate ..

theorem takeUpRide_descends : Ride.Descends c (builtRide c r) (takeUpRide c r) := .led noChain_short takeUpRide_led

theorem takeUpRide_kept : (takeUpRide c r).Kept := by
  have built : (builtRide c r).Kept := by
    refine .of_none builtRide_train (fun k => tget_replicate ..) fun z => ?_
    have zone : (builtRide c r).zone? z = (c.map.zone z).map fun _ => ZoneRec.fresh := tget_tgen ..
    rw [Ride.entrySpeed, zone]
    cases c.map.zone z <;> rfl
  exact ⟨built.recorded.descends takeUpRide_descends, takeUpRide_presents, built.fitting.same (.of_changes takeUpRide_after)⟩

theorem cancelDemands_within : Ride.Within .station r (cancelDemands c r) := .overAll (fun st _ => stationEvent_within st .cancel) r

theorem Effect.kept {a b : State} (h : Effect i a b) (k : a.ride.Kept) : b.ride.Kept := by
  cases h with
  | raise n => exact k.within (raise_within n) rfl rfl rfl
  | sent who snapshot => exact ⟨⟨k.recorded.bounds, k.recorded.labels⟩, k.short, k.fitting⟩
  | takeUp who pass => exact takeUpRide_kept.conclude
  | putAway who mode empty =>
    exact Ride.Empty.kept ((report_changes (w := true) (o := true) (q := true) .start).empty ⟨rfl, rfl, rfl, rfl, rfl, rfl, rfl⟩)
  | toAuto who mode => exact k.conclude
  | toMaintenance who mode => exact (k.within cancelDemands_within rfl rfl rfl).conclude
  | ride r op => exact (op.kept k).conclude
  | @window dt st who => exact k.within (windowExpiry_within st) rfl rfl rfl
  | direct who inUse u x d train =>
    have moved : x.Moved a.ctx { x with directive := d } := .of (by simp) (fun h => h) fun dl e => .inl e
    exact ⟨k.recorded.descends (.putTrain train moved), k.short, k.fitting.same (.of_within (putTrain_within u _) rfl)⟩
  | _ => exact k

/-! ### The rest of Table 3-1 -/

/-- A slot is in use only where it was. -/
theorem trainCount_le (h : ∀ u, (b.train? u).isSome = true → (a.train? u).isSome = true) : b.trainCount ≤ a.trainCount := by
  simp only [Ride.trainCount, Ride.trainsList, List.length_filterMap_eq_countP, Option.isSome_map]
  exact List.countP_mono_left fun u _ => h u

theorem countP_or_beq_le {α : Type} [BEq α] (p : α → Bool) (k : α) (l : List α) :
    l.countP (fun u => p u || u == k) ≤ l.countP p + l.count k := by
  induction l with
  | nil => simp
  | cons u l ih =>
    simp only [List.countP_cons, List.count_cons]
    cases p u <;> cases u == k <;> simp <;> omega

/-- A slot more is in use at most. -/
theorem trainCount_le_succ (h : ∀ u, u ≠ k → (b.train? u).isSome = true → (a.train? u).isSome = true) : b.trainCount ≤ a.trainCount + 1 := by
  simp only [Ride.trainCount, Ride.trainsList, List.length_filterMap_eq_countP, Option.isSome_map]
  calc (List.finRange 16).countP (fun u => (b.train? u).isSome)
      ≤ (List.finRange 16).countP (fun u => (a.train? u).isSome || u == k) := List.countP_mono_left fun u _ hu => by
        by_cases e : u = k
        · simp [e]
        · simp [h u e hu]
    _ ≤ (List.finRange 16).countP (fun u => (a.train? u).isSome) + (List.finRange 16).count k := countP_or_beq_le ..
    _ ≤ _ := Nat.add_le_add_left (List.nodup_iff_count_le_one.mp (List.nodup_finRange 16) k) _

/-- The successor on route A is named by the zone's own descriptor (R2). -/
theorem successor_a (m : CircuitMap) (z : ZoneIx) :
    m.successor z .a = (m.zone z).bind fun d => if d.kind = .spur then none else d.succA := by
  unfold CircuitMap.successor
  cases m.zone z with
  | none => rfl
  | some d =>
    simp only [Option.bind_some]
    split
    · rfl
    · split <;> simp_all

/-- A chain rests on the zones of the map alone. -/
theorem chainFrom_congr {m m' : CircuitMap} (h : m'.zones = m.zones) (n : Nat) (z : ZoneIx) : chainFrom m' n z = chainFrom m n z := by
  have zone : ∀ y, m'.zone y = m.zone y := fun y => congrArg (tget · y) h
  have stops : ∀ y, m'.isNonStopping y = m.isNonStopping y := fun y => by rw [CircuitMap.isNonStopping, zone]; rfl
  induction n generalizing z with
  | zero => rfl
  | succ n ih => simp only [chainFrom, stops, successor_a, zone, ih]

/-- Where no zone in a row of four, none of which stops a train, is passed, a chain holds no zone twice: a row that returned to a zone
would run on for ever. -/
theorem chainFrom_nodup {m : CircuitMap} (h : m.Passed) (z : ZoneIx) : (chainFrom m (Config.chainLimit - 1) z).Nodup := by
  have runs : ∀ {z a b c : ZoneIx}, m.isNonStopping z = true → m.isNonStopping a = true → m.isNonStopping b = true → m.isNonStopping c = true →
      m.successor z .a = some a → m.successor a .a = some b → m.successor b .a = some c → False := by
    intro z a b c hz ha hb hc za ab bc
    cases hd : m.zone z with
    | none => simp [CircuitMap.isNonStopping, hd] at hz
    | some d => exact Passed.runs h hd a b c hz ha hb hc ⟨⟨_, za⟩, ⟨_, ab⟩, ⟨_, bc⟩⟩
  have one : ∀ {z}, m.isNonStopping z = true → m.successor z .a ≠ some z := fun hz e => runs hz hz hz hz e e e
  have two : ∀ {z a}, m.isNonStopping z = true → m.isNonStopping a = true → m.successor z .a = some a → m.successor a .a ≠ some z :=
    fun hz ha e e' => runs hz ha hz ha e e' e
  have three : ∀ {z a b}, m.isNonStopping z = true → m.isNonStopping a = true → m.isNonStopping b = true → m.successor z .a = some a →
      m.successor a .a = some b → m.successor b .a ≠ some z := fun hz ha hb e e' e'' => runs hz ha hb hz e e' e''
  show (chainFrom m 3 z).Nodup
  simp only [chainFrom]
  by_cases hz : m.isNonStopping z = true
  case neg => simp [hz]
  rw [if_pos hz]
  cases za : m.successor z .a with
  | none => simp
  | some a =>
    have az : z ≠ a := fun e => one hz (e ▸ za)
    dsimp only
    by_cases ha : m.isNonStopping a = true
    case neg => simp [ha, az]
    rw [if_pos ha]
    cases ab : m.successor a .a with
    | none => simp [az]
    | some b =>
      have ba : a ≠ b := fun e => one ha (e ▸ ab)
      have bz : z ≠ b := fun e => two hz ha za (e ▸ ab)
      dsimp only
      by_cases hb : m.isNonStopping b = true
      case neg => simp [hb, az, ba, bz]
      rw [if_pos hb]
      cases bc : m.successor b .a with
      | none => simp [az, ba, bz]
      | some d =>
        have db : b ≠ d := fun e => one hb (e ▸ bc)
        have da : a ≠ d := fun e => two ha hb ab (e ▸ bc)
        have dz : z ≠ d := fun e => three hz ha hb za ab (e ▸ bc)
        simp [az, ba, bz, db, da, dz]

/-- What Table 3-1 says of one record beside its figures. -/
def Train.Tabled (x : Train) : Prop := (∀ dl, x.deadline = some dl → dl.Fits) ∧ (x.awaited.isSome = true ↔ x.phase = .overdue)

/-- Every record is as Table 3-1 says. -/
def Ride.Tabled (r : Ride) : Prop := ∀ k x, r.train? k = some x → x.Tabled

theorem Ride.Tabled.descends (m : c.map.inRange) (h : a.Tabled) (k : Ride.Descends c a b) : b.Tabled := fun t y hy => by
  obtain ⟨x, hx, moved⟩ := k t y hy
  exact ⟨moved.deadline m (h t x hx).1, moved.awaited (h t x hx).2⟩

theorem Ride.Descends.isSome (h : Ride.Descends c a b) (u : SlotIx) (hu : (b.train? u).isSome = true) : (a.train? u).isSome = true := by
  obtain ⟨y, hy⟩ := Option.isSome_iff_exists.mp hu
  obtain ⟨x, hx, -⟩ := h u y hy
  simp [hx]

theorem Ride.Descends.trainCount (h : Ride.Descends c a b) : b.trainCount ≤ a.trainCount := trainCount_le h.isSome

theorem RideOp.tabled (op : RideOp i s r) (m : s.map.inRange) (h : s.ride.Tabled) : r.Tabled := by
  rcases op.descends with k | ⟨k, z, label, -, -, -, -, same⟩
  · exact h.descends m k
  · intro u x hx
    rw [same] at hx
    by_cases e : u = k
    · subst e
      rw [putTrain_same] at hx
      cases hx
      exact ⟨fun dl e => (by cases e), by cases s.map.isSpur z <;> simp [admittedTrain]⟩
    · rw [putTrain_other _ _ _ _ e] at hx
      exact h u x hx

theorem RideOp.trainCount (op : RideOp i s r) (h : s.ride.trainCount ≤ s.map.admissionLimit) : r.trainCount ≤ s.map.admissionLimit := by
  rcases op.descends with k | ⟨k, z, label, -, -, -, room, same⟩
  · exact k.trainCount.trans h
  · have : r.trainCount ≤ s.ride.trainCount + 1 := trainCount_le_succ (k := k) fun u hu e => by
      rwa [same, putTrain_other _ _ _ _ hu] at e
    omega

theorem Ride.Empty.trainCount (h : r.Empty) : r.trainCount = 0 := by
  simp [Ride.trainCount, Ride.trainsList, h.train]

theorem Ride.Kept.rideShort (h : r.Kept) : r.short := ⟨fun t x hx => (h.recorded.bounds t x hx).2.2.2.2.1, h.short⟩

/-- The ride's part of Table 3-1, in a map. -/
structure Ride.Fulfils (m : CircuitMap) (r : Ride) : Prop where
  sound : r.Sound true
  tabled : r.Tabled
  count : r.trainCount ≤ m.admissionLimit
  fresh : r.Presents List.Nodup

theorem Ride.Empty.fulfils (h : r.Empty) (m : CircuitMap) : r.Fulfils m :=
  ⟨h.sound, fun k x hx => (by rw [h.train] at hx; cases hx), by rw [h.trainCount]; exact Nat.zero_le _,
    fun k chain hk => (by rw [Ride.presented?, h.presented, tget_replicate] at hk; cases hk)⟩

/-- A change that leaves zones, trains and presentations leaves what Table 3-1 says. -/
theorem Ride.Fulfils.within {m : CircuitMap} {q : Parts} (h : a.Fulfils m) (k : Ride.Within q a b) (zones : q.zones = false)
    (presented : q.presented = false) (trains : q.trains = false) : b.Fulfils m :=
  ⟨h.sound.within k zones trains, fun t x hx => h.tabled t x (k.train? trains t ▸ hx),
    (trainCount_le fun u hu => k.train? trains u ▸ hu).trans h.count, h.fresh.within k presented⟩

theorem Ride.Fulfils.conclude {before : Ride} (h : r.Fulfils c.map) (m : c.map.inRange) (short : r.Presents Short)
    (chains : ∀ z, (chainFrom c.map (Config.chainLimit - 1) z).Nodup) : (conclude c before r).Fulfils c.map :=
  ⟨conclude_agrees (fun _ z _ => chains z) (fun t chain ht _ => h.fresh t chain ht) h.sound,
    h.tabled.descends m (conclude_descends short), (conclude_descends short).trainCount.trans h.count,
    conclude_presents (fun _ z => chains z) h.fresh⟩

theorem takeUpRide_fulfils (m : c.map.inRange) : (takeUpRide c r).Fulfils c.map := by
  have built : (builtRide c r).Tabled := fun k x hx => by rw [builtRide_train] at hx; cases hx
  refine ⟨takeUpRide_sound, built.descends m takeUpRide_descends, takeUpRide_descends.trainCount.trans ?_, takeUpRide_presents⟩
  have none : (builtRide c r).trainCount = 0 := by simp [Ride.trainCount, Ride.trainsList, builtRide_train]
  rw [none]
  exact Nat.zero_le _

/-- The invariant of Table 3-1 with all that carries it. -/
structure TableHolds (s : State) : Prop where
  maps : s.mapsInRange
  put : s.putAwayInvariant
  kept : s.ride.Kept
  claims : ClaimsHold s
  fulfils : s.ride.Fulfils s.map
  chains : s.mode = .maintenance ∨ s.mode = .auto → ∀ z, (chainFrom s.map (Config.chainLimit - 1) z).Nodup

theorem State.tableInvariant_of {s : State} (h : TableHolds s) : s.tableInvariant :=
  ⟨fun k x dl hx => (h.fulfils.tabled k x hx).1 dl, fun k x hx => (h.fulfils.tabled k x hx).2, h.fulfils.sound.chains rfl,
    h.fulfils.count, h.fulfils.fresh, h.chains⟩

theorem RideOp.fulfils (op : RideOp i s r) (k : TableHolds s) (inUse : s.mode = .maintenance ∨ s.mode = .auto) : r.Fulfils s.map :=
  ⟨op.agrees k.fulfils.sound k.claims.short fun _ z _ => k.chains inUse z, op.tabled k.maps.1 k.fulfils.tabled,
    op.trainCount k.fulfils.count, op.presents k.fulfils.fresh⟩

/-- With a map in use the effects keep what Table 3-1 says of the ride, and its chains. -/
theorem Effect.fulfils {a b : State} (h : Effect i a b) (k : TableHolds a) (inUse : b.mode = .maintenance ∨ b.mode = .auto) :
    b.ride.Fulfils b.map ∧ ∀ z, (chainFrom b.map (Config.chainLimit - 1) z).Nodup := by
  have out : ∀ {p : Prop} {m : Mode}, m = .maintenance ∨ m = .auto → m = .loading ∨ m = .config → p :=
    fun h h' => by rcases h with rfl | rfl <;> rcases h' with h | h <;> cases h
  cases h with
  | raise n => exact ⟨k.fulfils.within (raise_within n) rfl rfl rfl, k.chains inUse⟩
  | sent who snapshot =>
    exact ⟨⟨k.fulfils.sound.of_same (fun _ => rfl) fun _ => rfl, k.fulfils.tabled, k.fulfils.count, k.fulfils.fresh⟩, k.chains inUse⟩
  | write who ref m awaited h => exact out inUse (.inr (k.claims.awaits ref awaited))
  | reload who mode => exact out inUse (.inr mode)
  | install who mode => exact out inUse (.inl mode)
  | loadFails who mode => exact out inUse (.inr rfl)
  | putAway who mode empty => exact out inUse (.inr rfl)
  | routeMode who w d old new h kind =>
    obtain ⟨sound, tabled, count, fresh⟩ := k.fulfils
    refine ⟨⟨sound, tabled, count, fresh⟩, fun z => ?_⟩
    refine Eq.mp (congrArg List.Nodup (chainFrom_congr (m := a.map) ?_ _ z).symm) (k.chains inUse z)
    rfl
  | takeUp who pass =>
    have chains := chainFrom_nodup (validate_passed pass)
    exact ⟨Ride.Fulfils.conclude
      (c := ({ a with mode := .maintenance, inputs := a.inputs.takenUp (a.now + Config.inputFilter) } : State).ctx)
       (takeUpRide_fulfils k.maps.1) k.maps.1 takeUpRide_presents chains, chains⟩
  | toAuto who mode => exact ⟨Ride.Fulfils.conclude (c := ({ a with mode := .auto } : State).ctx) k.fulfils k.maps.1 k.kept.short (k.chains (.inl mode)),
      k.chains (.inl mode)⟩
  | toMaintenance who mode =>
    have cancelled := cancelDemands_within (c := ({ a with mode := .maintenance } : State).ctx) (r := a.ride)
    exact ⟨Ride.Fulfils.conclude (c := ({ a with mode := .maintenance } : State).ctx) (k.fulfils.within cancelled rfl rfl rfl) k.maps.1
      (k.kept.short.within cancelled rfl) (k.chains (.inr mode)),
      k.chains (.inr mode)⟩
  | ride r op => exact ⟨Ride.Fulfils.conclude (c := a.ctx) (op.fulfils k inUse) k.maps.1 (op.kept k.kept).short (k.chains inUse), k.chains inUse⟩
  | @window dt st who => exact ⟨k.fulfils.within (windowExpiry_within st) rfl rfl rfl, k.chains inUse⟩
  | direct who used u x d train =>
    have moved : x.Moved a.ctx { x with directive := d } := .of (by simp) (fun h => h) fun dl e => .inl e
    have k' := k.fulfils
    exact ⟨⟨k'.sound.putTrain_still train rfl rfl rfl rfl fun e => e, k'.tabled.descends k.maps.1 (.putTrain train moved),
      (Ride.Descends.putTrain train moved).trainCount.trans k'.count, k'.fresh⟩, k.chains inUse⟩
  | _ => exact ⟨k.fulfils, k.chains inUse⟩

theorem Effect.tableHolds {a b : State} (h : Effect i a b) (k : TableHolds a) : TableHolds b := by
  have put := h.putAway_kept k.put
  have same : b.ride.Fulfils b.map ∧ (b.mode = .maintenance ∨ b.mode = .auto → ∀ z, (chainFrom b.map (Config.chainLimit - 1) z).Nodup) := by
    cases hb : b.mode with
    | loading => exact ⟨((State.put_iff b).mp (put (.inl hb))).1.fulfils _, by simp⟩
    | config => exact ⟨((State.put_iff b).mp (put (.inr hb))).1.fulfils _, by simp⟩
    | maintenance => exact (h.fulfils k (.inl hb)).imp_right fun e _ => e
    | auto => exact (h.fulfils k (.inr hb)).imp_right fun e _ => e
  exact ⟨h.mapsInRange k.maps, put, h.kept k.kept, h.claimsHold k.claims, same.1, same.2⟩

theorem State.ResetTo.empty {s t : State} (h : s.ResetTo t) : t.ride.Empty := by
  obtain ⟨_, _, _, rfl⟩ := h
  exact ⟨rfl, rfl, rfl, rfl, rfl, rfl, rfl⟩

theorem State.ResetTo.mapsInRange {s t : State} (h : s.ResetTo t) (k : s.mapsInRange) : t.mapsInRange := by
  obtain ⟨_, _, _, rfl⟩ := h
  exact ⟨vacant_inRange, (imageAfterCut_content s).symm ▸ k.2.1, fun m e => by cases e⟩

theorem State.ResetTo.put {s t : State} (h : s.ResetTo t) : t.putAwayInvariant := by
  obtain ⟨_, _, _, rfl⟩ := h
  have start : Ride.reset.cause? .start = true := by decide
  exact fun _ => (State.put_iff _).mpr ⟨⟨rfl, rfl, rfl, rfl, rfl, rfl, rfl⟩, start, rfl, rfl, tget_replicate _, rfl⟩

theorem State.ResetTo.claimsHold {s t : State} (h : s.ResetTo t) : ClaimsHold t := by
  have e := h.empty
  obtain ⟨_, _, _, rfl⟩ := h
  exact ⟨e.sound, e.kept.rideShort, fun k => (by rcases k with k | k <;> cases k), fun _ k => (by cases k)⟩

theorem State.ResetTo.tableHolds {s t : State} (h : s.ResetTo t) (k : s.mapsInRange) : TableHolds t := by
  have e := h.empty
  refine ⟨h.mapsInRange k, h.put, e.kept, h.claimsHold, e.fulfils _, fun m => ?_⟩
  obtain ⟨_, _, _, rfl⟩ := h
  rcases m with m | m <;> cases m

/-- Settles O11: every record descends from one that the step found, or is an admitted one, and a chain that is reserved is one of the
map's. -/
theorem recordsStayInBounds : Obligations.RecordsStayInBounds := by
  refine ⟨fun s t hs h => ?_, fun s t maps put records claims table h => ?_⟩
  · rw [State.recordsInvariant_iff] at hs ⊢
    exact step_keeps (fun s => s.ride.Kept) (fun _ _ _ k => k) (fun _ _ _ k => k.empty.kept) (fun _ _ _ e => e.kept) hs h
  · obtain ⟨deadlines, awaited, chains, count, fresh, mapChains⟩ := table
    obtain ⟨sound, ends, awaits⟩ := (State.claimsInvariant_iff s).mp claims
    have kept := (State.recordsInvariant_iff s).mp records
    have start : TableHolds s := ⟨maps, put, kept, ⟨sound, kept.rideShort, ends, awaits⟩,
      ⟨⟨sound.reserved, sound.guarded, sound.named, fun _ => chains⟩,
        fun k x hx => ⟨fun dl => deadlines k x dl hx, awaited k x hx⟩, count, fresh⟩, mapChains⟩
    refine State.tableInvariant_of (step_keeps TableHolds (fun s q n k => ?_) (fun _ _ k e => e.tableHolds k.maps)
      (fun _ _ _ e => e.tableHolds) start h)
    obtain ⟨sound, short, ends, awaits⟩ := k.claims
    exact ⟨k.maps, k.put, k.kept, ⟨sound, short, ends, awaits⟩, k.fulfils, k.chains⟩

end Sys2Proof.Machine
end

section
/-! PROOF. No command frame, proof, drive step or timer named moves a train (R54). -/

namespace Sys2Proof.Machine

variable {i : Instr} {s t : State} {c : Ctx} {w o q : Bool} {a b r : Ride} {z : ZoneIx} {k u : SlotIx} {x y : Train}

theorem Ride.Within.standing {p : Parts} (h : Ride.Within p a b) (trains : p.trains = false) (k : SlotIx) : b.standing k = a.standing k := by
  rw [Ride.standing, h.train? trains]
  rfl

theorem standing_isSome (r : Ride) (k : SlotIx) : (r.standing k).isSome = (r.train? k).isSome := Option.isSome_map

/-- A STEP moves its train nowhere, and changes no zone but in its claim (R74). -/
theorem takeStep_narrow {chain : List ZoneIx} (hx : r.train? k = some x) (h : stepChain c r k x = some chain) :
    Changes false true true r (takeStep c k x chain r) := by
  obtain ⟨held, -, -, prospective, -⟩ := stepChain_spec h
  have h1 : Changes false true true r (r.putTrain k { x with stepping := true }) :=
    putTrain_changes hx rfl (.inr ⟨rfl, rfl, rfl, rfl, rfl, rfl, rfl, .inl held⟩) (fun s => s.1 k x hx) (fun a b => ⟨a, b⟩)
  exact (h1.trans (grantChain_changes k _ _)).trans
    (reserveChain_changes k chain true rfl (fun _ => prospectiveChain_length prospective) (.inl rfl))

theorem addHold_standing (src : HoldSource) (k : SlotIx) : (addHold c z src r).standing k = r.standing k := by
  unfold addHold
  split
  · rfl
  · split
    · rfl
    · next x _ _ =>
      have close := closeElement_changes (w := false) (o := false) (q := false) (c := c) (r := r.putZone z { x with holds := withBit x.holds src.bit }) z
      exact (close.keeps.trains k).trans ((putZone_within z _).standing rfl k)

/-- A train record put in another slot. -/
theorem putTrain_standing_other (hu : k ≠ u) (y : Train) : (r.putTrain u y).standing k = r.standing k := by
  rw [Ride.standing, putTrain_other _ _ _ _ hu]
  rfl

/-- An admitted train stands in the slot it was given, and leaves the others (R72). -/
theorem admitAt_standing (hu : k ≠ u) (label : Nat) : (admitAt c u z label r).standing k = r.standing k := by
  rw [Ride.standing, admitAt_train?]
  exact putTrain_standing_other hu _

/-- The commands and events that no train moves by. -/
def MovesNone (i : Instr) : Prop :=
  (i.command.isSome = true ∨ (∃ dt l h, i = .brakeProofChange dt l h) ∨ (∃ dt z, i = .proofTimerExpiry dt z) ∨
    (∃ dt l h, i = .switchProofChange dt l h) ∨ (∃ dt w, i = .moveTimerExpiry dt w) ∨ (∃ dt ch, i = .driveStep dt ch) ∨
    (∃ dt st, i = .pairWindowExpiry dt st) ∨ ∃ dt st, i = .dispatchWaitExpiry dt st) ∧ ∀ dt f, i ≠ .retire dt f

theorem RideOp.standing (op : RideOp i s r) (hi : MovesNone i) (hk : (s.ride.train? k).isSome = true) :
    r.standing k = s.ride.standing k := by
  have narrow {r' : Ride} (h : Changes false true true s.ride r') : r'.standing k = s.ride.standing k := h.keeps.trains k
  have out : ∀ {p : Prop}, ¬MovesNone i → p := fun h => absurd hi h
  cases op with
  | hold who inUse z => exact addHold_standing _ k
  | release who inUse z src => exact (removeHold_within src).standing rfl k
  | apply who inUse zones hold =>
    refine foldl_induct (fun (r' : Ride) => r'.standing k = s.ride.standing k) _ (fun r' z h => ?_) zones _ rfl
    split
    · exact (addHold_standing _ k).trans h
    · exact ((removeHold_within _).standing rfl k).trans h
  | stop who => exact (report_within _).standing rfl k
  | resume who => rfl
  | clearZone who inUse z => exact clearZoneFault_within.standing rfl k
  | clearElement who inUse z faulted =>
    have after : Changes false true true (s.ride.putElement z (.brake .closed .close)) _ := (brakeBecomes_after (c := s.ctx) z .closed .close).widen
    exact after.keeps.trains k
  | clearSwitch who inUse w side => exact (lockSwitch_within w side).standing rfl k
  | dispatch who st e free => exact (stationEvent_within st e).standing rfl k
  | cancel who st => exact (stationEvent_within st _).standing rfl k
  | move who w side => exact (requestMove_within w side _).standing rfl k
  | admitted who mode u z d label lo hi zone fresh room free can =>
    refine admitAt_standing (fun e => ?_) label
    rw [e, freeIx_free free] at hk
    cases hk
  | retire who mode u x train => exact absurd who (hi.2 _ _)
  | step who mode u x chain train can => exact narrow (takeStep_narrow train can)
  | event who => exact out (by rcases who with rfl | ⟨_, rfl⟩ <;> simp [MovesNone, Instr.command])
  | berth who => exact out (by rcases who with rfl | ⟨_, rfl⟩ <;> simp [MovesNone, Instr.command])
  | derive who => exact out (by subst who; simp [MovesNone, Instr.command])
  | stall who => exact out (by subst who; simp [MovesNone, Instr.command])
  | journey who => exact out (by subst who; simp [MovesNone, Instr.command])
  | stopping who => exact out (by subst who; simp [MovesNone, Instr.command])
  | input who => exact out (by rcases who with rfl | ⟨_, rfl⟩ <;> simp [MovesNone, Instr.command])
  | levels who => exact out (by subst who; simp [MovesNone, Instr.command])
  | proof who => exact narrow (proofTaken_changes _)
  | proofTimer who => exact narrow (proofExpiry_changes _)
  | moveTimer who due => exact (faultSwitch_within _ _).standing rfl k
  | drive who => exact narrow (channelStep_changes _)
  | wait who => exact (stationEvent_within _ _).standing rfl k

theorem Effect.standing {a b : State} (h : Effect i a b) (hi : MovesNone i) (ht : takesUp i = false) (hk : (a.ride.train? k).isSome = true) :
    b.ride.standing k = a.ride.standing k := by
  have out : ∀ {p : Prop}, takesUp i ≠ false → p := fun h => absurd ht h
  cases h with
  | raise n => exact (raise_within n).standing rfl k
  | takeUp who => exact out (by rcases who with ⟨⟨_, _, rfl⟩, -⟩ | ⟨⟨_, rfl⟩, -⟩ <;> simp [takesUp])
  | putAway who => exact out (by subst who; simp [takesUp])
  | toAuto who => exact out (by subst who; simp [takesUp])
  | toMaintenance who => exact out (by subst who; simp [takesUp])
  | ride r op => exact (conclude_narrow.keeps.trains k).trans (op.standing hi hk)
  | @window dt st who => exact (windowExpiry_within st).standing rfl k
  | direct who inUse u x d train =>
    by_cases e : k = u
    · subst e
      rw [Ride.standing, Ride.standing, putTrain_same, train]
      rfl
    · exact putTrain_standing_other e _
  | _ => rfl

/-- Settles O22: through every effect a train stands where it stood. -/
theorem commandsMoveNoTrain : Obligations.CommandsMoveNoTrain := by
  intro i s t k h hr ht who retire hk
  refine (exec_effects h hr).induct (fun t => t.ride.standing k = s.ride.standing k) (fun a b e ih => ?_) rfl
  refine (e.standing ⟨who, retire⟩ ht ?_).trans ih
  rwa [← standing_isSome, ih, standing_isSome]

end Sys2Proof.Machine
end

section
/-! PROOF. The commands on holds (R41, R42, R46): a command's rule that acts on the ride, the end of its step, and what the end of a
step leaves of a zone that is held. -/

namespace Sys2Proof.Machine

variable {i : Instr} {s t : State} {dt : Nat} {f : Frame} {c : Ctx} {w o q : Bool} {a b r : Ride} {z u : ZoneIx} {k : SlotIx}
  {x y : Train}

/-! ### A rule that acts on the ride -/

theorem told_within (s : State) : Ride.Within { reports := true } s.ride s.told := by
  unfold State.told
  split
  · exact raise_within _
  · exact .refl _

/-- A command taken and answered DONE, whose rule took the ride the frame left through `g`. -/
structure State.Did (s : State) (dt : Nat) (g : Ctx → Ride → Ride) (t : State) : Prop where
  only : s.onlyRide dt t
  closed : t.selection = none
  answered : t.answered s.selection.isSome .done
  ride : t.ride = conclude (s.asked dt).ctx s.told (g (s.asked dt).ctx s.told)

theorem ordinary_did {own : State → Result × State} {g : Ctx → Ride → Ride} (h : s.takes)
    (rule : own (s.asked dt) = (.done, (s.asked dt).onRide g)) : s.Did dt g ((s.advance dt).takeFrame .ordinary own) := by
  obtain ⟨answered, same⟩ := ordinary_answers (next := .nothing) h rule
  generalize (s.advance dt).takeFrame .ordinary own .nothing = t at answered same
  refine ⟨?_, ?_, answered, ?_⟩
  · rw [same]
    exact ⟨rfl, rfl, ⟨rfl, rfl, rfl, rfl⟩, ⟨rfl, rfl, rfl, rfl, rfl, rfl⟩, rfl⟩
  · rw [same]
    rfl
  · rw [same]
    rfl

theorem State.Did.keeps {g : Ctx → Ride → Ride} (h : s.Did dt g t) : (g (s.asked dt).ctx s.told).Keeps t.ride := by
  rw [h.ride]
  exact conclude_narrow.keeps

/-! ### The end of a step -/

/-- What withdrawals and presentations, reservations of presented chains, and the latching keep, the end of a step keeps. -/
theorem conclude_induct {before after : Ride} (Q : Ride → Prop)
    (within : ∀ a b, Ride.Within { presented := true, switches := true } a b → Q a → Q b)
    (reserve : ∀ r t x chain, r.train? t = some x → eligible c r x = true → chainAvailable c r t false x.head chain = true → Q r →
      Q (reserveChain c t chain false r))
    (stop : ∀ r, Q r → Q (r.stopRide c)) (h : Q after) : Q (conclude c before after) := by
  have one : ∀ t r, Q r → Q (reserveIfAvailable c t r) := by
    intro t r hr
    unfold reserveIfAvailable
    split
    · next x chain hx _ =>
      split
      · next he =>
        rw [Bool.and_eq_true] at he
        exact reserve r t x chain hx he.1 he.2 hr
      · exact hr
    · exact hr
  have all : ∀ r, Q r → Q (reconsider c r) := fun r hr =>
    overAll_induct Q _ one _ (within _ _ (presentations_within (c := c) r) hr)
  have told : Q (tellLatched c before after) := by
    unfold tellLatched
    split
    · exact stop _ h
    · exact h
  unfold conclude
  dsimp only
  split
  · exact all _ (stop _ (all _ told))
  · exact all _ told

/-- An open command changes no other zone's element. -/
theorem openElement_apart (creep : Bool) (hu : u ≠ z) : (openElement c z creep r).element? u = r.element? u := by
  unfold openElement
  split
  · rfl
  · exact (commandElement_apart _ hu).trans ((zoneStationEvent_within z _).element? rfl u)

theorem reserveChain_off {chain : List ZoneIx} (creep : Bool) (hx : r.train? k = some x) (hu : u ≠ x.head) (h : r.OutputOff u) :
    (reserveChain c k chain creep r).OutputOff u := by
  rw [reserveChain_eq hx]
  have reserved : (chainReserved c k x chain r).OutputOff u := by
    unfold chainReserved
    exact Ride.OutputOff.changes (a := r.putTrain k { x with chain := chain }) (w := false) (q := true) h
      ((foldl_changes (fun r z => setClaim_changes z _ (.inl rfl)) _ _).trans (foldl_changes (fun r z => reservedAt_changes _ z) _ _))
  exact reserved.congr (openElement_apart creep hu)

theorem eligible_head (h : eligible c r x = true) (held : ¬r.Unheld z) : z ≠ x.head := fun e =>
  held (e ▸ (readyToReserve_unheld (eligible_ready h)).1)

/-- A zone is held or faulted after changes that are not wide where it was before. -/
theorem Unheld.not_changes (h : ¬a.Unheld z) (k : Changes false o q a b) : ¬b.Unheld z := by
  have zone := k.keeps
  intro e
  exact h ⟨fun src => (zone.holds z src).symm.trans (e.1 src), (zone.faults z).symm.trans e.2⟩

theorem Unheld.not_same (h : ¬a.Unheld z) (k : a.SameZones b) : ¬b.Unheld z := fun e =>
  h ⟨fun src => (k.held z src).symm.trans (e.1 src), (k.fault z).symm.trans e.2⟩

/-- The output of a held or faulted zone that is off stays off to the end of the step (R29, R35). -/
theorem conclude_held_off {before after : Ride} (held : ¬after.Unheld z) (h : after.OutputOff z) : (conclude c before after).OutputOff z := by
  refine (conclude_induct (fun r => ¬r.Unheld z ∧ r.OutputOff z) (fun a b k e => ?_) (fun r t x chain hx he ha e => ?_) (fun r e => ?_)
    ⟨held, h⟩).2
  · exact ⟨Unheld.not_same e.1 (.of_within k rfl), e.2.congr (k.element? rfl z)⟩
  · exact ⟨Unheld.not_same e.1 (reserveChain_sameZones chain false), reserveChain_off false hx (eligible_head he e.1) e.2⟩
  · exact ⟨Unheld.not_changes e.1 (stopRide_changes (o := false) (q := false)), stopRide_shut z⟩

/-! ### A train that stands through the end of a step -/

/-- Nothing but a release takes a STOPPING train's record further. -/
theorem Train.Led.stopping (h : Train.Led c false noChain x y) (phase : x.phase = .stopping) : y = x := by
  induction h with
  | refl => rfl
  | tail _ k ih =>
    subst ih
    cases k with
    | returned rest => rw [phase] at rest; cases rest
    | stopped running => rw [phase] at running; cases running
    | released may => cases may
    | reserved chain named => exact named.elim
    | directed may => exact may.elim fun _ => False.elim

/-- Closes and reports leave a STOPPING train's record. -/
theorem Ride.Led.stopping (h : Ride.Led c false noChain a b) (hx : a.train? k = some x) (phase : x.phase = .stopping) : b.train? k = some x := by
  obtain ⟨y, hy, led⟩ := (h.carries k).2 x hx
  rw [hy, led.stopping phase]

/-- An element proven OPEN releases the train whose head zone it is (R61). -/
theorem provenOpen_train_other (hx : r.train? k = some x) (hz : x.head ≠ z) : (provenOpen c z r).train? k = some x := by
  unfold provenOpen
  split
  · exact hx
  · next u _ =>
    split
    · exact hx
    · next y hy =>
      split
      · next h =>
        rw [changeTrain_other _ _ (fun e => ?_), hx]
        subst e
        rw [hx] at hy
        cases hy
        exact hz h.2
      · exact hx

theorem brakeBecomes_open_train {st : BrakeState} {cmd : ElementCommand} (hx : r.train? k = some x) (hz : x.head ≠ z)
    (hst : st ≠ .closed) : (brakeBecomes c z st cmd r).train? k = some x := by
  unfold brakeBecomes
  dsimp only
  cases st with
  | opened => exact provenOpen_train_other hx hz
  | closed => exact absurd rfl hst
  | fault cause => exact (((raise_within _).trans (report_within _)).train? rfl k).trans hx
  | opening due => exact hx
  | closing due => exact hx

/-- A brake under an open command is not proven CLOSED (Table 7-3). -/
theorem commanded_open {st : BrakeState} {cmd : ElementCommand} {due : Nat} (hc : cmd ≠ .close) :
    st.commanded cmd due = .opening due ∨ st.commanded cmd due = .opened ∨ ∃ cause, st.commanded cmd due = .fault cause := by
  cases cmd <;> cases st <;> simp [BrakeState.commanded] at hc ⊢

/-- A brake opening at any levels is opening, OPEN or in FAULT (Table 7-4). -/
theorem atLevels_opening (due : Nat) (p q : Bool) : (BrakeState.opening due).atLevels p q ≠ .closed := by
  cases p <;> cases q <;> simp [BrakeState.atLevels]

theorem openElement_train_other (creep : Bool) (hx : r.train? k = some x) (hz : x.head ≠ z) :
    (openElement c z creep r).train? k = some x := by
  have told : ∀ {r' : Ride}, r'.train? k = some x → ∀ cmd : ElementCommand, cmd ≠ .close → (commandElement c z cmd r').train? k = some x := by
    intro r' hr cmd hc
    unfold commandElement
    split
    · next st _ _ =>
      unfold brakeCommand
      rcases commanded_open (st := st) (due := c.proofDue z) hc with e | e | ⟨cause, e⟩ <;> rw [e]
      · exact brakeBecomes_open_train hr hz (atLevels_opening _ _ _)
      · exact brakeBecomes_open_train hr hz (by simp)
      · exact hr
    · unfold driveCommand
      split
      · exact hr
      · split
        · next i _ _ _ ch d _ _ =>
          generalize (if stopsAtOnce r' d cmd then (ch.restingAt 0, true) else ch.aimed (cmd.codeOn d) (dueAfter c.now d.interval)) = aim
          dsimp only
          split
          · unfold driveArrives
            split
            · exact absurd rfl hc
            · exact provenOpen_train_other hr hz
          · exact hr
        · exact hr
    · exact hr
  unfold openElement
  split
  · exact hx
  · next e _ =>
    refine told (((zoneStationEvent_within z _).train? rfl k).trans hx) _ ?_
    cases e with
    | brake => simp
    | drive => cases creep <;> simp

theorem reserveChain_train_other {chain : List ZoneIx} {l : SlotIx} (creep : Bool) (hx : r.train? l = some x) (hy : r.train? k = some y) (hk : k ≠ l)
    (hz : y.head ≠ x.head) : (reserveChain c l chain creep r).train? k = some y := by
  rw [reserveChain_eq hx]
  exact openElement_train_other creep (((chainReserved_trains chain k).1 hk).trans hy) hz

/-- A train STOPPING in a held zone stands as it is to the end of the step. -/
theorem conclude_stopping {before after : Ride} (hx : after.train? k = some x) (phase : x.phase = .stopping) (held : ¬after.Unheld x.head) :
    (conclude c before after).train? k = some x := by
  refine (conclude_induct (fun r => ¬r.Unheld x.head ∧ r.train? k = some x) (fun a b h e => ?_) (fun r t y chain hy he ha e => ?_)
    (fun r e => ?_) ⟨held, hx⟩).2
  · exact ⟨Unheld.not_same e.1 (.of_within h rfl), (h.train? rfl k).trans e.2⟩
  · have apart := eligible_head he e.1
    refine ⟨Unheld.not_same e.1 (reserveChain_sameZones chain false), reserveChain_train_other false hy e.2 (fun h => ?_) apart⟩
    subst h
    rw [hy] at e
    obtain ⟨-, e⟩ := e
    cases e
    exact apart rfl
  · exact ⟨Unheld.not_changes e.1 (stopRide_changes (o := false) (q := false)), (stopRide_led (p := false)).stopping e.2 phase⟩

/-! ### Zone records -/

theorem putZone_self {v : ZoneRec} (h : r.zone? z = some v) : r.putZone z v = r := by
  have same : tput r.zones z (some v) = r.zones := table_ext fun u => by
    rw [tget_tput]
    split
    · next e => rw [e]; exact h.symm
    · rfl
  unfold Ride.putZone
  rw [same]

theorem withBit_of_get {n : Nat} {v : BitVec n} {j : Nat} (h : v.getLsbD j = true) : withBit v j = v := by
  apply BitVec.eq_of_getLsbD_eq
  intro l hl
  by_cases e : j = l
  · subst e
    simp [withBit, h]
  · simp [withBit, BitVec.getLsbD_twoPow, e]

/-- A zone with a hold source added is held. -/
theorem putZone_withBit_held {v : ZoneRec} (src : HoldSource) : ¬(r.putZone z { v with holds := withBit v.holds src.bit }).Unheld z := by
  intro h
  have e : (r.putZone z { v with holds := withBit v.holds src.bit }).zone? z = some { v with holds := withBit v.holds src.bit } := tget_tput_same ..
  have k := h.1 src
  rw [Ride.held, e] at k
  have bit : src.bit < 4 := by cases src <;> decide
  simp [ZoneRec.holds?, withBit_self v.holds src.bit bit] at k

/-- HOLD of a zone that LINK does not hold (R41). -/
theorem addHold_new {v : ZoneRec} {src : HoldSource} (hz : r.zone? z = some v) (new : v.holds? src = false) :
    addHold c z src r = closeElement c z (r.putZone z { v with holds := withBit v.holds src.bit }) := by
  simp [addHold, hz, new]

theorem addHold_old {v : ZoneRec} {src : HoldSource} (hz : r.zone? z = some v) (old : v.holds? src = true) : addHold c z src r = r := by
  simp [addHold, hz, old]

/-- A hold added keeps all else of the zones and the trains' places (R41). -/
theorem addHold_keeps {v : ZoneRec} {src : HoldSource} (hz : r.zone? z = some v) :
    (r.putZone z { v with holds := withBit v.holds src.bit }).Keeps (addHold c z src r) := by
  cases h : v.holds? src with
  | false =>
    rw [addHold_new hz h]
    exact (closeElement_changes (w := false) (o := false) (q := false) z).keeps
  | true =>
    rw [addHold_old hz h, withBit_of_get h]
    have self : r.putZone z { v with holds := v.holds } = r := putZone_self hz
    rw [self]
    exact .refl r

/-- A close under a RUNNING train takes it to STOPPING on the stop allowance (R60). -/
theorem closeElement_stops (he : (r.element? z).isSome = true) (ho : r.occupant? z = some k) (hx : r.train? k = some x) (head : x.head = z)
    (running : x.phase = .running) : (closeElement c z r).train? k =
      some { x with phase := .stopping, deadline := some (deadlineFrom .stop c.now (c.stopAllowance z)) } := by
  obtain ⟨e, he⟩ := Option.isSome_iff_exists.mp he
  have h1 : (closeUnderTrain c z r).train? k =
      some { x with phase := .stopping, deadline := some (deadlineFrom .stop c.now (c.stopAllowance z)) } := by
    simp only [closeUnderTrain, ho, hx, running, head, and_self, if_true]
    exact changeTrain_train k x _
  simp only [closeElement, he]
  exact (commandElement_led (c := c) (p := false) z (.inl rfl)).stopping h1 rfl

end Sys2Proof.Machine
end

section
/-! PROOF. HOLD, RELEASE_HOLD and APPLY_SELECTION (R41, R42, R46). -/

namespace Sys2Proof.Machine

variable {i : Instr} {s t : State} {dt : Nat} {f : Frame} {c : Ctx} {w o q : Bool} {a b r : Ride} {z u : ZoneIx} {k : SlotIx}
  {x y : Train} {v : ZoneRec} {d : ZoneDesc} {src : HoldSource}

theorem withBit_link (h : BitVec 4) : withBit h HoldSource.link.bit = h ||| 1#4 := by simp [withBit, HoldSource.bit, BitVec.twoPow]

theorem withoutBit_source (h : BitVec 4) (src : HoldSource) : withoutBit h src.bit = h &&& ~~~(1#4 <<< src.bit) := by
  simp [withoutBit, BitVec.twoPow_eq]

/-- A hold removed keeps all else (R42). -/
theorem removeHold_keeps (src : HoldSource) (hz : r.zone? z = some v) :
    (r.putZone z { v with holds := v.holds &&& ~~~(1#4 <<< src.bit) }).Keeps (removeHold z src r) := by
  simp only [removeHold, hz, withoutBit_source]
  exact .refl _

theorem told_zone? (s : State) (z : ZoneIx) : s.told.zone? z = s.ride.zone? z := (told_within s).zone? rfl z

/-- The output of a zone's element is off where the ride says so. -/
theorem elementOutput_off (h : t.ride.OutputOff z) : t.elementOutput z = false := (elementOutput_iff t z).mpr h

/-- HOLD in a zone that LINK did not hold (R36, R41). -/
theorem hold_off (h : s.Did dt (addHold · z .link) t) (hz : s.ride.zone? z = some v) (new : v.holds? .link = false) :
    t.elementOutput z = false := by
  have hz' := (told_zone? s z).trans hz
  refine elementOutput_off ?_
  rw [h.ride]
  have e := addHold_new (c := (s.asked dt).ctx) hz' new
  refine conclude_held_off ?_ (e ▸ closeElement_off)
  rw [e]
  exact Unheld.not_changes (o := false) (q := false) (putZone_withBit_held .link) (closeElement_changes z)

theorem zoneNamed_spec {m : CircuitMap} {n : Nat} (h : m.zoneNamed n = some (z, d)) : m.zone z = some d ∧ n = z.val := by
  obtain ⟨u, hu, hd⟩ := Option.bind_eq_some_iff.mp h
  obtain ⟨e, he, hz⟩ := Option.map_eq_some_iff.mp hd
  cases hz
  refine ⟨he, ?_⟩
  unfold ixOf at hu
  split at hu
  · cases hu
    rfl
  · cases hu

/-- A zone record replaced that keeps its claim leaves every claim. -/
theorem putZone_claim_kept {v' : ZoneRec} (hz : r.zone? z = some v) (claim : v'.claim = v.claim) (u : ZoneIx) :
    (r.putZone z v').claim? u = r.claim? u := by
  rw [putZone_claim?]
  split
  · next e => rw [e, Ride.claim?, hz, claim]; rfl
  · rfl

theorem hold_stops (h : s.Did dt (addHold · z .link) t) (hz : s.ride.zone? z = some v) (hd : s.map.zone z = some d)
    (new : v.holds? .link = false) (he : (s.ride.element? z).isSome = true) (ho : s.ride.occupant? z = some k) (hx : s.ride.train? k = some x)
    (head : x.head = z) (running : x.phase = .running) : t.ride.train? k =
      some { x with phase := .stopping, deadline := some { kind := .stop, start := s.now + dt, duration := d.stop, early := none } } := by
  have told := told_within s
  have hz' := (told_zone? s z).trans hz
  have e := addHold_new (c := (s.asked dt).ctx) hz' new
  have allowance : (s.asked dt).ctx.stopAllowance z = d.stop := by
    show ((s.map.zone z).map (·.stop)).getD 0 = d.stop
    rw [hd]
    rfl
  have occupied : (s.told.putZone z { v with holds := withBit v.holds HoldSource.link.bit }).occupant? z = some k := by
    rw [Ride.occupant?, putZone_claim_kept hz' (by rfl)]
    exact (told.occupant? rfl z).trans ho
  have stops := closeElement_stops (c := (s.asked dt).ctx) (r := s.told.putZone z { v with holds := withBit v.holds HoldSource.link.bit })
    ((congrArg Option.isSome (told.element? rfl z)).trans he) occupied ((told.train? rfl k).trans hx) head running
  rw [allowance] at stops
  rw [h.ride]
  refine conclude_stopping (e ▸ stops) rfl ?_
  rw [e, head]
  exact Unheld.not_changes (o := false) (q := false) (putZone_withBit_held .link) (closeElement_changes z)

theorem sourceOf_bit (src : HoldSource) : sourceOf src.bit = some src := by cases src <;> rfl

theorem releaseRule_named (harg : f.arg.toNat = src.bit) : releaseRule f = zoneCommand f true (releaseSource src) := by
  unfold releaseRule
  rw [argumentOf, harg, sourceOf_bit]

theorem told_overdueIn (s : State) (z : ZoneIx) : s.told.overdueIn z = s.ride.overdueIn z := by
  have train : s.told.train? = s.ride.train? := funext fun k => (told_within s).train? rfl k
  rw [Ride.overdueIn, (told_within s).occupant? rfl, train]
  rfl

/-- The rule of RELEASE_HOLD for a source it may remove (R42). -/
theorem releaseSource_done (hi : src ≠ .input) (ho : src = .overdue → s.ride.overdueIn z = false) :
    releaseSource src z (s.asked dt) = (.done, (s.asked dt).onRide fun _ r => removeHold z src r) := by
  cases src with
  | input => exact absurd rfl hi
  | overdue =>
    have h : (s.asked dt).ride.overdueIn z = false := (told_overdueIn s z).trans (ho rfl)
    simp [releaseSource, h]
  | link => rfl
  | rollback => rfl

/-- Settles O38. -/
theorem holdAndRelease : Obligations.HoldAndRelease := by
  intro s dt f z d v hs hm hn hz
  have zone : ∀ own : ZoneIx → State → Result × State, zoneCommand f true own (s.asked dt) = own z (s.asked dt) := zoneCommand_named hm hn
  have hz' := (told_zone? s z).trans hz
  refine ⟨⟨_, rfl, ?_⟩, fun src harg hi ho => ⟨_, rfl, ?_⟩, fun harg ho => ⟨_, rfl, ?_⟩, fun harg => ⟨_, rfl, ?_⟩⟩
  · have h : s.Did dt (addHold · z .link) _ := ordinary_did hs (own := holdRule f) (zone _)
    refine ⟨h.only, h.closed, h.answered, ?_, hold_off h hz, fun k y new he ho hy head running => ?_⟩
    · rw [← withBit_link]
      exact (addHold_keeps hz').trans h.keeps
    · exact ⟨_, hold_stops h hz (zoneNamed_spec hn).1 new he ho hy head running, rfl, rfl⟩
  · have h : s.Did dt (fun _ => removeHold z src) _ := ordinary_did hs (own := releaseRule f)
      (by rw [releaseRule_named harg, zone, releaseSource_done hi ho])
    exact ⟨h.only, h.closed, h.answered, (removeHold_keeps src hz').trans h.keeps⟩
  · refine ordinary_turnedAway (i := .releaseHold dt f) hs rfl ?_ rfl
    have h : (s.asked dt).ride.overdueIn z = true := (told_overdueIn s z).trans ho
    rw [releaseRule_named harg]
    show zoneCommand f true _ (s.asked dt) = _
    rw [zone]
    simp [releaseSource, h, State.refuse, Instr.wait]
  · refine ordinary_turnedAway (i := .releaseHold dt f) hs rfl ?_ rfl
    rw [releaseRule_named harg]
    show zoneCommand f true _ (s.asked dt) = _
    rw [zone]
    rfl

/-! ### APPLY_SELECTION -/

/-- Ride `b` has the holds, faults, entry speeds and standings of `a`, and no fewer causes and notices. -/
structure Ride.Near (a b : Ride) : Prop where
  zones : a.SameZones b
  trains : ∀ k, b.standing k = a.standing k
  grows : a.grows b

theorem Ride.Near.refl (a : Ride) : a.Near a := ⟨.refl a, fun _ => rfl, .refl a⟩

theorem Ride.Near.keeps (h : a.Near b) : a.Keeps b :=
  ⟨h.zones.held, h.zones.fault, h.zones.speed, h.trains, fun cause => h.grows.1 cause.bit, fun n => h.grows.2 n.bit⟩

theorem Ride.Near.changes {e : Ride} (h : a.Near b) (k : Changes false o q b e) : a.Near e :=
  ⟨h.zones.trans (.of_changes k), fun l => (k.keeps.trains l).trans (h.trains l), h.grows.trans k.grows⟩

/-- Zone records of one place replaced by records with the same holds, fault and entry speed. -/
theorem Ride.Near.putZone {v' : ZoneRec} (h : a.Near b) (holds : v'.holds = v.holds) (fault : v'.fault = v.fault)
    (speed : v'.entrySpeed = v.entrySpeed) : (a.putZone z v).Near (b.putZone z v') := by
  refine ⟨fun u => ?_, h.trains, h.grows⟩
  have put : ∀ (r : Ride) (w : ZoneRec), (r.putZone z w).zone? u = if u = z then some w else r.zone? u := fun r w => tget_tput ..
  rw [put, put]
  split
  · simp [holds, fault, speed]
  · exact h.zones u

/-- LINK added to a zone or removed from it, in a ride and in a near one (R46). -/
theorem Ride.Near.link (h : a.Near b) (hold : Bool) (z : ZoneIx) :
    (a.withLink hold z).Near (if hold = true then addHold c z .link b else removeHold z .link b) := by
  unfold Ride.withLink
  rcases h.zones.cases z with ⟨ha, hb⟩ | ⟨v, v', ha, hb, holds, fault, speed⟩
  · rw [ha]
    cases hold <;> simpa [addHold, removeHold, hb] using h
  · rw [ha]
    cases hold with
    | false =>
      simp only [removeHold, hb, Bool.false_eq_true, if_false]
      exact h.putZone (by simp [holds]) fault speed
    | true =>
      have put := h.putZone (z := z) (v := { v with holds := withBit v.holds HoldSource.link.bit })
        (v' := { v' with holds := withBit v'.holds HoldSource.link.bit }) (by simp [holds]) fault speed
      simp only [if_true]
      cases e : v'.holds? .link with
      | false =>
        rw [addHold_new hb e]
        exact put.changes (o := false) (q := false) (closeElement_changes z)
      | true =>
        rw [addHold_old hb e]
        have self : b.putZone z { v' with holds := withBit v'.holds HoldSource.link.bit } = b := by
          rw [withBit_of_get e]
          exact putZone_self hb
        rwa [self] at put

theorem holdZones_near (zones : List ZoneIx) (hold : Bool) (h : a.Near b) :
    (zones.foldl (fun r z => r.withLink hold z) a).Near (holdZones c zones hold b) := by
  unfold holdZones
  induction zones generalizing a b with
  | nil => exact h
  | cons z zs ih => exact ih (h.link hold z)

/-- A hold added elsewhere leaves a zone's holds. -/
theorem addHold_other {src' : HoldSource} (h : z ≠ u) : (addHold c u src r).held z src' = r.held z src' := by
  unfold addHold
  split
  · rfl
  · split
    · rfl
    · next v' _ _ =>
      refine ((closeElement_changes (w := false) (o := false) (q := false) u).keeps.holds z src').trans ?_
      have e : (r.putZone u { v' with holds := withBit v'.holds src.bit }).zone? z = r.zone? z := tget_tput_other _ _ _ _ h
      rw [Ride.held, e]
      rfl

theorem addHold_same (hz : (r.zone? z).isSome = true) : (addHold c z src r).held z src = true := by
  obtain ⟨v, hv⟩ := Option.isSome_iff_exists.mp hz
  cases e : v.holds? src with
  | true =>
    rw [addHold_old hv e, Ride.held, hv]
    exact e
  | false =>
    rw [addHold_new hv e]
    refine ((closeElement_changes (w := false) (o := false) (q := false) z).keeps.holds z src).trans ?_
    have put : (r.putZone z { v with holds := withBit v.holds src.bit }).zone? z = some { v with holds := withBit v.holds src.bit } :=
      tget_tput_same ..
    rw [Ride.held, put]
    exact withBit_self _ _ (by cases src <;> decide)

theorem Ride.SameZones.isSome (h : a.SameZones b) (z : ZoneIx) : (b.zone? z).isSome = (a.zone? z).isSome := by
  rcases h.cases z with ⟨ha, hb⟩ | ⟨v, v', ha, hb, -⟩ <;> rw [ha, hb]
  rfl

theorem addHold_zone_isSome (u : ZoneIx) : ((addHold c u src r).zone? z).isSome = (r.zone? z).isSome := by
  unfold addHold
  split
  · rfl
  · split
    · rfl
    · next v' hv' _ =>
      rw [Ride.SameZones.isSome (.of_changes (o := false) (q := false) (closeElement_changes u))]
      by_cases e : z = u
      · subst e
        have put : (r.putZone z { v' with holds := withBit v'.holds src.bit }).zone? z = some { v' with holds := withBit v'.holds src.bit } :=
          tget_tput_same ..
        rw [put, hv']
        rfl
      · exact congrArg Option.isSome (tget_tput_other _ _ _ _ e)

/-- LINK added to a set of zones: a zone of it that LINK did not hold has its output off (R36, R46). -/
theorem holdZones_off {zones : List ZoneIx} (hz : (r.zone? z).isSome = true) (mem : z ∈ zones ∨ r.OutputOff z ∧ r.held z .link = true)
    (new : r.held z .link = false ∨ r.OutputOff z) : (holdZones c zones true r).OutputOff z ∧ (holdZones c zones true r).held z .link = true := by
  unfold holdZones
  induction zones generalizing r with
  | nil => exact mem.resolve_left (by simp)
  | cons u zs ih =>
    have step : ∀ h : (addHold c u .link r).OutputOff z, (addHold c u .link r).held z .link = true → _ := fun h k =>
      ih (r := addHold c u .link r) ((addHold_zone_isSome u).trans hz) (.inr ⟨h, k⟩) (.inr h)
    by_cases e : z = u
    · subst e
      refine step ?_ (addHold_same hz)
      obtain ⟨v, hv⟩ := Option.isSome_iff_exists.mp hz
      cases ev : v.holds? .link with
      | true =>
        rw [addHold_old hv ev]
        refine new.resolve_left fun h => ?_
        rw [Ride.held, hv] at h
        exact absurd ev (by simpa using h)
      | false =>
        rw [addHold_new hv ev]
        exact closeElement_off
    · have off : r.OutputOff z → (addHold c u .link r).OutputOff z := fun h => h.changes (addHold_changes (w := true) (q := false) u _ rfl)
      refine ih (r := addHold c u .link r) ((addHold_zone_isSome u).trans hz) (mem.imp (fun h => ?_) fun h => ⟨off h.1, ?_⟩) (new.imp (fun h => ?_) off)
      · exact (List.mem_cons.mp h).resolve_left e
      · exact (addHold_other e).trans h.2
      · exact (addHold_other e).trans h

/-- A zone that a source holds is held. -/
theorem not_unheld (h : r.held z src = true) : ¬r.Unheld z := fun e => by
  rw [e.1 src] at h
  cases h

/-- Settles O41. -/
theorem applyHoldsOrReleases : Obligations.ApplyHoldsOrReleases := by
  intro s dt f sel hs hm hsel harg
  have rule : applyRule f (s.queried dt) = applyZones sel (f.arg.toNat == 0) (s.queried dt) := by
    rw [applyRule, selectionCommand_open (s := s.queried dt) hm hsel]
    rcases harg with h | h <;> simp [argumentOf, h]
  obtain ⟨answered, same⟩ := keeping_answers (own := applyRule f) (next := .nothing) hs rule
  refine ⟨_, rfl, ?_⟩
  show State.onlyRide s dt ((s.advance dt).takeFrame .keeping (applyRule f)) ∧ _
  generalize (s.advance dt).takeFrame .keeping (applyRule f) .nothing = t at answered same
  have ride : t.ride = conclude (s.queried dt).ctx s.ride (holdZones (s.queried dt).ctx sel.zones (f.arg.toNat == 0) s.ride) := by
    rw [same]
    rfl
  have near := holdZones_near (c := (s.queried dt).ctx) sel.zones (f.arg.toNat == 0) (.refl s.ride)
  refine ⟨?_, ?_, answered, ?_, fun h z hz hzone new => elementOutput_off ?_⟩
  · rw [same]
    exact ⟨rfl, rfl, ⟨rfl, rfl, rfl, rfl⟩, ⟨rfl, rfl, rfl, rfl, rfl, rfl⟩, rfl⟩
  · rw [same]
    rfl
  · rw [ride]
    exact near.keeps.trans conclude_narrow.keeps
  · rw [ride, h]
    have off := holdZones_off (c := (s.queried dt).ctx) hzone (.inl hz) (.inl new)
    exact conclude_held_off (not_unheld off.2) off.1

end Sys2Proof.Machine
end

section
/-! PROOF. SET_MODE, RIDE_STOP and RESUME (R155 to R163). -/

namespace Sys2Proof.Machine

variable {i : Instr} {s t : State} {dt : Nat} {f : Frame} {c : Ctx} {w o q : Bool} {a b r : Ride} {z u : ZoneIx} {k : SlotIx}

/-- A ride without records asserts no output (Table 11-2). -/
theorem outputs_of_empty (h : s.ride.Empty) : s.outputsReleased := by
  refine ⟨fun ch => ?_, fun z => ?_, fun line => ?_⟩
  · have hc : s.ride.channel? ch = none := by rw [Ride.channel?, h.channels, tget_replicate]
    simp [State.setpoint, State.enable, hc]
  · have he : s.ride.element? z = none := by rw [Ride.element?, h.elements, tget_replicate]
    simp [State.elementOutput, he]
  · have hw : ∀ w, s.ride.switch? w = none := fun w => by rw [Ride.switch?, h.switches, tget_replicate]
    simp [State.switchOutput, hw]

theorem putAway_empty (s : State) : (putAway s).ride.Empty :=
  (report_changes (w := true) (o := true) (q := true) .start).empty ⟨rfl, rfl, rfl, rfl, rfl, rfl, rfl⟩

theorem putAway_put (s : State) : (putAway s).put :=
  (State.put_iff _).mpr ⟨putAway_empty s, report_cause _ _, rfl, rfl, tget_replicate _, rfl⟩

/-! ### Demands -/

/-- A cancel leaves a station without a demand (R150). -/
theorem cancel_demand {st : StationIx} {x : StationRec} (h : (stationEvent c st .cancel r).station? st = some x) : x.state.isPending = false := by
  obtain ⟨y, -, rfl⟩ := (stationEvent_station h).1 rfl
  cases y.state <;> simp [StationState.next, StationState.isPending]

/-- Every demand is cancelled as AUTO is left (R150). -/
theorem cancelDemands_none {st : StationIx} {x : StationRec} (h : (cancelDemands c r).station? st = some x) : x.state.isPending = false := by
  refine overAll_establish (fun _ => True) (fun st (r : Ride) => ∀ x, r.station? st = some x → x.state.isPending = false)
    (fun (st : StationIx) r => stationEvent c st .cancel r) (fun _ _ h => h) (fun st r _ x hx => cancel_demand hx) (fun u st r _ k x hx => ?_)
    r trivial st x h
  by_cases e : st = u
  · subst e
    exact cancel_demand hx
  · exact k x ((stationEvent_station hx).2 e)

/-- With no demand there is none after the end of a step in a mode other than AUTO. -/
theorem conclude_no_demand {before after : Ride} (hm : c.mode ≠ .auto)
    (h : ∀ st x, after.station? st = some x → x.state.isPending = false) (st : StationIx) (x : StationRec)
    (hx : (conclude c before after).station? st = some x) : x.state.isPending = false := by
  have told : ∀ st x, (tellLatched c before after).station? st = some x → x.state.isPending = false := by
    unfold tellLatched
    split
    · exact stopRide_rest.demands
    · exact h
  exact told st x (((conclude_calm (before := before) (after := after) (.inl hm)).station? rfl st).symm.trans hx)

/-! ### SET_MODE -/

/-- The rule of SET_MODE with no store under way and a mode named (R155). -/
theorem setModeRule_named {target : Mode} (hs : s.storing = none) (harg : modeOf f.arg.toNat = some target) :
    setModeRule f (s.asked dt) = changeMode target (s.asked dt) := by
  have h : (s.asked dt).storing = none := hs
  simp [setModeRule, h, argumentOf, harg]

theorem told_trainCount (s : State) : s.told.trainCount = s.ride.trainCount := by
  rw [Ride.trainCount, Ride.trainsList, State.told]
  split <;> rfl

/-- Settles O34. -/
theorem setModeChangesMode : Obligations.SetModeChangesMode := by
  intro s dt f target hs hst harg
  have answers {res : Result} {t0 : State} (h : changeMode target (s.asked dt) = (res, t0)) :
      t0.Answers ((s.advance dt).takeFrame .ordinary (setModeRule f)) s.selection.isSome res (res.follow .nothing) :=
    ordinary_answers hs ((setModeRule_named hst harg).trans h)
  have mode : (s.asked dt).mode = s.mode := rfl
  have count : (s.asked dt).ride.trainCount = s.ride.trainCount := told_trainCount s
  refine ⟨_, rfl, fun h => ?_, fun hm ht hv => ?_, fun hm ht hv => ?_, fun hm ht hc => ?_, fun hm ht hc => ?_, fun hm ht => ?_, fun hm ht => ?_,
    fun h => ?_⟩
  · exact answers (t0 := s.asked dt) (by simp only [changeMode, h, mode, if_true])
  · subst ht
    have pass : (s.asked dt).map.validate.outcome = .pass := hv
    exact answers (t0 := takeUp { s.asked dt with report := s.map.validate }) (by simp only [changeMode, mode, hm, leaveConfig, pass]; rfl)
  · subst ht
    have fail : (s.asked dt).map.validate.outcome ≠ .pass := hv
    exact answers (t0 := { s.asked dt with report := s.map.validate }) (by simp only [changeMode, mode, hm, leaveConfig, fail]; rfl)
  · subst ht
    obtain ⟨answered, same⟩ := answers (t0 := putAway (s.asked dt)) (by simp only [changeMode, mode, hm, count, hc]; rfl)
    refine ⟨answered, ?_⟩
    rw [same]
    exact ⟨rfl, putAway_put (s.asked dt), outputs_of_empty (putAway_empty (s.asked dt)), rfl, rfl, rfl, rfl⟩
  · subst ht
    have h : (s.asked dt).ride.trainCount ≠ 0 := count.symm ▸ hc
    exact answers (t0 := s.asked dt) (by simp only [changeMode, mode, hm, h, ne_eq, not_false_eq_true]; rfl)
  · subst ht
    obtain ⟨answered, same⟩ := answers (t0 := ({ s.asked dt with mode := .auto } : State).onRide fun _ r => r)
      (by simp only [changeMode, mode, hm]; rfl)
    refine ⟨answered, ?_⟩
    rw [same]
    exact ⟨rfl, ⟨rfl, rfl, rfl, rfl⟩, ⟨rfl, rfl, rfl, rfl, rfl, rfl⟩, rfl, conclude_narrow.keeps⟩
  · subst ht
    obtain ⟨answered, same⟩ := answers (t0 := ({ s.asked dt with mode := .maintenance } : State).onRide cancelDemands)
      (by simp only [changeMode, mode, hm]; rfl)
    refine ⟨answered, ?_⟩
    rw [same]
    refine ⟨rfl, ⟨rfl, rfl, rfl, rfl⟩, ⟨rfl, rfl, rfl, rfl, rfl, rfl⟩, rfl, ?_, fun st x hx => ?_⟩
    · have k := cancelDemands_changes (w := false) (o := false) (q := false) (c := ({ s.asked dt with mode := .maintenance } : State).ctx) (r := s.told)
      exact k.keeps.trans conclude_narrow.keeps
    · exact conclude_no_demand (c := ({ s.asked dt with mode := .maintenance } : State).ctx) (by simp [State.ctx])
        (fun st x h => cancelDemands_none h) st x hx
  · rcases h with ⟨hm, ht⟩ | ⟨hm, ht⟩ <;> subst ht <;>
      exact answers (t0 := s.asked dt) (by simp only [changeMode, mode, hm]; rfl)

end Sys2Proof.Machine
end

section
/-! PROOF. RIDE_STOP and RESUME (R161 to R163): which causes the reservations at the end of a step can report. -/

namespace Sys2Proof.Machine

variable {i : Instr} {s t : State} {dt : Nat} {f : Frame} {c : Ctx} {w o q : Bool} {a b e r : Ride} {z u : ZoneIx} {k : SlotIx}
  {x y : Train} {M : Prop}

/-- What opening and closing elements and reserving chains can report; SWITCH_FAULT where `M`. -/
def Reported (M : Prop) (cause : Cause) : Prop := cause = .elementFault ∨ cause = .stationProof ∨ cause = .switchFault ∧ M

/-- Every cause of `b` is one of `a`, or one that can be reported. -/
def Ride.Tells (M : Prop) (a b : Ride) : Prop := ∀ cause, b.cause? cause = true → a.cause? cause = true ∨ Reported M cause

namespace Ride.Tells

theorem refl (a : Ride) : Ride.Tells M a a := fun _ h => .inl h

theorem trans (h : Ride.Tells M a b) (k : Ride.Tells M b e) : Ride.Tells M a e := fun cause hc =>
  (k cause hc).elim (h cause) .inr

theorem within {p : Parts} (h : Ride.Within p a b) (reports : p.reports = false) : Ride.Tells M a b := fun cause hc => by
  rw [Ride.cause?, h.causes reports] at hc
  exact .inl hc

theorem raise (n : Notice) : Ride.Tells M r (r.raise n) := fun _ h => .inl h

theorem report {cause : Cause} (h : Reported M cause) : Ride.Tells M r (r.report cause) := fun cause' hc => by
  unfold Ride.report at hc
  split at hc
  · exact .inl hc
  · by_cases e : cause' = cause
    · exact .inr (e ▸ h)
    · refine .inl ?_
      have ne : cause.bit ≠ cause'.bit := fun h => e (by cases cause <;> cases cause' <;> simp_all [Cause.bit])
      simpa [Ride.cause?, withBit, BitVec.getLsbD_twoPow, ne] using hc

theorem overAll {n : Nat} {f : Fin n → Ride → Ride} (h : ∀ i r, Ride.Tells M r (f i r)) (r : Ride) : Ride.Tells M r (overAll f r) :=
  overAll_induct (fun r' => Ride.Tells M r r') f (fun i r' k => k.trans (h i r')) r (.refl r)

theorem foldl {α : Type} {f : Ride → α → Ride} (h : ∀ r x, Ride.Tells M r (f r x)) (l : List α) (r : Ride) : Ride.Tells M r (l.foldl f r) :=
  foldl_induct (fun r' => Ride.Tells M r r') f (fun r' x k => k.trans (h r' x)) l r (.refl r)

end Ride.Tells

theorem stationEvent_tells (st : StationIx) (ev : StationEvent) : Ride.Tells M r (stationEvent c st ev r) := by
  unfold stationEvent
  split
  · exact .refl r
  · next x _ =>
    have h1 : Ride.Tells M r (r.putStation st { x with state := x.state.next (c.stationProofs st) ev }) := .within (putStation_within st _) rfl
    dsimp only
    split <;> split
    · exact (h1.trans (.raise _)).trans (.report (.inr (.inl rfl)))
    · exact h1.trans (.report (.inr (.inl rfl)))
    · exact h1.trans (.raise _)
    · exact h1

theorem zoneStationEvent_tells (z : ZoneIx) (ev : StationEvent) : Ride.Tells M r (zoneStationEvent c z ev r) := by
  unfold zoneStationEvent
  split
  · exact stationEvent_tells _ ev
  · exact .refl r

theorem changeTrain_tells (k : SlotIx) (x y : Train) : Ride.Tells M r (changeTrain c k x y r) := by
  have tell : ∀ {p : Prop} [Decidable p] (z : ZoneIx) (ev : StationEvent) (r : Ride),
      Ride.Tells M r (if p then occupantStationEvent c k z ev r else r) := by
    intro p _ z ev r
    unfold occupantStationEvent
    split
    · split
      · exact zoneStationEvent_tells z ev
      · exact .refl r
    · exact .refl r
  unfold changeTrain
  exact (((Ride.Tells.within (putTrain_within k y) rfl).trans (tell _ _ _)).trans (tell _ _ _)).trans (tell _ _ _)

/-- A claim set reports SWITCH_FAULT alone, where it takes the zone of a switch that moves (R113). -/
theorem setClaim_tells (z : ZoneIx) (new : Claim) (h : ∀ v sx side due, heldSwitch c z = some v → new ≠ .clear → r.switch? v = some sx →
    sx.pos = .moving side due → M) : Ride.Tells M r (setClaim c z new r) := by
  have toStation : ∀ (old : Claim) (r : Ride), Ride.Tells M r (claimToStation c z old new r) := by
    intro old r
    unfold claimToStation
    split
    · exact zoneStationEvent_tells z _
    · exact zoneStationEvent_tells z _
    · exact .refl r
  unfold setClaim
  split
  · exact .refl r
  · next v _ =>
    refine Ride.Tells.trans ?_ (toStation _ _)
    refine Ride.Tells.trans (b := r.putZone z { v with claim := new }) (.within (putZone_within z _) rfl) ?_
    unfold claimToSwitch
    split
    · exact .refl _
    · next l hl =>
      split
      · next hc =>
        unfold switchZoneTaken
        split
        · exact .refl _
        · next sx hs =>
          split
          · exact .within (putSwitch_within l _) rfl
          · next side due hp =>
            have m : M := h l sx side due hl hc.2 hs hp
            unfold faultSwitch
            split
            · exact (((Ride.Tells.within (putSwitch_within l _) rfl)).trans (.raise _)).trans (.report (.inr (.inr ⟨rfl, m⟩)))
            · exact .refl _
          · exact .refl _
      · split
        · exact .within (switchZoneCleared_within l) rfl
        · exact .refl _

theorem returnChain_tells (k : SlotIx) : Ride.Tells M r (returnChain c k r) := by
  unfold returnChain
  split
  · exact .refl r
  · refine (Ride.Tells.within (putTrain_within k _) rfl).trans (.foldl (fun r z => ?_) _ _)
    split
    · exact setClaim_tells z .clear fun _ _ _ _ _ h => absurd rfl h
    · exact .refl r

theorem provenOpen_tells (z : ZoneIx) : Ride.Tells M r (provenOpen c z r) := by
  unfold provenOpen
  split
  · exact .refl r
  · split
    · exact .refl r
    · split
      · exact changeTrain_tells _ _ _
      · exact .refl r

theorem provenClosed_tells (z : ZoneIx) : Ride.Tells M r (provenClosed c z r) := by
  unfold provenClosed
  split
  · exact .refl r
  · split
    · exact .refl r
    · split
      · exact (returnChain_tells _).trans (zoneStationEvent_tells z _)
      · exact .refl r

theorem brakeBecomes_tells (z : ZoneIx) (st : BrakeState) (cmd : ElementCommand) : Ride.Tells M r (brakeBecomes c z st cmd r) := by
  have put : Ride.Tells M r (r.putElement z (.brake st cmd)) := .within (putElement_within z _) rfl
  unfold brakeBecomes
  dsimp only
  split
  · exact put.trans (provenOpen_tells z)
  · exact put.trans (provenClosed_tells z)
  · exact (put.trans (.raise _)).trans (.report (.inl rfl))
  · exact put

theorem driveArrives_tells (z : ZoneIx) (cmd : ElementCommand) : Ride.Tells M r (driveArrives c z cmd r) := by
  unfold driveArrives
  split
  · exact (Ride.Tells.within (putElement_within z _) rfl).trans (provenClosed_tells z)
  · exact (Ride.Tells.within (putElement_within z _) rfl).trans (provenOpen_tells z)

theorem commandElement_tells (z : ZoneIx) (cmd : ElementCommand) : Ride.Tells M r (commandElement c z cmd r) := by
  unfold commandElement
  split
  · unfold brakeCommand
    split
    · exact .within (putElement_within z _) rfl
    · exact brakeBecomes_tells z _ cmd
    · exact brakeBecomes_tells z _ cmd
    · exact brakeBecomes_tells z _ cmd
  · unfold driveCommand
    split
    · exact .refl r
    · split
      · next i _ _ _ ch d _ _ =>
        generalize (if stopsAtOnce r d cmd then (ch.restingAt 0, true) else ch.aimed (cmd.codeOn d) (dueAfter c.now d.interval)) = aim
        have h1 : Ride.Tells M r (r.putChannel i aim.1) := .within (putChannel_within i _) rfl
        dsimp only
        split
        · exact h1.trans (driveArrives_tells z cmd)
        · exact h1.trans (.within (driveInFlight_within z cmd) rfl)
      · exact .refl r
  · exact .refl r

theorem closeElement_tells (z : ZoneIx) : Ride.Tells M r (closeElement c z r) := by
  unfold closeElement
  split
  · exact .refl r
  · refine Ride.Tells.trans ?_ (commandElement_tells z _)
    unfold closeUnderTrain
    split
    · exact .refl r
    · split
      · exact .refl r
      · split
        · exact changeTrain_tells _ _ _
        · exact .refl r

theorem openElement_tells (z : ZoneIx) (creep : Bool) : Ride.Tells M r (openElement c z creep r) := by
  unfold openElement
  split
  · exact .refl r
  · exact (zoneStationEvent_tells z _).trans (commandElement_tells z _)

theorem channelStop_tells (j : ChannelIx) : Ride.Tells M r (channelStop c j r) := by
  unfold channelStop
  split
  · next ch dd _ _ =>
    generalize (if dd.profile = .immediate then (ch.restingAt 0, true) else ch.aimed 0 (dueAfter c.now dd.interval)) = aim
    have h1 : Ride.Tells M r (r.putChannel j aim.1) := .within (putChannel_within j _) rfl
    dsimp only
    split
    · exact h1
    · split
      · split
        · exact h1.trans (driveArrives_tells _ _)
        · exact h1.trans (.within (putElement_within _ _) rfl)
      · exact h1
  · exact .refl r

theorem stopRide_tells : Ride.Tells M r (r.stopRide c) :=
  ((Ride.Tells.overAll (fun z _ => closeElement_tells z) r).trans (.overAll (fun j _ => channelStop_tells j) _)).trans
    (.overAll (fun st _ => stationEvent_tells st _) _)

/-! ### What an open command can change -/

/-- What an open command changes: no claim, no switch and no presentation (R132, R133). -/
def Parts.opening : Parts := { Parts.train with elements := true, channels := true }

theorem brakeBecomes_opening (z : ZoneIx) {st : BrakeState} (cmd : ElementCommand) (hst : st ≠ .closed) :
    Ride.Within .opening r (brakeBecomes c z st cmd r) := by
  have put : Ride.Within .opening r (r.putElement z (.brake st cmd)) := (putElement_within z _).mono rfl
  unfold brakeBecomes
  dsimp only
  cases st with
  | opened => exact put.trans ((provenOpen_within z).mono rfl)
  | closed => exact absurd rfl hst
  | fault cause => exact put.trans (((raise_within _).trans (report_within _)).mono rfl)
  | opening due => exact put
  | closing due => exact put

theorem commandElement_opening (z : ZoneIx) {cmd : ElementCommand} (hc : cmd ≠ .close) :
    Ride.Within .opening r (commandElement c z cmd r) := by
  unfold commandElement
  split
  · next st _ _ =>
    unfold brakeCommand
    rcases commanded_open (st := st) (due := c.proofDue z) hc with e | e | ⟨cause, e⟩ <;> rw [e]
    · exact brakeBecomes_opening z cmd (atLevels_opening _ _ _)
    · exact brakeBecomes_opening z cmd (by simp)
    · exact (putElement_within z _).mono rfl
  · unfold driveCommand
    split
    · exact .refl r
    · split
      · next i _ _ _ ch d _ _ =>
        generalize (if stopsAtOnce r d cmd then (ch.restingAt 0, true) else ch.aimed (cmd.codeOn d) (dueAfter c.now d.interval)) = aim
        have h1 : Ride.Within .opening r (r.putChannel i aim.1) := (putChannel_within i _).mono rfl
        dsimp only
        split
        · unfold driveArrives
          split
          · exact absurd rfl hc
          · exact (h1.trans ((putElement_within z _).mono rfl)).trans ((provenOpen_within z).mono rfl)
        · exact h1.trans ((driveInFlight_within z cmd).mono rfl)
      · exact .refl r
  · exact .refl r

theorem openElement_opening (z : ZoneIx) (creep : Bool) : Ride.Within .opening r (openElement c z creep r) := by
  unfold openElement
  split
  · exact .refl r
  · next el _ =>
    refine ((zoneStationEvent_within z _).mono rfl).trans (commandElement_opening z ?_)
    cases el with
    | brake => simp
    | drive => cases creep <;> simp

/-! ### Switches that move -/

variable {g : SwitchIx → SwitchRole → Prop}

/-- Switch `l` is moving, in a role that meets `g`. -/
def Ride.Moves (g : SwitchIx → SwitchRole → Prop) (r : Ride) (l : SwitchIx) : Prop :=
  ∃ sx side due, r.switch? l = some sx ∧ sx.pos = .moving side due ∧ g l sx.role

/-- A switch that is moving. -/
abbrev anyRole : SwitchIx → SwitchRole → Prop := fun _ _ => True

/-- A role that meets `g` after a reservation met it before. -/
def Reserves (g : SwitchIx → SwitchRole → Prop) : Prop := ∀ l k lock role, g l (role.atReserve k lock) → g l role

theorem setClaim_reserved_moves {l : SwitchIx} (h : Ride.Moves g (setClaim c z (.reserved k) r) l) : r.Moves g l := by
  have toStation : ∀ (old : Claim) (r : Ride), (claimToStation c z old (.reserved k) r).switch? l = r.switch? l := fun old r =>
    (claimToStation_within z _ _).switch? rfl l
  obtain ⟨sx, side, due, hs, hp, hg⟩ := h
  unfold setClaim at hs
  split at hs
  · exact ⟨sx, side, due, hs, hp, hg⟩
  · next v _ =>
    rw [toStation] at hs
    unfold claimToSwitch at hs
    split at hs
    · exact ⟨sx, side, due, hs, hp, hg⟩
    · next l' _ =>
      split at hs
      · unfold switchZoneTaken at hs
        split at hs
        · exact ⟨sx, side, due, hs, hp, hg⟩
        · next sx' hs' =>
          by_cases e : l = l'
          · subst e
            split at hs
            · next at_ hat =>
              rw [putSwitch_same] at hs
              cases hs
              rw [hat] at hp
              cases hp
            · unfold faultSwitch at hs
              rw [hs'] at hs
              dsimp only at hs
              rw [((raise_within _).trans (report_within _)).switch? rfl l, putSwitch_same] at hs
              cases hs
              cases hp
            · exact ⟨sx, side, due, hs, hp, hg⟩
          · split at hs
            · rw [putSwitch_other _ _ _ _ e] at hs
              exact ⟨sx, side, due, hs, hp, hg⟩
            · unfold faultSwitch at hs
              split at hs
              · rw [((raise_within _).trans (report_within _)).switch? rfl l, putSwitch_other _ _ _ _ e] at hs
                exact ⟨sx, side, due, hs, hp, hg⟩
              · exact ⟨sx, side, due, hs, hp, hg⟩
            · exact ⟨sx, side, due, hs, hp, hg⟩
      · split at hs
        · next h => cases h.2
        · exact ⟨sx, side, due, hs, hp, hg⟩

theorem reservedAt_moves {l : SwitchIx} (res : Reserves g) (h : Ride.Moves g (reservedAt c k z r) l) : r.Moves g l := by
  obtain ⟨sx, side, due, hs, hp, hg⟩ := h
  unfold reservedAt at hs
  split at hs
  · exact ⟨sx, side, due, hs, hp, hg⟩
  · next l' _ =>
    split at hs
    · exact ⟨sx, side, due, hs, hp, hg⟩
    · next sx' hs' =>
      rw [(onTrain_within k _).switch? rfl l] at hs
      by_cases e : l = l'
      · subst e
        rw [putSwitch_same] at hs
        cases hs
        exact ⟨sx', side, due, hs', hp, res l k _ _ hg⟩
      · rw [putSwitch_other _ _ _ _ e] at hs
        exact ⟨sx, side, due, hs, hp, hg⟩

/-- A chain reserved sets no switch in motion. -/
theorem chainReserved_moves {chain : List ZoneIx} {l : SwitchIx} (res : Reserves g) (h : Ride.Moves g (chainReserved c k x chain r) l) :
    r.Moves g l := by
  unfold chainReserved at h
  have h1 := foldl_induct (fun r' : Ride => r'.Moves g l →
      Ride.Moves g (chain.foldl (fun r z => setClaim c z (.reserved k) r) (r.putTrain k { x with chain := chain })) l)
    (fun r z => reservedAt c k z r) (fun _ _ ih h => ih (reservedAt_moves res h)) chain _ (fun h => h) h
  exact foldl_induct (fun r' : Ride => r'.Moves g l → Ride.Moves g (r.putTrain k { x with chain := chain }) l)
    (fun r z => setClaim c z (.reserved k) r) (fun _ _ ih h => ih (setClaim_reserved_moves h)) chain _ (fun h => h) h1

/-- A chain reserved reports SWITCH_FAULT alone, where it takes the zone of a switch that moves. -/
theorem chainReserved_tells {chain : List ZoneIx} (h : ∀ z ∈ chain, ∀ l, heldSwitch c z = some l → r.Moves anyRole l → M) :
    Ride.Tells M r (chainReserved c k x chain r) := by
  unfold chainReserved
  refine Ride.Tells.trans (b := chain.foldl (fun r z => setClaim c z (.reserved k) r) (r.putTrain k { x with chain := chain })) ?_
    (.foldl (fun r z => .within (reservedAt_within k z) rfl) _ _)
  have claims : ∀ (l : List ZoneIx) (a : Ride), (∀ z ∈ l, ∀ v, heldSwitch c z = some v → a.Moves anyRole v → M) →
      Ride.Tells M a (l.foldl (fun r z => setClaim c z (.reserved k) r) a) := by
    intro l
    induction l with
    | nil => exact fun a _ => .refl a
    | cons z zs ih =>
      intro a ha
      refine Ride.Tells.trans (setClaim_tells z _ fun v sx side due hv _ hs hp => ha z (by simp) v hv ⟨sx, side, due, hs, hp, trivial⟩) (ih _ fun z' hz' v hv hm => ?_)
      exact ha z' (List.mem_cons_of_mem z hz') v hv (setClaim_reserved_moves hm)
  exact (Ride.Tells.within (putTrain_within k _) rfl).trans (claims chain _ h)

theorem reserveChain_tells {chain : List ZoneIx} (creep : Bool) (hx : r.train? k = some x)
    (h : ∀ z ∈ chain, ∀ l, heldSwitch c z = some l → r.Moves anyRole l → M) : Ride.Tells M r (reserveChain c k chain creep r) := by
  rw [reserveChain_eq hx]
  exact ((chainReserved_tells h).trans (.within (putPresented_within k none) rfl)).trans (openElement_tells _ creep)

theorem reserveChain_moves {chain : List ZoneIx} (creep : Bool) (hx : r.train? k = some x) {l : SwitchIx} (res : Reserves g)
    (h : Ride.Moves g (reserveChain c k chain creep r) l) : r.Moves g l := by
  rw [reserveChain_eq hx] at h
  obtain ⟨sx, side, due, hs, hp, hg⟩ := h
  rw [(openElement_opening x.head creep).switch? rfl l, (putPresented_within k none).switch? rfl l] at hs
  exact chainReserved_moves res ⟨sx, side, due, hs, hp, hg⟩

end Sys2Proof.Machine
end

section
/-! PROOF. The reservations after a RESUME (R163), and RIDE_STOP (R162). -/

namespace Sys2Proof.Machine

variable {i : Instr} {s t : State} {dt : Nat} {f : Frame} {c : Ctx} {w o q : Bool} {a b e r : Ride} {z u : ZoneIx} {k : SlotIx}
  {x y : Train} {M : Prop} {l v : SwitchIx}

/-! ### A switch that moves with its zone to be had -/

/-- A role in which a moving switch's zone can be reserved: no descriptor, or a merge GRANTED (R31). -/
def Ctx.Risky (c : Ctx) (l : SwitchIx) (role : SwitchRole) : Prop :=
  c.map.switch l = none ∨ (∃ d, c.map.switch l = some d ∧ d.kind = .merge) ∧
    ∃ reqA reqB side u served, role = .merge reqA reqB (.granted side u) served

theorem risky_reserves (c : Ctx) : Reserves c.Risky := by
  intro l k lock role h
  refine h.imp_right fun ⟨d, hd⟩ => ⟨d, ?_⟩
  obtain ⟨reqA, reqB, side, u, served, e⟩ := hd
  cases role with
  | diverge setting last => cases e
  | merge reqA' reqB' arb served' =>
    cases arb with
    | granted side' u' => exact ⟨_, _, _, _, _, rfl⟩
    | idle => cases e
    | aligning side' => cases e
    | inUse side' => cases e

/-- A switch record replaced: the switch is at risk after it only where it was before. -/
theorem risky_putSwitch {sx sx' : SwitchRec} (hs : r.switch? v = some sx)
    (same : ∀ side due, sx'.pos = .moving side due → c.Risky v sx'.role → (∃ side due, sx.pos = .moving side due) ∧ c.Risky v sx.role)
    (h : Ride.Moves c.Risky (r.putSwitch v sx') l) : r.Moves c.Risky l := by
  obtain ⟨sy, side, due, hy, hp, hr⟩ := h
  by_cases e : l = v
  · subst e
    rw [putSwitch_same] at hy
    cases hy
    obtain ⟨⟨side', due', hm⟩, hr'⟩ := same side due hp hr
    exact ⟨sx, side', due', hs, hm, hr'⟩
  · rw [putSwitch_other _ _ _ _ e] at hy
    exact ⟨sy, side, due, hy, hp, hr⟩

theorem Ride.Moves.congr {g : SwitchIx → SwitchRole → Prop} (h : b.Moves g l) (same : b.switch? l = a.switch? l) : a.Moves g l := by
  obtain ⟨sx, side, due, hs, k⟩ := h
  exact ⟨sx, side, due, same ▸ hs, k⟩

theorem withdrawSwitches_risky (h : Ride.Moves c.Risky (withdrawSwitches k r) l) : r.Moves c.Risky l := by
  obtain ⟨sy, side, due, hy, hp, hr⟩ := h
  rw [withdrawSwitches_switch] at hy
  obtain ⟨sx, hs, rfl⟩ := Option.map_eq_some_iff.mp hy
  refine ⟨sx, side, due, hs, hp, hr.imp_right fun ⟨d, reqA, reqB, side, u, served, hrole⟩ => ⟨d, ?_⟩⟩
  have hrole : sx.role.without k = .merge reqA reqB (.granted side u) served := hrole
  cases hx : sx.role with
  | diverge setting last => rw [hx] at hrole; cases hrole
  | merge reqA' reqB' arb served' =>
    cases arb with
    | granted side' u' => exact ⟨_, _, _, _, _, rfl⟩
    | idle => rw [hx] at hrole; cases hrole
    | aligning side' => rw [hx] at hrole; cases hrole
    | inUse side' => rw [hx] at hrole; cases hrole

/-- A request moves a switch whose role makes it no risk. -/
theorem requestMove_risky {sx : SwitchRec} {toward : Side} {src : MoveSource} (hs : r.switch? v = some sx) (safe : ¬c.Risky v sx.role)
    (h : Ride.Moves c.Risky (requestMove c v toward src r) l) : r.Moves c.Risky l := by
  simp only [requestMove, hs] at h
  exact risky_putSwitch hs (fun _ _ _ hr => absurd (by simpa using hr) safe) h

theorem present_risky {chain : List ZoneIx} (h : Ride.Moves c.Risky (present c k x chain r) l) : r.Moves c.Risky l := by
  unfold present at h
  split at h
  · exact h
  · split at h
    · split at h
      · unfold routeFor at h
        split at h
        · next sx d hs hd =>
          split at h
          · next setting last hrole =>
            have safe : ∀ p, ¬c.Risky _ (SwitchRole.diverge p last) := fun p hr => by
              rcases hr with hr | ⟨-, _, _, _, _, _, hr⟩
              · rw [hd] at hr; cases hr
              · cases hr
            exact risky_putSwitch hs (fun _ _ _ hr => absurd hr (safe _)) (requestMove_risky (putSwitch_same _ _ _) (safe _) h)
          · exact h
        · exact h
      · exact h
    · split at h
      · unfold addRequest at h
        split at h
        · next sx hs =>
          split at h
          · next hrole _ =>
            refine risky_putSwitch hs ?_ h
            refine fun side due hp hr => ⟨⟨side, due, hp⟩, ?_⟩
            exact hr.imp_right fun ⟨d, _, _, _, _, _, e⟩ => ⟨d, by cases e; exact ⟨_, _, _, _, _, hrole⟩⟩
          · next hrole _ =>
            refine risky_putSwitch hs ?_ h
            refine fun side due hp hr => ⟨⟨side, due, hp⟩, ?_⟩
            exact hr.imp_right fun ⟨d, _, _, _, _, _, e⟩ => ⟨d, by cases e; exact ⟨_, _, _, _, _, hrole⟩⟩
          · exact h
        · exact h
      · exact h
    · exact h

theorem arbitrate_risky (h : Ride.Moves c.Risky (arbitrate c v r) l) : r.Moves c.Risky l := by
  unfold arbitrate at h
  split at h
  · next hs =>
    split at h
    · next hc =>
      split at h
      · exact h
      · dsimp only at h
        split at h
        · next hp => exact risky_putSwitch hs (fun _ _ e _ => by rw [hp] at e; cases e) h
        · have described : c.map.switch v ≠ none := fun e => by
            simp [switchZoneClear, e] at hc
          have safe : ∀ reqA reqB side served, ¬c.Risky v (SwitchRole.merge reqA reqB (.aligning side) served) := fun _ _ _ _ hr => by
            rcases hr with hr | ⟨-, _, _, _, _, _, hr⟩
            · exact described hr
            · cases hr
          exact risky_putSwitch hs (fun _ _ _ hr => absurd hr (safe _ _ _ _)) (requestMove_risky (putSwitch_same _ _ _) (safe _ _ _ _) h)
    · exact h
  · exact h

theorem reconsiderTrain_risky (h : Ride.Moves c.Risky (reconsiderTrain c k r) l) : r.Moves c.Risky l := by
  unfold reconsiderTrain at h
  split at h
  · exact h
  · next x _ =>
    generalize (if eligible c r x then prospectiveChain c r x else none) = wanted at h
    dsimp only at h
    split at h
    · exact h
    · have base (h : Ride.Moves c.Risky ((if (r.presented? k).isSome then withdrawSwitches k r else r).putPresented k wanted) l) :
          r.Moves c.Risky l := by
        have h := h.congr (a := if (r.presented? k).isSome then withdrawSwitches k r else r) rfl
        split at h
        · exact withdrawSwitches_risky h
        · exact h
      split at h
      · exact base (present_risky h)
      · exact base h

/-! ### A chain that is reserved -/

theorem chainAvailable_mem {before : ZoneIx} {chain : List ZoneIx} (h : chainAvailable c r k false before chain = true) (hz : z ∈ chain) :
    ∃ before, zoneAvailable c r k false before z = true := by
  induction chain generalizing before with
  | nil => cases hz
  | cons u us ih =>
    rw [chainAvailable, Bool.and_eq_true] at h
    rcases List.mem_cons.mp hz with rfl | hz
    · exact ⟨before, h.1⟩
    · exact ih h.2 hz

/-- The switch of an available zone that moves is at risk: at a diverge it would be locked, at a merge GRANTED (R31). -/
theorem zoneAvailable_risky {before : ZoneIx} (h : zoneAvailable c r k false before z = true) (hl : heldSwitch c z = some l)
    (moves : r.Moves anyRole l) : r.Moves c.Risky l := by
  obtain ⟨sx, side, due, hs, hp, -⟩ := moves
  refine ⟨sx, side, due, hs, hp, ?_⟩
  have hz : (c.map.zone z).bind (·.switch) = some l := hl
  simp only [zoneAvailable, Bool.and_eq_true] at h
  obtain ⟨⟨-, diverge⟩, merge⟩ := h
  cases hd : c.map.switch l with
  | none => exact .inl hd
  | some d =>
    have at_ : c.map.switchAt z = some (l, d) := by simp [CircuitMap.switchAt, hz, hd]
    cases hk : d.kind with
    | diverge mode =>
      exfalso
      have e : c.map.divergeAt z = some l := by
        unfold CircuitMap.divergeAt
        rw [at_]
        cases d
        cases hk
        rfl
      simp [divergeAvailable, e, hs] at diverge
      split at diverge
      · next h => cases h; cases hp
      · cases diverge
    | merge =>
      have e : c.map.mergeAt z = some l := by
        unfold CircuitMap.mergeAt
        rw [at_]
        cases d
        cases hk
        rfl
      refine .inr ⟨⟨d, hd, hk⟩, ?_⟩
      simp only [mergeAvailable, e, hs] at merge
      split at merge
      · next h _ => cases h; exact ⟨_, _, _, _, _, rfl⟩
      · simp at merge
      · cases merge

/-- What the end of a step that is not stopped tells: with no switch at risk but where `M`, no SWITCH_FAULT but where `M`. -/
theorem reconsider_tells (h : ∀ l, r.Moves c.Risky l → M) : Ride.Tells M r (reconsider c r) := by
  have presented := overAll_induct (fun r' : Ride => ∀ l, r'.Moves c.Risky l → M) (fun (w : SwitchIx) r => arbitrate c w r)
    (fun v r' ih l hm => ih l (arbitrate_risky hm)) _
    (overAll_induct (fun r' : Ride => ∀ l, r'.Moves c.Risky l → M) (fun (t : SlotIx) r => reconsiderTrain c t r)
      (fun t r' ih l hm => ih l (reconsiderTrain_risky hm)) r h)
  refine (Ride.Tells.within (presentations_within (c := c) r) rfl).trans ?_
  unfold reconsider
  refine (overAll_induct (fun r' => Ride.Tells M _ r' ∧ ∀ l, r'.Moves c.Risky l → M) (fun (t : SlotIx) r => reserveIfAvailable c t r)
    (fun t r' ih => ?_) _ ⟨.refl _, presented⟩).1
  unfold reserveIfAvailable
  split
  · next x chain hx _ =>
    split
    · next he =>
      rw [Bool.and_eq_true] at he
      refine ⟨ih.1.trans (reserveChain_tells false hx fun z hz l hl hm => ?_), fun l hm => ih.2 l (reserveChain_moves false hx (risky_reserves c) hm)⟩
      obtain ⟨before, available⟩ := chainAvailable_mem he.2 hz
      exact ih.2 l (zoneAvailable_risky available hl hm)
    · exact ih
  · exact ih

/-- What the end of a step tells where the ride was stopped, and its causes have been taken (R163). -/
theorem conclude_tells {before after : Ride} (stopped : before.latched = true) (h : ∀ l, after.Moves c.Risky l → M) :
    Ride.Tells M after (conclude c before after) := by
  have first := reconsider_tells h
  unfold conclude
  dsimp only
  rw [tellLatched_same (.inl stopped)]
  split
  · next hl =>
    rw [Bool.and_eq_true] at hl
    have latched : ((reconsider c after).stopRide c).latched = true := (stopRide_changes (w := true) (o := true) (q := true)).latched hl.2
    exact (first.trans stopRide_tells).trans (.within (reconsider_calm (.inr latched)) rfl)
  · exact first

/-- With no train on the table nothing is reserved. -/
theorem reconsider_alone (h : ∀ k, r.train? k = none) : Ride.Within { presented := true, switches := true } r (reconsider c r) := by
  have presented := presentations_within (c := c) r
  refine (overAll_induct (fun r' => Ride.Within { presented := true, switches := true } r r') (fun (t : SlotIx) r => reserveIfAvailable c t r)
    (fun t r' ih => ?_) _ presented)
  have none : r'.train? t = none := (ih.train? rfl t).trans (h t)
  have same : reserveIfAvailable c t r' = r' := by simp [reserveIfAvailable, none]
  rw [same]
  exact ih

theorem latched_of_cause {cause : Cause} (h : r.cause? cause = true) : r.latched = true := by
  rw [Ride.latched, bne_iff_ne]
  intro e
  simp [Ride.cause?, e] at h

/-! ### RESUME -/

theorem asked_resumeBarred (s : State) (dt : Nat) : (s.asked dt).resumeBarred = s.resumeBarred := by
  unfold State.asked State.told
  split <;> rfl

theorem told_latched (s : State) : s.told.latched = s.ride.latched := by
  unfold State.told
  split <;> rfl

theorem resumeRule_done (hm : s.mode ≠ .config) (hl : s.ride.latched = true) (hb : s.resumeBarred = false) :
    resumeRule (s.asked dt) = (.done, (s.asked dt).onRide fun _ r => { r with causes := 0#11 }) := by
  have hm' : (s.asked dt).mode ≠ .config := hm
  have hl' : (s.asked dt).ride.latched = true := (told_latched s).trans hl
  simp [resumeRule, hm', hl', asked_resumeBarred, hb]

theorem resumeRule_clear (hm : s.mode ≠ .config) (hl : s.ride.latched = false) : resumeRule (s.asked dt) = (.done, s.asked dt) := by
  have hm' : (s.asked dt).mode ≠ .config := hm
  have hl' : (s.asked dt).ride.latched = false := (told_latched s).trans hl
  simp [resumeRule, hm', hl']

theorem resumeRule_barred (hm : s.mode ≠ .config) (hl : s.ride.latched = true) (hb : s.resumeBarred = true) :
    resumeRule (s.asked dt) = (.conflict, s.asked dt) := by
  have hm' : (s.asked dt).mode ≠ .config := hm
  have hl' : (s.asked dt).ride.latched = true := (told_latched s).trans hl
  simp [resumeRule, hm', hl', asked_resumeBarred, hb, State.refuse]

theorem finRange_any {n : Nat} {p : Fin n → Bool} {j : Fin n} (h : p j = true) : (List.finRange n).any p = true :=
  List.any_eq_true.mpr ⟨j, List.mem_finRange j, h⟩

/-- The conditions of R161 bar a RESUME. -/
theorem resumeBarred_of (h : s.ctx.estopActive = true ∨ (∃ z, s.ride.zoneFault z ≠ none) ∨
      (∃ b x cause, tget s.bounds b = some x ∧ x.passage = .fault cause) ∨
      (∃ z cause cmd, s.ride.element? z = some (.brake (.fault cause) cmd)) ∨
      (∃ w x cause, s.ride.switch? w = some x ∧ x.pos = .fault cause) ∨
      (∃ k x, s.ride.train? k = some x ∧ x.phase = .lost) ∨
      s.sensors.phase ≠ .running ∨ s.inputs.phase ≠ .running) : s.resumeBarred = true := by
  unfold State.resumeBarred
  simp only [Bool.or_eq_true]
  rcases h with h | ⟨z, h⟩ | ⟨b, x, cause, h, hp⟩ | ⟨z, cause, cmd, h⟩ | ⟨w, x, cause, h, hp⟩ | ⟨k, x, h, hp⟩ | h | h
  · exact .inl (.inl (.inl (.inl (.inl (.inl h)))))
  · refine .inl (.inl (.inl (.inl (.inl (.inr (finRange_any (j := z) ?_))))))
    cases hz : s.ride.zone? z with
    | none => simp [Ride.zoneFault, hz] at h
    | some v => simpa [Ride.zoneFault, hz, Option.isSome_iff_ne_none] using h
  · exact .inl (.inl (.inl (.inl (.inr (finRange_any (j := b) (by simp [State.boundaryFaulted?, h, BoundaryRec.faulted, hp]))))))
  · exact .inl (.inl (.inl (.inr (finRange_any (j := z) (by simp [Ride.elementFaulted, h])))))
  · exact .inl (.inl (.inr (finRange_any (j := w) (by simp [Ride.switchFaulted, h, hp, SwitchPos.faulted]))))
  · exact .inl (.inr (finRange_any (j := k) (by simp [h, hp])))
  · exact .inr (by simp [State.levelsAwaited, h])
  · exact .inr (by simp [State.levelsAwaited, h])

/-- Settles O35. -/
theorem stopAndResume : Obligations.StopAndResume := by
  refine ⟨fun s dt f hs => ⟨_, rfl, ?_⟩, fun s dt f hs hm hl hb => ⟨_, rfl, ?_⟩, fun s dt f hs hm hl => ⟨_, rfl, ?_⟩,
    fun s dt f hs hm hl hb => ⟨_, rfl, ?_⟩⟩
  · have h : s.Did dt (fun _ r => r.report .link) _ := ordinary_did hs (own := rideStopRule) rfl
    have cause := h.keeps.causes .link (report_cause _ _)
    exact ⟨h.only, h.closed, h.answered, cause, latched_of_cause cause,
      (report_changes (w := false) (o := false) (q := false) .link).keeps.trans h.keeps⟩
  · have h : s.Did dt (fun _ r => { r with causes := 0#11 }) _ := ordinary_did hs (own := resumeRule) (resumeRule_done hm hl hb)
    have stopped : s.told.latched = true := (told_latched s).trans hl
    have none : ∀ cause, ({ s.told with causes := 0#11 } : Ride).cause? cause ≠ true := fun cause e => by simp [Ride.cause?] at e
    refine ⟨h.only, h.closed, h.answered, h.keeps, fun mode => ?_, fun cause hc => ?_, fun alone => ?_⟩
    · have calm := conclude_calm (c := (s.asked dt).ctx) (before := s.told) (after := { s.told with causes := 0#11 })
        (.inl (by rw [show (s.asked dt).ctx.mode = s.mode from rfl, mode]; simp))
      rw [h.ride, calm.latched rfl, tellLatched_same (.inl stopped)]
      rfl
    · rw [h.ride] at hc
      have tells := conclude_tells (c := (s.asked dt).ctx) (M := ∃ w x side due, s.ride.switch? w = some x ∧ x.pos = .moving side due)
        (after := { s.told with causes := 0#11 }) stopped fun l ⟨sx, side, due, hs, hp, _⟩ =>
          ⟨l, sx, side, due, ((told_within s).switch? rfl l).symm.trans hs, hp⟩
      exact (tells cause hc).resolve_left (none cause)
    · have trains : ∀ k, ({ s.told with causes := 0#11 } : Ride).train? k = Option.none := fun k =>
        ((told_within s).train? rfl k).trans (alone k)
      have same := reconsider_alone (c := (s.asked dt).ctx) trains
      have clear : (reconsider (s.asked dt).ctx { s.told with causes := 0#11 }).latched = false := (same.latched rfl).trans rfl
      rw [h.ride]
      unfold conclude
      dsimp only
      rw [tellLatched_same (.inl stopped), clear]
      simpa using clear
  · exact ordinary_answers hs (resumeRule_clear hm hl)
  · exact ordinary_answers hs (resumeRule_barred hm hl (resumeBarred_of hb))

end Sys2Proof.Machine
end

section
/-! PROOF. ADMIT and RETIRE (R50, R72, R73). -/

namespace Sys2Proof.Machine

variable {i : Instr} {s t : State} {dt : Nat} {f : Frame} {c : Ctx} {w o q p : Bool} {a b r : Ride} {z u : ZoneIx} {k : SlotIx}
  {x y : Train} {d : ZoneDesc}

/-! ### What the closes and reports that end a step outside AUTO leave -/

/-- Closes and reports leave a claim as it is, or return it with a chain. -/
theorem Ride.Led.claim_or_clear (h : Ride.Led c p noChain a b) (z : ZoneIx) : b.claim? z = a.claim? z ∨ b.claim? z = some .clear :=
  h.induct (fun r => r.claim? z = a.claim? z ∨ r.claim? z = some .clear) (fun a' b' n ih => by
    cases n with
    | within k zones trains => rwa [k.claim? zones]
    | train t x y hx how chain => exact ih
    | returned t x hx rest =>
      rw [returnChain_claim? hx]
      split
      · exact .inr rfl
      · exact ih
    | reserved t x chain hx named => exact named.elim) (.inl rfl)

/-- A record that neither runs nor holds a chain is left as it is where nothing is released. -/
theorem Train.Led.resting (h : Train.Led c false noChain x y) (phase : x.phase ≠ .running) (chain : x.chain = []) : y = x := by
  induction h with
  | refl => rfl
  | tail _ k ih =>
    subst ih
    cases k with
    | returned rest => rw [← chain]
    | stopped running => exact absurd running phase
    | released may => cases may
    | reserved chain named => exact named.elim
    | directed may => exact may.elim fun _ => False.elim

theorem Ride.Led.resting (h : Ride.Led c false noChain a b) (hx : a.train? k = some x) (phase : x.phase ≠ .running) (chain : x.chain = []) :
    b.train? k = some x := by
  obtain ⟨y, hy, led⟩ := (h.carries k).2 x hx
  rw [hy, led.resting phase chain]

/-- Neither a record nor a presentation appears in a slot that holds neither. -/
theorem Change.absent (h : Change w o q a b) (k : SlotIx) (absent : a.train? k = none ∧ a.presented? k = none) :
    b.train? k = none ∧ b.presented? k = none := by
  obtain ⟨ht, hp⟩ := absent
  cases h with
  | train t x y hx =>
    have apart : k ≠ t := fun e => by rw [e, hx] at ht; cases ht
    exact ⟨(tget_tput_other _ _ _ _ apart).trans ht, hp⟩
  | presented t p short held =>
    refine ⟨ht, ?_⟩
    by_cases e : k = t
    · subst e
      rw [show (a.putPresented k p).presented? k = p from tget_tput_same ..]
      cases p with
      | none => rfl
      | some chain => rw [ht] at held; exact absurd (held rfl) (by simp)
    · exact (tget_tput_other _ _ _ _ e).trans hp
  | report cause =>
    have same := report_within (r := a) cause
    exact ⟨(same.train? rfl k).trans ht, (same.presented? rfl k).trans hp⟩
  | _ => exact ⟨ht, hp⟩

theorem Changes.absent (h : Changes w o q a b) (k : SlotIx) (absent : a.train? k = none ∧ a.presented? k = none) :
    b.train? k = none ∧ b.presented? k = none := by
  induction h with
  | refl => exact absent
  | tail _ one ih => exact one.absent k ih

/-- Outside AUTO an output that is off stays off to the end of the step. -/
theorem conclude_calm_off {before after : Ride} (calm : c.calm after) (h : after.OutputOff z) : (conclude c before after).OutputOff z := by
  refine Ride.OutputOff.congr ?_ ((conclude_calm calm).element? rfl z)
  unfold tellLatched
  split
  · exact stopRide_shut z
  · exact h

/-! ### ADMIT -/

theorem asked_canAdmit (s : State) (dt : Nat) (z : ZoneIx) (d : ZoneDesc) : (s.asked dt).canAdmit z d = s.canAdmit z d := by
  unfold State.asked State.told
  split <;> rfl

theorem told_labelUsed (s : State) (label : Nat) : s.told.labelUsed label = s.ride.labelUsed label := by
  unfold State.told
  split <;> rfl

theorem told_freeIx (s : State) : s.told.freeIx = s.ride.freeIx := by
  unfold State.told
  split <;> rfl

/-- The rule of ADMIT where no condition of R72 fails. -/
theorem admitRule_done (mode : s.mode = .maintenance) (lo : 1 ≤ f.arg.toNat) (hi : f.arg.toNat ≤ 255)
    (named : s.map.zoneNamed f.obj.toNat = some (z, d)) (fresh : s.ride.labelUsed f.arg.toNat = false)
    (room : s.ride.trainCount < s.map.admissionLimit) (free : s.ride.freeIx = some k) (can : s.canAdmit z d = true) :
    admitRule f (s.asked dt) = (.done, (s.asked dt).onRide fun c r => admitAt c k z f.arg.toNat r) := by
  have mode' : (s.asked dt).mode = .maintenance := mode
  have named' : (s.asked dt).map.zoneNamed (objectOf f) = some (z, d) := named
  have fresh' : (s.asked dt).ride.labelUsed f.arg.toNat = false := (told_labelUsed s _).trans fresh
  have room' : ¬(s.asked dt).map.admissionLimit ≤ (s.asked dt).ride.trainCount := by
    rw [show (s.asked dt).ride.trainCount = s.ride.trainCount from told_trainCount s]
    exact Nat.not_le.mpr room
  have free' : (s.asked dt).ride.freeIx = some k := (told_freeIx s).trans free
  have arg : ¬(argumentOf f < 1 ∨ 255 < argumentOf f) := by
    unfold argumentOf
    omega
  have can' : (s.asked dt).canAdmit z d = true := (asked_canAdmit s dt z d).trans can
  unfold admitRule
  rw [if_neg (by simp [mode']), if_neg arg, named']
  simp [fresh', room', free', can', argumentOf]

/-- An admitted train stands in its zone as R72 says. -/
theorem admitAt_claim (label : Nat) (hz : (r.claim? z).isSome = true) : (admitAt c k z label r).claim? z = some (.occupied k) := by
  obtain ⟨old, hz⟩ := Option.isSome_iff_exists.mp hz
  have set : (setClaim c z (.occupied k) (r.putTrain k (admittedTrain (c.map.isSpur z) z label))).claim? z = some (.occupied k) :=
    setClaim_self (r := r.putTrain k (admittedTrain (c.map.isSpur z) z label)) hz _
  unfold admitAt
  dsimp only
  split
  · exact set
  · exact ((zoneStationEvent_within z _).claim? rfl z).trans set

theorem admit_done (h : s.Did dt (fun c r => admitAt c k z f.arg.toNat r) t) (mode : s.mode = .maintenance)
    (clear : s.ride.claim? z = some .clear) :
    (s.told.putTrain k (admittedTrain (s.map.isSpur z) z f.arg.toNat)).Keeps t.ride ∧
      t.ride.train? k = some (admittedTrain (s.map.isSpur z) z f.arg.toNat) ∧ t.ride.claim? z = some (.occupied k) := by
  have calm : (s.asked dt).ctx.calm (admitAt (s.asked dt).ctx k z f.arg.toNat s.told) :=
    .inl (by rw [show (s.asked dt).ctx.mode = s.mode from rfl, mode]; simp)
  have led := conclude_led_calm (before := s.told) calm
  have claim := admitAt_claim (c := (s.asked dt).ctx) (r := s.told) (k := k) f.arg.toNat (z := z)
    (by rw [(told_within s).claim? rfl, clear]; rfl)
  refine ⟨(admitAt_changes (c := (s.asked dt).ctx) f.arg.toNat).keeps.trans h.keeps, ?_, ?_⟩
  · rw [h.ride]
    refine led.resting ((admitAt_train? f.arg.toNat k).trans (tget_tput_same ..)) ?_ rfl
    unfold admittedTrain
    dsimp only
    split <;> simp
  · rw [h.ride]
    exact led.claim_kept rfl claim

/-! ### RETIRE -/

theorem told_trainNamed (s : State) (n : Nat) : s.told.trainNamed n = s.ride.trainNamed n := by
  unfold State.told
  split <;> rfl

theorem retireRule_done (mode : s.mode = .maintenance) (named : s.ride.trainNamed f.obj.toNat = some (k, x))
    (may : x.phase.retirable = true) : retireRule f (s.asked dt) = (.done, (s.asked dt).onRide fun c r => retireTrain c k r) := by
  have mode' : (s.asked dt).mode = .maintenance := mode
  have named' : (s.asked dt).ride.trainNamed (objectOf f) = some (k, x) := (told_trainNamed s _).trans named
  simp [retireRule, mode', named', may]

/-- A RETIRE returns what is held for the train, frees its slot, and closes the zones it occupied (R50, R73). -/
theorem retireTrain_parts (c : Ctx) (k : SlotIx) (r : Ride) : ∃ before : Ride, Ride.Within { Parts.claim with presented := true } r before ∧
    before.presented? k = none ∧ (∀ z, before.claim? z = (r.claim? z).map fun cl => if cl.holder = some k then .clear else cl) ∧
    retireTrain c k r = closeWhere c (fun z => r.occupant? z == some k) (before.freeSlot k) := by
  refine ⟨withdrawSwitches k ((clearZonesOf c k r).putPresented k none), ?_, retire_absent k, fun z => ?_, ?_⟩
  · exact (((clearZonesOf_within k).mono rfl).trans ((putPresented_within k none).mono rfl)).trans ((withdrawSwitches_within k).mono rfl)
  · have kept := (withdrawSwitches_within k (r := (clearZonesOf c k r).putPresented k none)).claim? rfl z
    have put := (putPresented_within k none (r := clearZonesOf c k r)).claim? rfl z
    exact (kept.trans put).trans (clearZonesOf_claim? k z)
  · unfold retireTrain
    rfl

theorem freeSlot_train? (k : SlotIx) (r : Ride) : (r.freeSlot k).train? k = none := tget_tput_same ..

theorem freeSlot_grows (k : SlotIx) (r : Ride) : r.grows (r.freeSlot k) := ⟨fun _ h => h, fun _ h => h⟩

theorem freeSlot_standing (h : b.trains = a.trains) (k l : SlotIx) : (b.freeSlot k).standing l = (a.freeSlot k).standing l := by
  unfold Ride.standing Ride.train? Ride.freeSlot
  rw [h]

/-- A RETIRE changes holds, faults and the other trains' places as freeing the slot does (R73). -/
theorem retireTrain_near : (r.freeSlot k).Near (retireTrain c k r) := by
  have zones : (r.freeSlot k).SameZones (retireTrain c k r) := fun z => retireTrain_sameZones (c := c) (r := r) (k := k) z
  have before := (retire_before (c := c) (r := r) k).grows
  have after := (retire_after (c := c) (r := r) k).grows
  refine ⟨zones, fun l => ?_, (before.trans (freeSlot_grows k _)).trans after⟩
  obtain ⟨before, within, -, -, e⟩ := retireTrain_parts c k r
  rw [e]
  exact ((closeWhere_changes (w := false) (o := false) (q := false) _).keeps.trains l).trans (freeSlot_standing (within.trains rfl) k l)

theorem retireTrain_absent : (retireTrain c k r).train? k = none ∧ (retireTrain c k r).presented? k = none := by
  obtain ⟨before, -, absent, -, e⟩ := retireTrain_parts c k r
  rw [e]
  exact (closeWhere_changes (w := false) (o := false) (q := false) _).absent k ⟨freeSlot_train? k before, absent⟩

/-- A RETIRE leaves no claim of the train (R73). -/
theorem retireTrain_claim (z : ZoneIx) : ((retireTrain c k r).claim? z).bind (·.holder) ≠ some k := by
  obtain ⟨before, -, -, claims, e⟩ := retireTrain_parts c k r
  rw [e]
  rcases (closeWhere_led (c := c) (p := false) (r := before.freeSlot k) _).claim_or_clear z with e | e
  · rw [e, show (before.freeSlot k).claim? z = before.claim? z from rfl, claims]
    cases r.claim? z with
    | none => simp
    | some cl =>
      rw [Option.map_some, Option.bind_some]
      split
      · simp [Claim.holder]
      · next h => exact h
  · rw [e]
    simp [Claim.holder]

theorem retireTrain_off (h : r.occupant? z = some k) : (retireTrain c k r).OutputOff z := by
  obtain ⟨before, -, -, -, e⟩ := retireTrain_parts c k r
  rw [e]
  exact closeWhere_off (by rw [h]; exact beq_self_eq_true _)

/-- Settles O36. -/
theorem admitAndRetire : Obligations.AdmitAndRetire := by
  refine ⟨fun s dt f z d k hs mode lo hi named fresh room free can => ⟨_, rfl, ?_⟩, fun s dt f k x hs mode named phase => ⟨_, rfl, ?_⟩⟩
  · have h : s.Did dt (fun c r => admitAt c k z f.arg.toNat r) _ :=
      ordinary_did hs (own := admitRule f) (admitRule_done mode lo hi named fresh room free can)
    exact ⟨h.only, h.closed, h.answered, admit_done h mode (canAdmit_clear can)⟩
  · have may : x.phase.retirable = true := by rcases phase with e | e | e | e <;> rw [e] <;> rfl
    have h : s.Did dt (retireTrain · k) _ := ordinary_did hs (own := retireRule f) (retireRule_done mode named may)
    have calm : (s.asked dt).ctx.calm (retireTrain (s.asked dt).ctx k s.told) :=
      .inl (by rw [show (s.asked dt).ctx.mode = s.mode from rfl, mode]; simp)
    have led := conclude_led_calm (before := s.told) calm
    have absent := (conclude_narrow (c := (s.asked dt).ctx) (before := s.told)).absent k (retireTrain_absent (c := (s.asked dt).ctx) (r := s.told) (k := k))
    refine ⟨h.only, h.closed, h.answered, retireTrain_near.keeps.trans h.keeps, h.ride ▸ absent.1, h.ride ▸ absent.2, fun z => ?_,
      fun z occupied => elementOutput_off ?_⟩
    · rw [h.ride]
      rcases led.claim_or_clear z with e | e
      · rw [e]
        exact retireTrain_claim z
      · rw [e]
        simp [Claim.holder]
    · rw [h.ride]
      exact conclude_calm_off calm (retireTrain_off (((told_within s).occupant? rfl z).trans occupied))

end Sys2Proof.Machine
end

section
/-! PROOF. STEP and DIRECT (R30, R31, R33, R35, R74, R76, R133). -/

namespace Sys2Proof.Machine

variable {i : Instr} {s t : State} {dt : Nat} {f : Frame} {c : Ctx} {w o q p : Bool} {a b r : Ride} {z u : ZoneIx} {k : SlotIx}
  {x y : Train} {chain : List ZoneIx}

/-! ### When a chain can be had -/

/-- A train and its zone are ready in the sense of R29 that AUTO and STEP share. -/
theorem readyToReserve_iff : readyToReserve c r x = true ↔
    r.latched = false ∧ (x.phase = .entering ∨ x.phase = .running ∨ x.phase = .stopping ∨ x.phase = .held) ∧
    c.map.isSpur x.head = false ∧ c.map.isStopping x.head = true ∧
    (∃ zr, r.zone? x.head = some zr ∧ zr.holds = 0#4 ∧ zr.fault = none) ∧
    (∀ cause cmd, r.element? x.head ≠ some (.brake (.fault cause) cmd)) ∧ x.chain = [] := by
  have zone : ((r.zone? x.head).any fun zr => zr.holds == 0#4 && zr.fault == none) = true ↔
      ∃ zr, r.zone? x.head = some zr ∧ zr.holds = 0#4 ∧ zr.fault = none := by
    cases r.zone? x.head <;> simp
  have element : r.elementFaulted x.head = false ↔ ∀ cause cmd, r.element? x.head ≠ some (.brake (.fault cause) cmd) := by
    unfold Ride.elementFaulted
    split
    · next cause cmd e => simp [e]
    · next h => simpa using fun cause cmd e => h cause cmd e
  simp only [readyToReserve, Bool.and_eq_true, Bool.or_eq_true, Bool.not_eq_true', beq_iff_eq, zone, element, List.isEmpty_iff]
  tauto

theorem stationMeets_iff {P : StationIx → Bool} (stopping : c.map.isStopping z = true) : stationMeets c z P = true ↔
    ∀ d, c.map.zone z = some d → d.kind = .station → ∃ st, d.station = some st ∧ P st = true := by
  unfold CircuitMap.isStopping at stopping
  unfold stationMeets
  cases hd : c.map.zone z with
  | none => simp [hd] at stopping
  | some d =>
    by_cases hk : d.kind = .station
    · cases hs : d.station <;> simp [hk, hs]
    · simp [hk]

theorem stationProofs_iff {st : StationIx} : c.stationProofs st = true ↔
    ∃ sd, c.map.station st = some sd ∧ c.active sd.restraint = true ∧ c.active sd.gate = true := by
  unfold Ctx.stationProofs
  cases c.map.station st <;> simp

/-- The zone's record makes it available (R31). -/
theorem zoneRecord_iff : ((r.zone? z).any fun zr => zr.claim == .clear && zr.fault == none && (c.map.isStopping z || zr.holds == 0#4)) = true ↔
    ∃ zr, r.zone? z = some zr ∧ zr.claim = .clear ∧ zr.fault = none ∧ (c.map.isStopping z = false → zr.holds = 0#4) := by
  cases r.zone? z <;> cases c.map.isStopping z <;> simp [and_assoc]

/-- The diverge switch of a zone makes it available (R31). -/
theorem divergeAvailable_iff {step : Bool} : divergeAvailable c r k step z = true ↔ ∀ w, c.map.divergeAt z = some w →
    ∃ sx at_ setting last, r.switch? w = some sx ∧ sx.pos = .locked at_ ∧ sx.role = .diverge setting last ∧
      (step = true ∨ setting = some (k, at_)) := by
  unfold divergeAvailable
  cases c.map.divergeAt z with
  | none => simp
  | some w =>
    dsimp only
    split
    · next at_ pending setting last e => simp [e]
    · next h =>
      refine ⟨fun e => absurd e (by simp), fun e => ?_⟩
      obtain ⟨⟨pos, pending, committed, role⟩, at_, setting, last, hs, hp, hr, -⟩ := e w rfl
      cases hp
      cases hr
      exact absurd hs (h _ _ _ _ _)

/-- The merge switch of a zone makes it available (R31, R74). -/
theorem mergeAvailable_iff {step : Bool} {before : ZoneIx} : mergeAvailable c r step before z = true ↔ ∀ w, c.map.mergeAt z = some w →
    ∃ sx side reqA reqB arb served, r.switch? w = some sx ∧ sx.role = .merge reqA reqB arb served ∧
      c.map.sideFrom z before = some side ∧ ((∃ j, arb = .granted side j) ∨ step = true ∧ arb = .idle ∧ sx.pos = .locked side) := by
  unfold mergeAvailable
  cases c.map.mergeAt z with
  | none => simp
  | some w =>
    cases hs : r.switch? w with
    | none => simp [hs]
    | some sx =>
      obtain ⟨pos, pending, committed, role⟩ := sx
      cases hside : c.map.sideFrom z before with
      | none => cases role <;> simp [hs]
      | some side =>
        cases role with
        | diverge setting last => simp [hs]
        | merge reqA reqB arb served => cases arb <;> simp [hs]

theorem zoneAvailable_iff {step : Bool} {before : ZoneIx} : zoneAvailable c r k step before z = true ↔
    (∃ zr, r.zone? z = some zr ∧ zr.claim = .clear ∧ zr.fault = none ∧ (c.map.isStopping z = false → zr.holds = 0#4)) ∧
    (∀ w, c.map.divergeAt z = some w → ∃ sx at_ setting last, r.switch? w = some sx ∧ sx.pos = .locked at_ ∧
      sx.role = .diverge setting last ∧ (step = true ∨ setting = some (k, at_))) ∧
    ∀ w, c.map.mergeAt z = some w → ∃ sx side reqA reqB arb served, r.switch? w = some sx ∧ sx.role = .merge reqA reqB arb served ∧
      c.map.sideFrom z before = some side ∧ ((∃ j, arb = .granted side j) ∨ step = true ∧ arb = .idle ∧ sx.pos = .locked side) := by
  rw [zoneAvailable, Bool.and_eq_true, Bool.and_eq_true, zoneRecord_iff, divergeAvailable_iff, mergeAvailable_iff, and_assoc]

/-- A chain is available zone by zone, each after the one before it (R33). -/
theorem chainAvailable_iff {step : Bool} {before : ZoneIx} : chainAvailable c r k step before chain = true ↔
    ∀ (n : Nat) (u z : ZoneIx), (before :: chain)[n]? = some u → chain[n]? = some z → zoneAvailable c r k step u z = true := by
  induction chain generalizing before with
  | nil => simp [chainAvailable]
  | cons y ys ih =>
    rw [chainAvailable, Bool.and_eq_true, ih]
    constructor
    · rintro ⟨first, rest⟩ n u z hu hz
      cases n with
      | zero =>
        cases hu
        cases hz
        exact first
      | succ n => exact rest n u z (by simpa using hu) (by simpa using hz)
    · exact fun h => ⟨h 0 before y rfl rfl, fun n u z hu hz => h (n + 1) u z (by simpa using hu) (by simpa using hz)⟩

/-- When a train can be stepped (R74). -/
theorem stepChain_iff : stepChain c r k x = some chain ↔
    x.phase = .held ∧ readyToReserve c r x = true ∧ stationMeets c x.head c.stationProofs = true ∧
    prospectiveChain c r x = some chain ∧ chainAvailable c r k true x.head chain = true := by
  unfold stepChain
  split
  · next h =>
    simp only [Bool.and_eq_true, beq_iff_eq] at h
    rw [Option.filter_eq_some_iff]
    tauto
  · next h =>
    simp only [Bool.and_eq_true, beq_iff_eq] at h
    simp only [reduceCtorEq, false_iff]
    tauto

/-! ### What an open command makes of the element -/

theorem aimed_code (ch : Channel) (target due : Nat) : (ch.aimed target due).1.code = ch.code := by
  unfold Channel.aimed
  split
  · next h => exact h.symm
  · split <;> rfl

theorem aimed_arrives (ch : Channel) (target due : Nat) : (ch.aimed target due).2 = decide (ch.code = target) := by
  unfold Channel.aimed
  split
  · next h => simp [h]
  · next h => split <;> simp [h]

/-- A brake that comes to a state without latching the ride has not come to FAULT (R131). -/
theorem brakeBecomes_sound {st : BrakeState} {cmd : ElementCommand} (on : (brakeBecomes c z st cmd r).latched = false) (cause : ElementFault) :
    st ≠ .fault cause := by
  rintro rfl
  have latched : (brakeBecomes c z (.fault cause) cmd r).latched = true :=
    latched_of_cause (report_cause ((r.putElement z (.brake (.fault cause) cmd)).raise .fault) .elementFault)
  rw [latched] at on
  cases on

theorem atLevels_opening_output {due : Nat} {l m : Bool} (h : ∀ cause, (BrakeState.opening due).atLevels l m ≠ .fault cause) :
    ((BrakeState.opening due).atLevels l m).output = true := by
  match l, m with
  | true, true => exact absurd rfl (h _)
  | true, false => rfl
  | false, true => rfl
  | false, false => rfl

theorem commanded_sound {st : BrakeState} {cmd : ElementCommand} {due : Nat} {cause : ElementFault} (hc : cmd ≠ .close)
    (h : st.commanded cmd due = .fault cause) : st = .fault cause := by
  cases cmd <;> cases st <;> simp [BrakeState.commanded] at hc h ⊢ <;> exact h

/-- A brake commanded open asserts its output, but where its proofs fault it (R128, R131). -/
theorem openElement_brake {st : BrakeState} {cmd : ElementCommand} {creep : Bool} (he : r.element? z = some (.brake st cmd))
    (sound : ∀ cause, st ≠ .fault cause) (on : (openElement c z creep r).latched = false) :
    ∃ st' cmd', (openElement c z creep r).element? z = some (.brake st' cmd') ∧ st'.output = true := by
  have he' : (zoneStationEvent c z .openCommand r).element? z = some (.brake st cmd) := ((zoneStationEvent_within z _).element? rfl z).trans he
  have becomes (st' : BrakeState) (r : Ride) : (brakeBecomes c z st' .openRun r).element? z = some (.brake st' .openRun) :=
    (brakeBecomes_element z st' _ z).trans (if_pos rfl)
  simp only [openElement, he, commandElement, he', brakeCommand] at on ⊢
  rcases commanded_open (st := st) (cmd := .openRun) (due := c.proofDue z) (by simp) with e | e | ⟨cause, e⟩
  · rw [e] at on ⊢
    exact ⟨_, _, becomes _ _, atLevels_opening_output (brakeBecomes_sound on)⟩
  · rw [e] at on ⊢
    exact ⟨_, _, becomes _ _, rfl⟩
  · exact absurd (commanded_sound (by simp) e) (sound cause)

/-- A drive commanded open stands under that command, its channel aimed at the command's code (R133, R134). -/
theorem openElement_drive {st : DriveState} {cmd : ElementCommand} {creep : Bool} {ch : ChannelIx} {dd : DriveDesc} {cx : Channel}
    (he : r.element? z = some (.drive st cmd)) (hd : c.map.elementAt z = .drive ch) (hdd : c.map.drive ch = some dd)
    (hcx : r.channel? ch = some cx) {cmd' : ElementCommand} (hcmd : cmd' = if creep then .openCreep else .openRun) :
    (openElement c z creep r).element? z = some (.drive (if cx.code = cmd'.codeOn dd then .opened else .opening) cmd') ∧
    ∃ y, (openElement c z creep r).channel? ch = some y ∧ y.target = cmd'.codeOn dd ∧ y.code = cx.code := by
  have told := zoneStationEvent_within (c := c) (r := r) z .openCommand
  have open_ : cmd' ≠ .close := by rw [hcmd]; cases creep <;> simp
  have atOnce : stopsAtOnce (zoneStationEvent c z .openCommand r) dd cmd' = false := by
    unfold stopsAtOnce
    cases cmd' <;> simp at open_ ⊢
  have channel : c.channelOf z = some ch := by simp [Ctx.channelOf, hd]
  simp only [openElement, he, commandElement, (told.element? rfl z).trans he, ← hcmd, driveCommand, channel, (told.channel? rfl ch).trans hcx,
    hdd, atOnce, Bool.false_eq_true, if_false, aimed_arrives, decide_eq_true_eq]
  have put (y : Channel) (r : Ride) : (r.putChannel ch y).channel? ch = some y := tget_tput_same ..
  split
  · next arrives =>
    refine ⟨?_, _, ?_, aimed_target _ _ (dueAfter c.now dd.interval), aimed_code _ _ _⟩
    · rw [driveArrives_element, if_pos rfl, if_neg open_]
    · exact ((driveArrives_within z cmd').channel? rfl ch).trans (put _ _)
  · refine ⟨?_, _, ?_, aimed_target _ _ (dueAfter c.now dd.interval), aimed_code _ _ _⟩
    · unfold driveInFlight
      cases cmd' with
      | close => exact absurd rfl open_
      | _ => exact tget_tput_same ..
    · exact ((driveInFlight_within z cmd').channel? rfl ch).trans (put _ _)

/-! ### What an open command makes of a train -/

/-- The record of a train that the element of its zone releases (R61). -/
def Train.released (c : Ctx) (z : ZoneIx) (x : Train) : Train :=
  { x with phase := .running, dir := .forward, deadline := some (deadlineFrom .journey c.now (c.releaseAllowance z)) }

/-- An element proven OPEN releases the train that rests in its zone (R61). -/
theorem provenOpen_release (ho : r.occupant? z = some k) (hx : r.train? k = some x) (rest : x.phase = .held ∨ x.phase = .stopping)
    (head : x.head = z) : (provenOpen c z r).train? k = some (x.released c z) := by
  subst head
  simp only [provenOpen, ho, hx, rest, and_self, if_true]
  exact changeTrain_train ..

theorem provenOpen_train (hx : r.train? k = some x) :
    (provenOpen c z r).train? k = some x ∨ (provenOpen c z r).train? k = some (x.released c z) := by
  by_cases h : r.occupant? z = some k ∧ (x.phase = .held ∨ x.phase = .stopping) ∧ x.head = z
  · exact .inr (provenOpen_release h.1 hx h.2.1 h.2.2)
  · refine .inl ?_
    unfold provenOpen
    split
    · exact hx
    · next l hl =>
      split
      · exact hx
      · next y hy =>
        split
        · next hr =>
          have apart : k ≠ l := by
            rintro rfl
            cases hx.symm.trans hy
            exact h ⟨hl, hr⟩
          exact (changeTrain_other _ _ apart).trans hx
        · exact hx

theorem brakeBecomes_open_released {st : BrakeState} {cmd : ElementCommand} (hx : r.train? k = some x) (hst : st ≠ .closed) :
    (brakeBecomes c z st cmd r).train? k = some x ∨ (brakeBecomes c z st cmd r).train? k = some (x.released c z) := by
  cases st with
  | opened => exact provenOpen_train (r := r.putElement z _) hx
  | closed => exact absurd rfl hst
  | fault cause => exact .inl ((((raise_within _).trans (report_within _)).train? rfl k).trans hx)
  | opening due => exact .inl hx
  | closing due => exact .inl hx

/-- An open command leaves a train's record, or releases the train (R61). -/
theorem openElement_train (creep : Bool) (hx : r.train? k = some x) :
    (openElement c z creep r).train? k = some x ∨ (openElement c z creep r).train? k = some (x.released c z) := by
  have told {r' : Ride} (hr : r'.train? k = some x) (cmd : ElementCommand) (hc : cmd ≠ .close) :
      (commandElement c z cmd r').train? k = some x ∨ (commandElement c z cmd r').train? k = some (x.released c z) := by
    unfold commandElement
    split
    · next st _ _ =>
      unfold brakeCommand
      rcases commanded_open (st := st) (due := c.proofDue z) hc with e | e | ⟨cause, e⟩ <;> rw [e]
      · exact brakeBecomes_open_released hr (atLevels_opening _ _ _)
      · exact brakeBecomes_open_released hr (by simp)
      · exact .inl hr
    · unfold driveCommand
      split
      · exact .inl hr
      · split
        · next i _ _ _ ch d _ _ =>
          generalize (if stopsAtOnce r' d cmd then (ch.restingAt 0, true) else ch.aimed (cmd.codeOn d) (dueAfter c.now d.interval)) = aim
          dsimp only
          split
          · unfold driveArrives
            split
            · exact absurd rfl hc
            · exact provenOpen_train (r := (r'.putChannel i aim.1).putElement z _) hr
          · exact .inl hr
        · exact .inl hr
    · exact .inl hr
  unfold openElement
  split
  · exact .inl hx
  · next e _ =>
    refine told (((zoneStationEvent_within z _).train? rfl k).trans hx) _ ?_
    cases e with
    | brake => simp
    | drive => cases creep <;> simp

/-! ### A chain that is reserved -/

theorem chainReserved_within (k : SlotIx) (x : Train) (chain : List ZoneIx) : Ride.Within .chain r (chainReserved c k x chain r) :=
  (((putTrain_within k _).mono rfl).trans (.foldl (fun _ z => (setClaim_within z _).mono rfl) chain _)).trans
    (.foldl (fun _ z => (reservedAt_within k z).mono rfl) chain _)

/-- What a reservation in full leaves of the train and of the claims (R33). -/
theorem reserveChain_claims {creep : Bool} (hx : r.train? k = some x) :
    (∃ y, (reserveChain c k chain creep r).train? k = some y ∧ y.chain = chain ∧ y.stepping = x.stepping) ∧
    (∀ z, (reserveChain c k chain creep r).claim? z = if z ∈ chain then (r.claim? z).map fun _ => .reserved k else r.claim? z) ∧
    (reserveChain c k chain creep r).presented? k = none := by
  rw [reserveChain_eq hx]
  obtain ⟨dir, reserved⟩ := (chainReserved_trains (c := c) (t := k) (x := x) (r := r) chain k).2
  have open_ := openElement_opening (c := c) (r := (chainReserved c k x chain r).putPresented k none) x.head creep
  refine ⟨?_, fun z => ?_, ?_⟩
  · rcases openElement_train (c := c) (z := x.head) (r := (chainReserved c k x chain r).putPresented k none) creep reserved with e | e
    · exact ⟨_, e, rfl, rfl⟩
    · exact ⟨_, e, rfl, rfl⟩
  · rw [open_.claim? rfl]
    exact chainReserved_claim? chain z
  · rw [open_.presented? rfl]
    exact tget_tput_same ..

/-- A reservation asserts the output of the brake of the head zone, but where its proofs fault it (R35). -/
theorem reserveChain_brake {creep : Bool} {st : BrakeState} {cmd : ElementCommand} (hx : r.train? k = some x)
    (he : r.element? x.head = some (.brake st cmd)) (sound : ∀ cause, st ≠ .fault cause)
    (on : (reserveChain c k chain creep r).latched = false) :
    ∃ st' cmd', (reserveChain c k chain creep r).element? x.head = some (.brake st' cmd') ∧ st'.output = true := by
  rw [reserveChain_eq hx] at on ⊢
  have reserved := chainReserved_within (c := c) (r := r) k x chain
  exact openElement_brake (r := (chainReserved c k x chain r).putPresented k none) ((reserved.element? rfl _).trans he) sound on

/-- A reservation puts the drive of the head zone under its open command (R35, R133). -/
theorem reserveChain_drive {creep : Bool} {st : DriveState} {cmd : ElementCommand} {ch : ChannelIx} {dd : DriveDesc} {cx : Channel}
    (hx : r.train? k = some x) (he : r.element? x.head = some (.drive st cmd)) (hd : c.map.elementAt x.head = .drive ch)
    (hdd : c.map.drive ch = some dd) (hcx : r.channel? ch = some cx) {cmd' : ElementCommand}
    (hcmd : cmd' = if creep then .openCreep else .openRun) :
    (reserveChain c k chain creep r).element? x.head = some (.drive (if cx.code = cmd'.codeOn dd then .opened else .opening) cmd') ∧
    ∃ y, (reserveChain c k chain creep r).channel? ch = some y ∧ y.target = cmd'.codeOn dd ∧ y.code = cx.code := by
  rw [reserveChain_eq hx]
  have reserved := chainReserved_within (c := c) (r := r) k x chain
  exact openElement_drive (r := (chainReserved c k x chain r).putPresented k none) ((reserved.element? rfl _).trans he) hd hdd
    ((reserved.channel? rfl ch).trans hcx) hcmd

/-! ### STEP -/

theorem chainAvailable_congr {c' : Ctx} {r' : Ride} {step : Bool}
    (h : ∀ before z, zoneAvailable c' r' k step before z = zoneAvailable c r k step before z) (before : ZoneIx) (chain : List ZoneIx) :
    chainAvailable c' r' k step before chain = chainAvailable c r k step before chain := by
  induction chain generalizing before with
  | nil => rfl
  | cons z zs ih => rw [chainAvailable, chainAvailable, h, ih]

theorem asked_chainAvailable (s : State) (dt : Nat) (k : SlotIx) (step : Bool) :
    chainAvailable (s.asked dt).ctx s.told k step = chainAvailable s.ctx s.ride k step := by
  funext before chain
  refine chainAvailable_congr (fun before z => ?_) before chain
  unfold State.told
  split <;> rfl

theorem asked_prospectiveChain (s : State) (dt : Nat) (x : Train) :
    prospectiveChain (s.asked dt).ctx s.told x = prospectiveChain s.ctx s.ride x := by
  unfold State.told
  split <;> rfl

theorem asked_readyToReserve (s : State) (dt : Nat) (x : Train) :
    readyToReserve (s.asked dt).ctx s.told x = readyToReserve s.ctx s.ride x := by
  unfold State.told
  split <;> rfl

theorem asked_stepChain (s : State) (dt : Nat) (k : SlotIx) (x : Train) :
    stepChain (s.asked dt).ctx s.told k x = stepChain s.ctx s.ride k x := by
  have meets : stationMeets (s.asked dt).ctx x.head (s.asked dt).ctx.stationProofs = stationMeets s.ctx x.head s.ctx.stationProofs := rfl
  unfold stepChain
  rw [asked_readyToReserve, meets, asked_prospectiveChain, asked_chainAvailable]

theorem stepRule_step (mode : s.mode = .maintenance) (named : s.ride.trainNamed f.obj.toNat = some (k, x))
    (can : stepChain s.ctx s.ride k x = some chain) :
    stepRule f (s.asked dt) = (.done, (s.asked dt).onRide fun c r => takeStep c k x chain r) := by
  have mode' : (s.asked dt).mode = .maintenance := mode
  have named' : (s.asked dt).ride.trainNamed (objectOf f) = some (k, x) := (told_trainNamed s _).trans named
  have can' : stepChain (s.asked dt).ctx (s.asked dt).ride k x = some chain := (asked_stepChain s dt k x).trans can
  simp [stepRule, mode', named', can']

theorem stepRule_conflict (mode : s.mode = .maintenance) (named : s.ride.trainNamed f.obj.toNat = some (k, x))
    (can : stepChain s.ctx s.ride k x = none) : stepRule f (s.asked dt) = (.conflict, s.asked dt) := by
  have mode' : (s.asked dt).mode = .maintenance := mode
  have named' : (s.asked dt).ride.trainNamed (objectOf f) = some (k, x) := (told_trainNamed s _).trans named
  have can' : stepChain (s.asked dt).ctx (s.asked dt).ride k x = none := (asked_stepChain s dt k x).trans can
  simp [stepRule, mode', named', can', State.refuse]

/-- Outside AUTO a step that leaves the latch clear ends with its own effects, but for presentations and switches. -/
theorem conclude_still {before after : Ride} (calm : c.mode ≠ .auto) (on : (conclude c before after).latched = false) :
    Ride.Within { presented := true, switches := true } after (conclude c before after) := by
  have same := conclude_calm (c := c) (before := before) (after := after) (.inl calm)
  have clear : after.latched = false := by
    rw [← Bool.not_eq_true]
    exact fun e => absurd ((conclude_narrow (c := c) (before := before)).latched e) (by simp [on])
  rwa [tellLatched_same (.inr clear)] at same

/-- What a STEP leaves where it does not stop the ride (R33, R35, R74). -/
theorem step_done (h : s.Did dt (fun c r => takeStep c k x chain r) t) (mode : s.mode = .maintenance)
    (can : stepChain s.ctx s.ride k x = some chain) (on : t.ride.latched = false) :
    (∃ y, t.ride.train? k = some y ∧ y.chain = chain ∧ y.stepping = true) ∧
    (∀ z, z ∈ chain → t.ride.claim? z = some (.reserved k)) ∧
    (∀ st cmd, s.ride.element? x.head = some (.brake st cmd) → t.elementOutput x.head = true) ∧
    ∀ st cmd ch dd cx, s.ride.element? x.head = some (.drive st cmd) → s.map.elementAt x.head = .drive ch →
      s.map.drive ch = some dd → s.ride.channel? ch = some cx →
      t.ride.element? x.head = some (.drive (if cx.code = dd.creep then .opened else .opening) .openCreep) ∧
        ∃ y, t.ride.channel? ch = some y ∧ y.target = dd.creep ∧ y.code = cx.code := by
  obtain ⟨-, ready, -, -, available⟩ := stepChain_iff.mp can
  obtain ⟨-, -, -, -, -, sound, -⟩ := readyToReserve_iff.mp ready
  have still := conclude_still (before := s.told) (after := takeStep (s.asked dt).ctx k x chain s.told)
    (c := (s.asked dt).ctx) (by rw [show (s.asked dt).ctx.mode = s.mode from rfl, mode]; simp) (h.ride ▸ on)
  rw [← h.ride] at still
  have granted : Ride.Within { Parts.switching with trains := true } s.ride
      (grantChain (s.asked dt).ctx k x.head chain (s.told.putTrain k { x with stepping := true })) :=
    (((told_within s).mono rfl).trans ((putTrain_within k _).mono rfl)).trans ((grantChain_within k _ _).mono rfl)
  have hx' : (grantChain (s.asked dt).ctx k x.head chain (s.told.putTrain k { x with stepping := true })).train? k =
      some { x with stepping := true } := ((grantChain_within k _ _).train? rfl k).trans (tget_tput_same ..)
  obtain ⟨⟨y, hy, chain_, stepping⟩, claims, -⟩ := reserveChain_claims (c := (s.asked dt).ctx) (chain := chain) (creep := true) hx'
  have on' : (takeStep (s.asked dt).ctx k x chain s.told).latched = false := (still.latched rfl).symm.trans on
  refine ⟨⟨y, (still.train? rfl k).trans hy, chain_, stepping⟩, fun z hz => ?_, fun st cmd he => ?_,
    fun st cmd ch dd cx he hd hdd hcx => ?_⟩
  · rw [still.claim? rfl]
    refine (claims z).trans ?_
    rw [if_pos hz, granted.claim? rfl, chainAvailable_clear available z hz]
    rfl
  · obtain ⟨st', cmd', element, output⟩ := reserveChain_brake (c := (s.asked dt).ctx) hx' ((granted.element? rfl _).trans he)
      (fun cause e => sound cause cmd (e ▸ he)) on'
    rw [State.elementOutput, (still.element? rfl x.head).trans element]
    exact output
  · obtain ⟨element, y, channel, target, code⟩ := reserveChain_drive (c := (s.asked dt).ctx) (chain := chain) (creep := true) hx'
      ((granted.element? rfl _).trans he) hd hdd ((granted.channel? rfl ch).trans hcx) rfl
    exact ⟨(still.element? rfl _).trans element, y, (still.channel? rfl ch).trans channel, target, code⟩

/-! ### DIRECT -/

theorem directiveOf_route (w : SwitchIx) (side : Side) : directiveOf (256 * w.val + side.code) = some (.route w side) := by
  have small : side.code < 256 := by cases side <;> decide
  have high : (256 * w.val + side.code) / 256 = w.val := by omega
  have low : (256 * w.val + side.code) % 256 = side.code := by omega
  unfold directiveOf
  rw [high, low, ixOf, dif_pos w.isLt]
  cases side <;> rfl

theorem directiveOf_remove (w : SwitchIx) : directiveOf (256 * w.val + 2) = some .remove := by
  have high : (256 * w.val + 2) / 256 = w.val := by omega
  have low : (256 * w.val + 2) % 256 = 2 := by omega
  unfold directiveOf
  rw [high, low, ixOf, dif_pos w.isLt]
  rfl

theorem trainNamed_train? {n : Nat} (h : r.trainNamed n = some (k, x)) : r.train? k = some x := by
  obtain ⟨l, -, hl⟩ := Option.bind_eq_some_iff.mp h
  obtain ⟨y, hy, e⟩ := Option.map_eq_some_iff.mp hl
  cases e
  exact hy

/-- Settles O37. -/
theorem stepAndDirect : Obligations.StepAndDirect := by
  refine ⟨fun c r k x chain => ?_, fun s dt f k x hs mode named can => ⟨_, rfl, ?_⟩,
    fun s dt f k x chain hs mode named can => ⟨_, rfl, ?_⟩, fun s dt f k x w hs mode named => ⟨fun side diverge arg => ⟨_, rfl, ?_⟩,
    fun arg => ⟨_, rfl, ?_⟩⟩⟩
  · rw [stepChain_iff, readyToReserve_iff, chainAvailable_iff]
    simp only [zoneAvailable_iff, true_or, and_true, true_and]
    constructor
    · rintro ⟨phase, ⟨latched, -, spur, stopping, zone, element, empty⟩, station, prospective, available⟩
      refine ⟨phase, latched, spur, stopping, zone, element, empty, fun d hd hk => ?_, prospective, available⟩
      obtain ⟨st, hst, hp⟩ := (stationMeets_iff stopping).mp station d hd hk
      obtain ⟨sd, hsd, proofs⟩ := stationProofs_iff.mp hp
      exact ⟨st, sd, hst, hsd, proofs⟩
    · rintro ⟨phase, latched, spur, stopping, zone, element, empty, station, prospective, available⟩
      refine ⟨phase, ⟨latched, .inr (.inr (.inr phase)), spur, stopping, zone, element, empty⟩,
        (stationMeets_iff stopping).mpr fun d hd hk => ?_, prospective, available⟩
      obtain ⟨st, sd, hst, hsd, proofs⟩ := station d hd hk
      exact ⟨st, hst, stationProofs_iff.mpr ⟨sd, hsd, proofs⟩⟩
  · exact ordinary_turnedAway (i := .stepTrain dt f) hs rfl (stepRule_conflict mode named can) rfl
  · have h : s.Did dt (fun c r => takeStep c k x chain r) _ := ordinary_did hs (own := stepRule f) (stepRule_step mode named can)
    have hx := trainNamed_train? named
    have keeps := (takeStep_narrow ((told_within s).train? rfl k |>.trans hx) ((asked_stepChain s dt k x).trans can)).keeps
    exact ⟨h.only, h.closed, h.answered, keeps.trans h.keeps, step_done h mode can⟩
  · have named' : (s.asked dt).ride.trainNamed (objectOf f) = some (k, x) := (told_trainNamed s _).trans named
    have rule : directRule f (s.asked dt) =
        (.done, { s.asked dt with ride := s.told.putTrain k { x with directive := some (w, side) } }) := by
      have mode' : (s.asked dt).mode ≠ .config := mode
      have diverge' : (s.asked dt).map.isDiverge w = true := diverge
      simp only [directRule, mode', if_false, argumentOf, arg, directiveOf_route, named', diverge', if_true]
      rfl
    obtain ⟨answered, same⟩ := ordinary_answers (next := .nothing) hs rule
    exact ⟨answered, by rw [same]; rfl⟩
  · have named' : (s.asked dt).ride.trainNamed (objectOf f) = some (k, x) := (told_trainNamed s _).trans named
    have rule : directRule f (s.asked dt) = (.done, { s.asked dt with ride := s.told.putTrain k { x with directive := none } }) := by
      have mode' : (s.asked dt).mode ≠ .config := mode
      simp only [directRule, mode', if_false, argumentOf, arg, directiveOf_remove, named']
      rfl
    obtain ⟨answered, same⟩ := ordinary_answers (next := .nothing) hs rule
    exact ⟨answered, by rw [same]; rfl⟩

end Sys2Proof.Machine
end

section
/-! PROOF. CLEAR_FAULT (R49, R90, Tables 6-4 and 7-8), and a switch that nothing asks at the end of a step. -/

namespace Sys2Proof.Machine

variable {i : Instr} {s t : State} {dt : Nat} {f : Frame} {c : Ctx} {w v : SwitchIx} {a b r : Ride} {z u : ZoneIx} {k : SlotIx}
  {x y : SwitchRec}

/-! ### A switch that nothing asks at the end of a step -/

/-- The arbiter of a switch starts nothing: the switch is in FAULT, or no train asks at it. -/
def SwitchRec.Settled (x : SwitchRec) : Prop :=
  (∃ cause, x.pos = .fault cause) ∨ ∀ reqA reqB arb served, x.role = .merge reqA reqB arb served → reqA = none ∧ reqB = none

/-- Switch record `y` is `x` after withdrawals, which can take the request of a route setting with them (R112). -/
structure SwitchRec.Rested (x y : SwitchRec) : Prop where
  pos : y.pos = x.pos
  committed : y.committed = x.committed
  pending : y.pending = x.pending ∨ y.pending = none ∧ ∃ side, x.pending = some (side, .routing)
  settled : y.Settled

theorem SwitchRec.without_rested (h : x.Rested y) (k : SlotIx) : x.Rested (y.without k) := by
  refine ⟨h.pos, h.committed, ?_, h.settled.imp_right fun free reqA reqB arb served e => ?_⟩
  · have drops : (y.without k).pending = y.pending ∨ (y.without k).pending = none ∧ ∃ side, y.pending = some (side, .routing) := by
      unfold SwitchRec.without
      dsimp only
      split
      · next side hp =>
        split
        · exact .inr ⟨rfl, side, hp⟩
        · exact .inl rfl
      · exact .inl rfl
    rcases drops with e | ⟨e, side, he⟩
    · rw [e]
      exact h.pending
    · refine .inr ⟨e, ?_⟩
      rcases h.pending with p | ⟨p, q⟩
      · exact ⟨side, p ▸ he⟩
      · exact q
  · cases hr : y.role with
    | diverge setting last =>
      have e : (y.role.without k) = _ := e
      rw [hr] at e
      cases e
    | merge reqA' reqB' arb' served' =>
      obtain ⟨rfl, rfl⟩ := free _ _ _ _ hr
      have e : (y.role.without k) = _ := e
      rw [hr] at e
      cases e
      simp

/-- Arbitration leaves a switch whose arbiter starts nothing (R115). -/
theorem arbitrate_settled (hy : r.switch? w = some y) (settled : y.Settled) (v : SwitchIx) : (arbitrate c v r).switch? w = some y := by
  have asked {toward : Side} {src : MoveSource} {r' : Ride} (ne : w ≠ v) (h : r'.switch? w = some y) :
      (requestMove c v toward src r').switch? w = some y := by
    unfold requestMove
    split
    · exact (putSwitch_other _ _ _ _ ne).trans h
    · exact h
  by_cases e : w = v
  · subst e
    unfold arbitrate
    rw [hy]
    split
    · next pos pending committed reqA reqB served e =>
      cases e
      split
      · next sound =>
        rcases settled with ⟨cause, hp⟩ | free
        · rw [Bool.and_eq_true] at sound
          simp [show pos = _ from hp, SwitchPos.faulted] at sound
        · obtain ⟨rfl, rfl⟩ := free _ _ _ _ rfl
          exact hy
      · exact hy
    · exact hy
  · unfold arbitrate
    split
    · split
      · split
        · exact hy
        · dsimp only
          split
          · exact (putSwitch_other _ _ _ _ e).trans hy
          · exact asked e ((putSwitch_other _ _ _ _ e).trans hy)
      · exact hy
    · exact hy

/-- Outside AUTO the interlock only withdraws presentations. -/
theorem reconsiderTrain_calm (calm : c.calm r) (k : SlotIx) :
    reconsiderTrain c k r = r ∨ (r.presented? k).isSome = true ∧ reconsiderTrain c k r = (withdrawSwitches k r).putPresented k none := by
  unfold reconsiderTrain
  split
  · exact .inl rfl
  · simp only [not_eligible calm, Bool.false_eq_true, if_false]
    split
    · exact .inl rfl
    · next h =>
      have some_ : (r.presented? k).isSome = true := Option.isSome_iff_ne_none.mpr h
      rw [if_pos some_]
      exact .inr ⟨some_, rfl⟩

/-- A switch whose arbiter starts nothing rests through the reconsideration of a step outside AUTO. -/
theorem reconsider_settled (calm : c.calm r) (hx : r.switch? w = some x) (settled : x.Settled) :
    ∃ y, (reconsider c r).switch? w = some y ∧ x.Rested y ∧ ((∀ k, r.presented? k = none) → y = x) := by
  have one (k : SlotIx) (r' : Ride) (h : c.calm r' ∧ (∃ y, r'.switch? w = some y ∧ x.Rested y) ∧
      ((∀ k, r.presented? k = none) → r'.switch? w = some x ∧ ∀ k, r'.presented? k = none)) :
      c.calm (reconsiderTrain c k r') ∧ (∃ y, (reconsiderTrain c k r').switch? w = some y ∧ x.Rested y) ∧
        ((∀ k, r.presented? k = none) → (reconsiderTrain c k r').switch? w = some x ∧ ∀ l, (reconsiderTrain c k r').presented? l = none) := by
    obtain ⟨calm', ⟨y, hy, rested⟩, free⟩ := h
    rcases reconsiderTrain_calm calm' k with e | ⟨some_, e⟩
    · rw [e]
      exact ⟨calm', ⟨y, hy, rested⟩, free⟩
    · refine ⟨Ctx.calm.within calm' (reconsiderTrain_parts k) rfl, ⟨y.without k, ?_, SwitchRec.without_rested rested k⟩, fun absent => ?_⟩
      · rw [e]
        refine ((putPresented_within k none).switch? rfl w).trans ?_
        rw [withdrawSwitches_switch, hy]
        rfl
      · rw [(free absent).2 k] at some_
        cases some_
  have presented := overAll_induct (fun r' : Ride => c.calm r' ∧ (∃ y, r'.switch? w = some y ∧ x.Rested y) ∧
    ((∀ k, r.presented? k = none) → r'.switch? w = some x ∧ ∀ k, r'.presented? k = none)) (fun (k : SlotIx) r => reconsiderTrain c k r) one r
    ⟨calm, ⟨x, hx, rfl, rfl, .inl rfl, settled⟩, fun absent => ⟨hx, absent⟩⟩
  have arbitrated := overAll_induct (fun r' : Ride => c.calm r' ∧ (∃ y, r'.switch? w = some y ∧ x.Rested y) ∧
    ((∀ k, r.presented? k = none) → r'.switch? w = some x)) (fun (v : SwitchIx) r => arbitrate c v r)
    (fun v r' ⟨calm', ⟨y, hy, rested⟩, free⟩ => ⟨Ctx.calm.within calm' (arbitrate_within v) rfl,
      ⟨y, arbitrate_settled hy rested.settled v, rested⟩, fun absent => arbitrate_settled (free absent) settled v⟩) _
    ⟨presented.1, presented.2.1, fun absent => (presented.2.2 absent).1⟩
  have reserved := overAll_induct (fun r' : Ride => c.calm r' ∧ (∃ y, r'.switch? w = some y ∧ x.Rested y) ∧
    ((∀ k, r.presented? k = none) → r'.switch? w = some x)) (fun (k : SlotIx) r => reserveIfAvailable c k r)
    (fun k r' h => by rwa [reserveIfAvailable_calm h.1]) _ arbitrated
  obtain ⟨-, ⟨y, hy, rested⟩, free⟩ := reserved
  exact ⟨y, hy, rested, fun absent => Option.some.inj (hy.symm.trans (free absent))⟩

theorem conclude_calm_eq {before after : Ride} (calm : c.calm after) :
    conclude c before after = reconsider c (tellLatched c before after) := by
  have calm' : c.calm (tellLatched c before after) := calm.changes (w := true) (o := true) (q := true) tellLatched_changes
  unfold conclude
  dsimp only
  rw [(reconsider_calm calm').latched rfl]
  simp

/-- A switch whose arbiter starts nothing rests through the end of a step outside AUTO. -/
theorem conclude_settled {before after : Ride} (calm : c.calm after) (hx : (tellLatched c before after).switch? w = some x)
    (settled : x.Settled) :
    ∃ y, (conclude c before after).switch? w = some y ∧ x.Rested y ∧ ((∀ k, after.presented? k = none) → y = x) := by
  rw [conclude_calm_eq calm]
  have calm' : c.calm (tellLatched c before after) := calm.changes (w := true) (o := true) (q := true) tellLatched_changes
  obtain ⟨y, hy, rested, free⟩ := reconsider_settled calm' hx settled
  exact ⟨y, hy, rested, fun absent => free fun k => (tellLatched_within.presented? rfl k).trans (absent k)⟩

/-! ### CLEAR_FAULT for a zone (R49) -/

theorem clearZoneFault_zone {v : ZoneRec} (hz : r.zone? z = some v) : clearZoneFault z r = r.putZone z { v with fault := none } := by
  simp [clearZoneFault, hz]

theorem clearZoneRule_named {d : ZoneDesc} (mode : s.mode ≠ .config) (arg : f.arg.toNat = 1)
    (named : s.map.zoneNamed f.obj.toNat = some (z, d)) : clearZoneRule f (s.asked dt) =
      if s.faultBeside z then (.conflict, s.asked dt) else (.done, (s.asked dt).onRide fun _ r => clearZoneFault z r) := by
  have arg' : (argumentOf f == 1) = true := by simp [argumentOf, arg]
  have mode' : (s.asked dt).mode ≠ .config := mode
  have named' : (s.asked dt).map.zoneNamed f.obj.toNat = some (z, d) := named
  have beside : (s.asked dt).faultBeside z = s.faultBeside z := rfl
  rw [clearZoneRule, arg', zoneCommand_named mode' named', beside]
  rfl

theorem faultBeside_of {b : BoundaryIx} {bd : BoundaryDesc} {y : BoundaryRec} {cause : BoundaryFault} (hb : s.map.boundary b = some bd)
    (at_ : bd.up = z ∨ bd.down = z) (hy : tget s.bounds b = some y) (fault : y.passage = .fault cause) : s.faultBeside z = true := by
  unfold State.faultBeside
  refine finRange_any (j := b) ?_
  simp [hb, at_, State.boundaryFaulted?, hy, BoundaryRec.faulted, fault]

theorem execClearFaultZone_one (arg : f.arg.toNat = 1) :
    exec (.clearFaultZone dt f) s = .next ((s.advance dt).takeFrame .ordinary (clearZoneRule f)) := by
  show execClearFaultZone dt f s = _
  unfold execClearFaultZone
  rw [if_neg (by simp [argumentOf, arg])]

/-! ### CLEAR_FAULT for a boundary (R90) -/

theorem clearBoundaryRule_named {obj : Byte} {b : BoundaryIx} {d : BoundaryDesc} (mode : s.mode ≠ .config)
    (named : s.map.boundaryNamed obj.toNat = some (b, d)) : clearBoundaryRule obj (s.asked dt) = clearBoundary b d (s.asked dt) := by
  have mode' : (s.asked dt).mode ≠ .config := mode
  have named' : (s.asked dt).map.boundaryNamed obj.toNat = some (b, d) := named
  simp [clearBoundaryRule, mode', named']

theorem clearBoundary_fault {b : BoundaryIx} {d : BoundaryDesc} {x : BoundaryRec} {cause : BoundaryFault} (hx : tget s.bounds b = some x)
    (fault : x.passage = .fault cause) : clearBoundary b d s =
      if d.covered s.sensors.covered then s.refuse .conflict
      else (.done, { s with bounds := tput s.bounds b (some { x with passage := .clear }) }) := by
  simp [clearBoundary, hx, BoundaryRec.faulted, fault]

theorem clearBoundary_sound {b : BoundaryIx} {d : BoundaryDesc} {x : BoundaryRec} (hx : tget s.bounds b = some x)
    (sound : ∀ cause, x.passage ≠ .fault cause) : clearBoundary b d s = (.done, s) := by
  have none : x.faulted = false := by
    unfold BoundaryRec.faulted
    split
    · next cause e => exact absurd e (sound cause)
    · rfl
  simp [clearBoundary, hx, none]

/-! ### CLEAR_FAULT for an element (Table 7-8) -/

theorem clearElementRule_named {obj : Byte} {d : ZoneDesc} (mode : s.mode ≠ .config) (named : s.map.zoneNamed obj.toNat = some (z, d))
    (element : d.element ≠ .none) : clearElementRule obj (s.asked dt) = clearElement z (s.asked dt) := by
  have mode' : (s.asked dt).mode ≠ .config := mode
  have named' : (s.asked dt).map.zoneNamed obj.toNat = some (z, d) := named
  simp [clearElementRule, mode', named', element]

theorem told_element? (s : State) (z : ZoneIx) : s.told.element? z = s.ride.element? z := (told_within s).element? rfl z

theorem asked_elementFaulted (s : State) (dt : Nat) (z : ZoneIx) : (s.asked dt).ride.elementFaulted z = s.ride.elementFaulted z := by
  show s.told.elementFaulted z = _
  rw [Ride.elementFaulted, told_element?]
  rfl

theorem elementFaulted_of {cause : ElementFault} {cmd : ElementCommand} (h : r.element? z = some (.brake (.fault cause) cmd)) :
    r.elementFaulted z = true := by simp [Ride.elementFaulted, h]

theorem elementFaulted_not (h : ∀ cause cmd, r.element? z ≠ some (.brake (.fault cause) cmd)) : r.elementFaulted z = false := by
  unfold Ride.elementFaulted
  split
  · next cause cmd e => exact absurd e (h cause cmd)
  · rfl

/-- The levels of a brake's proofs, open and closed (R125). -/
theorem brakeLevels_brake {d : ZoneDesc} {o cl : ProofLine} {ms : Nat} (hd : c.map.zone z = some d) (he : d.element = .brake o cl ms) :
    c.brakeLevels z = (tget c.proofs o, tget c.proofs cl) := by
  simp [Ctx.brakeLevels, CircuitMap.elementAt, hd, he, Ctx.proof]

/-! ### CLEAR_FAULT for a switch (Table 6-4) -/

theorem clearSwitchRule_named {obj : Byte} {d : SwitchDesc} (mode : s.mode ≠ .config) (named : s.map.switchNamed obj.toNat = some (w, d))
    (hx : s.ride.switch? w = some x) : clearSwitchRule obj (s.asked dt) = clearSwitch w d x (s.asked dt) := by
  have mode' : (s.asked dt).mode ≠ .config := mode
  have named' : (s.asked dt).map.switchNamed obj.toNat = some (w, d) := named
  have hx' : (s.asked dt).ride.switch? w = some x := ((told_within s).switch? rfl w).trans hx
  simp [clearSwitchRule, mode', named', hx']

theorem provenSide_of {l m : Bool} {side : Side} (hl : l = (side == .a)) (hm : m = (side == .b)) : provenSide l m = some side := by
  subst hl hm
  cases side <;> rfl

theorem provenSide_none {l m : Bool} (h : l = m) : provenSide l m = none := by
  subst h
  cases l <;> rfl

theorem faulted_not {p : SwitchPos} (h : ∀ cause, p ≠ .fault cause) : p.faulted = false := by
  cases p with
  | fault cause => exact absurd rfl (h cause)
  | locked side => rfl
  | moving side due => rfl

/-- Locked with nothing asked of it, a switch stays locked to the end of a step outside AUTO. -/
theorem lockSwitch_stays {side : Side} {before : Ride} (calm : c.calm r) (latched : before.latched = true) (hx : r.switch? w = some x)
    (pending : x.pending = none) (free : ∀ reqA reqB arb served, x.role = .merge reqA reqB arb served → reqA = none ∧ reqB = none) :
    (conclude c before (lockSwitch c w side r)).lockOf w = some side := by
  have same : (tellLatched c before (lockSwitch c w side r)) = lockSwitch c w side r := tellLatched_same (.inl latched)
  have calm' : c.calm (lockSwitch c w side r) := Ctx.calm.within calm (lockSwitch_within w side) rfl
  have locked := lockSwitch_switch (c := c) hx side
  have at_ : pendingAtLock c w (switchZoneClear c r w) side { x with pos := .locked side, role := x.role.atLock side } =
      { x with pos := .locked side, role := x.role.atLock side } := by
    simp [pendingAtLock, pending]
  rw [at_] at locked
  have settled : SwitchRec.Settled { x with pos := .locked side, role := x.role.atLock side } := .inr fun reqA reqB arb served e => by
    cases hr : x.role with
    | diverge setting last =>
      have e : x.role.atLock side = _ := e
      rw [hr] at e
      cases e
    | merge reqA' reqB' arb' served' =>
      have e : x.role.atLock side = _ := e
      rw [hr] at e
      cases e
      exact free _ _ _ _ hr
  obtain ⟨y, hy, rested, -⟩ := conclude_settled calm' (before := before) (same ▸ locked) settled
  rw [Ride.lockOf, hy, Option.bind_some, rested.pos]
  rfl

/-! ### The obligation -/

/-- CLEAR_FAULT of a zone. -/
theorem clearFaultZone_cases {d : ZoneDesc} {x : ZoneRec} (hs : s.takes) (mode : s.mode ≠ .config) (arg : f.arg.toNat = 1)
    (named : s.map.zoneNamed f.obj.toNat = some (z, d)) (hx : s.ride.zone? z = some x) :
    (s.faultBeside z = false →
      ∃ t, exec (.clearFaultZone dt f) s = .next t ∧ s.onlyRide dt t ∧ t.selection = none ∧
        t.answered s.selection.isSome .done ∧ (s.told.putZone z { x with fault := none }).Keeps t.ride ∧
        (x.fault = none → s.told.Keeps t.ride)) ∧
    (s.faultBeside z = true → ∃ t, exec (.clearFaultZone dt f) s = .next t ∧ s.turnedAway (.clearFaultZone dt f) .conflict t) := by
  have rule := clearZoneRule_named (dt := dt) mode arg named
  refine ⟨fun free => ⟨_, execClearFaultZone_one arg, ?_⟩, fun beside => ⟨_, execClearFaultZone_one arg, ?_⟩⟩
  · rw [free] at rule
    have h : s.Did dt (fun _ r => clearZoneFault z r) _ := ordinary_did hs (own := clearZoneRule f) rule
    have hx' := (told_zone? s z).trans hx
    have keeps := h.keeps
    rw [clearZoneFault_zone hx'] at keeps
    refine ⟨h.only, h.closed, h.answered, keeps, fun sound => ?_⟩
    have self : s.told.putZone z { x with fault := none } = s.told := by
      rw [← sound]
      exact putZone_self hx'
    rwa [self] at keeps
  · rw [beside] at rule
    exact ordinary_turnedAway (i := .clearFaultZone dt f) hs rfl rule rfl

/-- CLEAR_FAULT of a boundary in FAULT. -/
theorem clearFaultBoundary_cases {obj : Byte} {b : BoundaryIx} {d : BoundaryDesc} {x : BoundaryRec} {cause : BoundaryFault} (hs : s.takes)
    (mode : s.mode ≠ .config) (named : s.map.boundaryNamed obj.toNat = some (b, d)) (hx : tget s.bounds b = some x)
    (fault : x.passage = .fault cause) :
    if tget s.sensors.covered d.uLine = true ∨ tget s.sensors.covered d.dLine = true then
      ∃ t, exec (.clearFaultBoundary dt obj) s = .next t ∧ s.turnedAway (.clearFaultBoundary dt obj) .conflict t
    else ∃ t, exec (.clearFaultBoundary dt obj) s = .next t ∧ t.answered s.selection.isSome .done ∧
      t = { s with
        now := s.now + dt, bounds := tput s.bounds b (some { x with passage := .clear }), selection := none, ride := s.told,
        link := t.link, dataOut := t.dataOut, answers := t.answers } := by
  have covered : d.covered s.sensors.covered = true ↔ tget s.sensors.covered d.uLine = true ∨ tget s.sensors.covered d.dLine = true := by
    simp [BoundaryDesc.covered]
  have rule := clearBoundaryRule_named (dt := dt) mode named
  rw [clearBoundary_fault (s := s.asked dt) hx fault] at rule
  split
  · next h =>
    rw [if_pos (show d.covered (s.asked dt).sensors.covered = true from covered.mpr h)] at rule
    exact ⟨_, rfl, ordinary_turnedAway (i := .clearFaultBoundary dt obj) hs rfl rule rfl⟩
  · next h =>
    rw [if_neg (show ¬d.covered (s.asked dt).sensors.covered = true from fun e => h (covered.mp e))] at rule
    obtain ⟨answered, same⟩ := ordinary_answers (next := .nothing) hs rule
    exact ⟨_, rfl, answered, by rw [same]; rfl⟩

/-- CLEAR_FAULT of a brake in FAULT. -/
theorem clearFaultElement_cases {obj : Byte} {d : ZoneDesc} {o cl : ProofLine} {ms : Nat} {cause : ElementFault} {cmd : ElementCommand}
    (hs : s.takes) (mode : s.mode ≠ .config) (named : s.map.zoneNamed obj.toNat = some (z, d)) (brake : d.element = .brake o cl ms)
    (he : s.ride.element? z = some (.brake (.fault cause) cmd)) :
    if tget s.proofs cl = true ∧ tget s.proofs o = false then
      ∃ t, exec (.clearFaultElement dt obj) s = .next t ∧ s.onlyRide dt t ∧ t.selection = none ∧
        t.answered s.selection.isSome .done ∧ s.told.Keeps t.ride ∧
        (s.ride.latched = true → t.ride.element? z = some (.brake .closed .close))
    else ∃ t, exec (.clearFaultElement dt obj) s = .next t ∧ s.turnedAway (.clearFaultElement dt obj) .conflict t := by
  have rule := clearElementRule_named (dt := dt) mode named (by rw [brake]; simp)
  have levels : (s.asked dt).ctx.brakeLevels z = (tget s.proofs o, tget s.proofs cl) :=
    brakeLevels_brake (c := (s.asked dt).ctx) (zoneNamed_spec named).1 brake
  have faulted : (s.asked dt).ride.elementFaulted z = true := (asked_elementFaulted s dt z).trans (elementFaulted_of he)
  simp only [clearElement, faulted, levels, Bool.not_true, Bool.false_eq_true, if_false, Bool.and_eq_true, Bool.not_eq_true'] at rule
  split
  · next h =>
    rw [if_pos h] at rule
    have h : s.Did dt (fun c r => brakeBecomes c z .closed .close r) _ := ordinary_did hs (own := clearElementRule obj) rule
    have near : s.told.Keeps (brakeBecomes (s.asked dt).ctx z .closed .close s.told) := by
      have put : s.told.Keeps (s.told.putElement z (.brake .closed .close)) :=
        ⟨fun _ _ => rfl, fun _ => rfl, fun _ => rfl, fun _ => rfl, fun _ h => h, fun _ h => h⟩
      exact put.trans (brakeBecomes_after z .closed .close).keeps
    refine ⟨_, rfl, h.only, h.closed, h.answered, near.trans h.keeps, fun latched => ?_⟩
    have stopped : s.told.latched = true := (told_latched s).trans latched
    have stays : (brakeBecomes (s.asked dt).ctx z .closed .close s.told).latched = true :=
      (brakeBecomes_after (c := (s.asked dt).ctx) z .closed .close).latched stopped
    have same := conclude_calm (c := (s.asked dt).ctx) (before := s.told) (.inr stays)
    rw [h.ride, same.element? rfl, tellLatched_same (.inl stopped), brakeBecomes_element, if_pos rfl]
  · next h =>
    rw [if_neg h] at rule
    exact ⟨_, rfl, ordinary_turnedAway (i := .clearFaultElement dt obj) hs rfl rule rfl⟩

/-- CLEAR_FAULT of a switch in FAULT. -/
theorem clearFaultSwitch_cases {obj : Byte} {d : SwitchDesc} {cause : SwitchFault} {side : Side} (hs : s.takes) (mode : s.mode ≠ .config)
    (named : s.map.switchNamed obj.toNat = some (w, d)) (hx : s.ride.switch? w = some x) (fault : x.pos = .fault cause) :
    (tget s.proofs d.proofA = tget s.proofs d.proofB →
      ∃ t, exec (.clearFaultSwitch dt obj) s = .next t ∧ s.turnedAway (.clearFaultSwitch dt obj) .conflict t) ∧
    (tget s.proofs d.proofA = (side == .a) → tget s.proofs d.proofB = (side == .b) → s.ride.claim? d.zone ≠ some .clear →
      x.committed ≠ some side →
      ∃ t, exec (.clearFaultSwitch dt obj) s = .next t ∧ s.turnedAway (.clearFaultSwitch dt obj) .conflict t) ∧
    (tget s.proofs d.proofA = (side == .a) → tget s.proofs d.proofB = (side == .b) →
      (s.ride.claim? d.zone = some .clear ∨ x.committed = some side) →
      ∃ t, exec (.clearFaultSwitch dt obj) s = .next t ∧ s.onlyRide dt t ∧ t.selection = none ∧
        t.answered s.selection.isSome .done ∧ s.told.Keeps t.ride ∧
        (s.ride.latched = true → x.pending = none →
          (∀ reqA reqB arb served, x.role = .merge reqA reqB arb served → reqA = none ∧ reqB = none) →
          t.ride.lockOf w = some side)) := by
  have rule := clearSwitchRule_named (dt := dt) mode named hx
  have faulted : x.pos.faulted = true := by rw [fault]; rfl
  have clear : switchZoneClear (s.asked dt).ctx (s.asked dt).ride w = true ↔ s.ride.claim? d.zone = some .clear := by
    rw [switchZoneClear_iff (switchNamed_spec named).1]
    show s.told.claim? d.zone = _ ↔ _
    rw [(told_within s).claim? rfl]
  have proofs : (s.asked dt).proofs = s.proofs := rfl
  unfold clearSwitch at rule
  rw [faulted, proofs] at rule
  simp only [Bool.not_true, Bool.false_eq_true, if_false] at rule
  refine ⟨fun same => ?_, fun hA hB taken apart => ?_, fun hA hB may => ?_⟩
  · rw [provenSide_none same] at rule
    exact ⟨_, rfl, ordinary_turnedAway (i := .clearFaultSwitch dt obj) hs rfl rule rfl⟩
  · rw [provenSide_of hA hB] at rule
    have taken' : switchZoneClear (s.asked dt).ctx (s.asked dt).ride w = false := by
      rw [← Bool.not_eq_true, clear]
      exact taken
    dsimp only at rule
    rw [if_pos ⟨taken', apart⟩] at rule
    exact ⟨_, rfl, ordinary_turnedAway (i := .clearFaultSwitch dt obj) hs rfl rule rfl⟩
  · rw [provenSide_of hA hB] at rule
    have may' : ¬(switchZoneClear (s.asked dt).ctx (s.asked dt).ride w = false ∧ x.committed ≠ some side) := by
      rintro ⟨taken, apart⟩
      rw [← Bool.not_eq_true, clear] at taken
      exact may.elim taken apart
    dsimp only at rule
    rw [if_neg may'] at rule
    have h : s.Did dt (fun c r => lockSwitch c w side r) _ := ordinary_did hs (own := clearSwitchRule obj) rule
    have lock : s.told.Keeps (lockSwitch (s.asked dt).ctx w side s.told) := by
      have within := lockSwitch_within (c := (s.asked dt).ctx) (r := s.told) w side
      have zones : s.told.SameZones _ := .of_within within rfl
      exact ⟨zones.held, zones.fault, zones.speed, within.standing rfl, fun cause hc => by rwa [Ride.cause?, within.causes rfl],
        fun n hn => by rwa [Ride.notice?, within.notices rfl]⟩
    refine ⟨_, rfl, h.only, h.closed, h.answered, lock.trans h.keeps, fun latched pending free => ?_⟩
    have stopped : s.told.latched = true := (told_latched s).trans latched
    rw [h.ride]
    exact lockSwitch_stays (.inr stopped) stopped (((told_within s).switch? rfl w).trans hx) pending free

/-- Settles O42. -/
theorem clearFaults : Obligations.ClearFaults := by
  refine ⟨fun s dt f z d x hs mode arg named hx => ?_, fun s dt obj b d x cause hs mode named hx fault =>
      clearFaultBoundary_cases hs mode named hx fault,
    fun s dt obj hs mode => ⟨fun b d x named hx sound => ⟨_, rfl, ?_⟩, fun z d named element sound => ⟨_, rfl, ?_⟩,
      fun w d x named hx sound => ⟨_, rfl, ?_⟩⟩,
    fun s dt obj z d o c ms cause cmd hs mode named brake he => clearFaultElement_cases hs mode named brake he,
    fun s dt obj w d x cause side hs mode named hx fault => clearFaultSwitch_cases hs mode named hx fault⟩
  · obtain ⟨clears, conflict⟩ := clearFaultZone_cases (dt := dt) hs mode arg named hx
    exact ⟨clears, fun b y bd cause hb at_ hy fault => conflict (faultBeside_of hb at_ hy fault)⟩
  · refine ordinary_turnedAway (i := .clearFaultBoundary dt obj) hs rfl (own := clearBoundaryRule obj) ?_ rfl
    exact (clearBoundaryRule_named mode named).trans (clearBoundary_sound (s := s.asked dt) hx sound)
  · refine ordinary_turnedAway (i := .clearFaultElement dt obj) hs rfl (own := clearElementRule obj) ?_ rfl
    have free : (s.asked dt).ride.elementFaulted z = false := (asked_elementFaulted s dt z).trans (elementFaulted_not sound)
    refine (clearElementRule_named mode named element).trans ?_
    simp [clearElement, free, Instr.wait]
  · refine ordinary_turnedAway (i := .clearFaultSwitch dt obj) hs rfl (own := clearSwitchRule obj) ?_ rfl
    refine (clearSwitchRule_named mode named hx).trans ?_
    simp [clearSwitch, faulted_not sound, Instr.wait]

end Sys2Proof.Machine
end

section
/-! PROOF. What a station's state goes through to the end of a step, and DISPATCH and CANCEL_DISPATCH (R149 to R152). -/

namespace Sys2Proof.Machine

variable {i : Instr} {s t : State} {dt : Nat} {f : Frame} {c : Ctx} {a b r : Ride} {z u : ZoneIx} {k : SlotIx}
  {x y : Train} {st v : StationIx} {p : Pairing} {S S' : StationState → Prop} {e : StationEvent}

/-! ### A station's state through the operations of a step -/

/-- Station `st` has the pairing `p`, and its state meets `S`. -/
def Ride.StationAt (st : StationIx) (p : Pairing) (S : StationState → Prop) (r : Ride) : Prop :=
  ∃ y, r.station? st = some y ∧ y.pairing = p ∧ S y.state

/-- The zone names station `st`. -/
def Ctx.Serves (c : Ctx) (z : ZoneIx) (st : StationIx) : Prop := (c.map.zone z).bind (·.station) = some st

/-- `S` is closed under event `e` at station `st`. -/
def Ctx.Closed (c : Ctx) (st : StationIx) (S : StationState → Prop) (e : StationEvent) : Prop :=
  ∀ state, S state → S (state.next (c.stationProofs st) e)

theorem Ride.StationAt.within {q : Parts} (h : a.StationAt st p S) (k : Ride.Within q a b) (stations : q.stations = false) : b.StationAt st p S := by
  obtain ⟨y, hy, rest⟩ := h
  exact ⟨y, (k.station? stations st).trans hy, rest⟩

theorem Ride.StationAt.imp (h : r.StationAt st p S) (imp : ∀ state, S state → S' state) : r.StationAt st p S' := by
  obtain ⟨y, hy, pairing, state⟩ := h
  exact ⟨y, hy, pairing, imp _ state⟩

/-- An event at its own station takes the state one transition on (Table 8-3). -/
theorem stationEvent_same {y : StationRec} (hy : r.station? st = some y) (e : StationEvent) :
    (stationEvent c st e r).station? st = some { y with state := y.state.next (c.stationProofs st) e } := by
  have put (y : StationRec) (r : Ride) : (r.putStation st y).station? st = some y := tget_tput_same ..
  simp only [stationEvent, hy]
  split
  · rw [(report_within _).station? rfl]
    split
    · exact put _ _
    · exact put _ _
  · split
    · exact put _ _
    · exact put _ _

theorem stationEvent_other (h : st ≠ v) (e : StationEvent) : (stationEvent c v e r).station? st = r.station? st := by
  have put (y : StationRec) (r : Ride) : (r.putStation v y).station? st = r.station? st := tget_tput_other _ _ _ _ h
  unfold stationEvent
  split
  · rfl
  · dsimp only
    split
    · rw [(report_within _).station? rfl]
      split
      · exact put _ _
      · exact put _ _
    · split
      · exact put _ _
      · exact put _ _

theorem Ride.StationAt.event (h : r.StationAt st p S) (own : v = st → ∀ state, S state → S' (state.next (c.stationProofs st) e))
    (other : v ≠ st → ∀ state, S state → S' state) : (stationEvent c v e r).StationAt st p S' := by
  obtain ⟨y, hy, pairing, state⟩ := h
  by_cases hv : v = st
  · subst hv
    exact ⟨_, stationEvent_same hy e, pairing, own rfl _ state⟩
  · exact ⟨y, (stationEvent_other (Ne.symm hv) e).trans hy, pairing, other hv _ state⟩

theorem Ride.StationAt.zoneEvent (h : r.StationAt st p S) (own : c.Serves z st → ∀ state, S state → S' (state.next (c.stationProofs st) e))
    (other : ¬c.Serves z st → ∀ state, S state → S' state) : (zoneStationEvent c z e r).StationAt st p S' := by
  unfold zoneStationEvent
  split
  · next v hv => exact h.event (fun e => own (e ▸ hv)) fun ne => other fun e => ne (Option.some.inj (hv.symm.trans e))
  · next none => exact h.imp (other fun e => by rw [Ctx.Serves, none] at e; cases e)

theorem Ride.StationAt.zoneClosed (h : r.StationAt st p S) (own : c.Serves z st → c.Closed st S e) : (zoneStationEvent c z e r).StationAt st p S :=
  h.zoneEvent own fun _ _ h => h

/-- A claim that changes no occupant tells no station (R146). -/
theorem setClaim_stationAt {new : Claim} (quiet : r.occupant? z = none ∧ new.occupant = none) (h : r.StationAt st p S) :
    (setClaim c z new r).StationAt st p S := by
  unfold setClaim
  split
  · exact h
  · next zr hz =>
    have old : zr.claim.occupant = none := by
      have e := quiet.1
      rwa [Ride.occupant?, Ride.claim?, hz, Option.map_some, Option.bind_some] at e
    unfold claimToStation
    rw [old, quiet.2]
    exact (h.within (putZone_within z _) rfl).within (claimToSwitch_within z _ _) rfl

theorem setClaim_occupant_none {new : Claim} (quiet : new.occupant = none) (h : r.occupant? u = none) : (setClaim c z new r).occupant? u = none := by
  rw [Ride.occupant?, setClaim_claim?]
  split
  · cases r.claim? z <;> simp [quiet]
  · exact h

theorem chainReserved_stationAt {chain : List ZoneIx} (free : ∀ z ∈ chain, r.claim? z = some .clear) (h : r.StationAt st p S) :
    (chainReserved c k x chain r).StationAt st p S := by
  have claimed (l : List ZoneIx) (r : Ride) (hr : r.StationAt st p S) (empty : ∀ z ∈ l, r.occupant? z = none) :
      (l.foldl (fun r z => setClaim c z (.reserved k) r) r).StationAt st p S := by
    induction l generalizing r with
    | nil => exact hr
    | cons z zs ih =>
      refine ih _ (setClaim_stationAt ⟨empty z (List.mem_cons_self ..), rfl⟩ hr) fun u hu => ?_
      exact setClaim_occupant_none rfl (empty u (List.mem_cons_of_mem _ hu))
  have empty (z : ZoneIx) (hz : z ∈ chain) : (r.putTrain k { x with chain := chain }).occupant? z = none := by
    have clear : (r.putTrain k { x with chain := chain }).claim? z = some .clear := free z hz
    rw [Ride.occupant?, clear]
    rfl
  have reserved := claimed chain (r.putTrain k { x with chain := chain }) (h.within (putTrain_within k _) rfl) empty
  unfold chainReserved
  exact reserved.within (q := { switches := true, trains := true }) (.foldl (fun _ z => reservedAt_within k z) chain _) rfl

theorem returnChain_stationAt (h : r.StationAt st p S) : (returnChain c k r).StationAt st p S := by
  unfold returnChain
  split
  · exact h
  · refine foldl_induct (Ride.StationAt st p S) _ (fun r z k' => ?_) _ _ (h.within (putTrain_within k _) rfl)
    split
    · next hz => exact setClaim_stationAt ⟨by rw [Ride.occupant?, hz]; rfl, rfl⟩ k'
    · exact k'

/-! ### Elements -/

theorem provenOpen_stationAt (own : c.Serves z st → c.Closed st S .leftHeld) (h : r.StationAt st p S) : (provenOpen c z r).StationAt st p S := by
  unfold provenOpen
  split
  · exact h
  · next k _ =>
    split
    · exact h
    · next x _ =>
      split
      · next hr =>
        obtain ⟨-, rfl⟩ := hr
        have put : (r.putTrain k { x with
            phase := .running, dir := .forward, deadline := some (deadlineFrom .journey c.now (c.releaseAllowance x.head)) }).StationAt st p S :=
          h.within (putTrain_within k _) rfl
        unfold changeTrain occupantStationEvent
        simp only [reduceCtorEq, and_false, if_false]
        split
        · split
          · exact put.zoneClosed own
          · exact put
        · exact put
      · exact h

theorem provenClosed_stationAt (own : c.Serves z st → c.Closed st S .provenClosed) (h : r.StationAt st p S) : (provenClosed c z r).StationAt st p S := by
  unfold provenClosed
  split
  · exact h
  · split
    · exact h
    · split
      · exact (returnChain_stationAt h).zoneClosed own
      · exact h

theorem brakeBecomes_stationAt {state : BrakeState} {cmd : ElementCommand} (opened : state = .opened → c.Serves z st → c.Closed st S .leftHeld)
    (closed : state = .closed → c.Serves z st → c.Closed st S .provenClosed) (h : r.StationAt st p S) :
    (brakeBecomes c z state cmd r).StationAt st p S := by
  have put : (r.putElement z (.brake state cmd)).StationAt st p S := h.within (putElement_within z _) rfl
  cases state with
  | opened => exact provenOpen_stationAt (opened rfl) put
  | closed => exact provenClosed_stationAt (closed rfl) put
  | fault cause => exact (put.within (raise_within _) rfl).within (report_within _) rfl
  | opening due => exact put
  | closing due => exact put

theorem driveArrives_stationAt {cmd : ElementCommand} (opened : cmd ≠ .close → c.Serves z st → c.Closed st S .leftHeld)
    (closed : cmd = .close → c.Serves z st → c.Closed st S .provenClosed) (h : r.StationAt st p S) :
    (driveArrives c z cmd r).StationAt st p S := by
  unfold driveArrives
  split
  · exact provenClosed_stationAt (closed rfl) (h.within (putElement_within z _) rfl)
  · next ne => exact provenOpen_stationAt (opened ne) (h.within (putElement_within z _) rfl)

/-- What a command to an element can tell the station of its zone (R132). -/
theorem commandElement_stationAt {cmd : ElementCommand} (opened : cmd ≠ .close → c.Serves z st → c.Closed st S .leftHeld)
    (closed : cmd = .close → c.Serves z st → c.Closed st S .provenClosed) (h : r.StationAt st p S) :
    (commandElement c z cmd r).StationAt st p S := by
  unfold commandElement
  split
  · next state _ _ =>
    unfold brakeCommand
    by_cases hc : cmd = .close
    · subst hc
      have flight := commanded_close_atLevels state (c.proofDue z) (c.brakeLevels z).1 (c.brakeLevels z).2
      have never := commanded_close_opened state (c.proofDue z)
      split
      · exact h.within (putElement_within z _) rfl
      · next e => exact absurd e never
      · exact brakeBecomes_stationAt (fun e => by cases e) (fun _ => closed rfl) h
      · exact brakeBecomes_stationAt (fun e => absurd e flight) (fun _ => closed rfl) h
    · rcases commanded_open (st := state) (due := c.proofDue z) hc with e | e | ⟨cause, e⟩ <;> rw [e]
      · exact brakeBecomes_stationAt (fun _ => opened hc) (fun e => absurd e (atLevels_opening _ _ _)) h
      · exact brakeBecomes_stationAt (fun _ => opened hc) (fun e => by cases e) h
      · exact h.within (putElement_within z _) rfl
  · unfold driveCommand
    split
    · exact h
    · split
      · next i _ _ _ ch d _ _ =>
        generalize (if stopsAtOnce r d cmd then (ch.restingAt 0, true) else ch.aimed (cmd.codeOn d) (dueAfter c.now d.interval)) = aim
        have put : (r.putChannel i aim.1).StationAt st p S := h.within (putChannel_within i _) rfl
        dsimp only
        split
        · exact driveArrives_stationAt opened closed put
        · exact put.within (driveInFlight_within z cmd) rfl
      · exact h
  · exact h

theorem closeElement_stationAt (closed : c.Serves z st → c.Closed st S .provenClosed) (h : r.StationAt st p S) :
    (closeElement c z r).StationAt st p S := by
  have under : (closeUnderTrain c z r).StationAt st p S := by
    unfold closeUnderTrain
    split
    · exact h
    · split
      · exact h
      · next x _ =>
        split
        · next hr =>
          unfold changeTrain
          simp only [hr.1, reduceCtorEq, false_and, and_false, if_false]
          exact h.within (putTrain_within _ _) rfl
        · exact h
  unfold closeElement
  split
  · exact h
  · exact commandElement_stationAt (fun ne => absurd rfl ne) (fun _ => closed) under

/-- An open command tells the station of its zone that the release begins, and nothing more (R152). -/
theorem openElement_stationAt {creep : Bool} (opens : c.Serves z st → c.Closed st S .openCommand) (h : r.StationAt st p S) :
    (openElement c z creep r).StationAt st p S := by
  unfold openElement
  split
  · exact h
  · next e _ =>
    have open_ : (match e with
        | .brake _ _ => ElementCommand.openRun
        | .drive _ _ => if creep then .openCreep else .openRun) ≠ .close := by
      cases e with
      | brake => simp
      | drive => cases creep <;> simp
    have told : (zoneStationEvent c z .openCommand r).StationAt st p
        fun state => S state ∧ (c.Serves z st → state.next (c.stationProofs st) .leftHeld = state) := by
      refine h.zoneEvent (fun serves state hs => ⟨opens serves state hs, fun _ => ?_⟩) fun apart state hs => ⟨hs, fun serves => absurd serves apart⟩
      cases state <;> rfl
    refine (commandElement_stationAt (fun _ serves state hs => ?_) (fun e => absurd e open_) told).imp fun state hs => hs.1
    rw [hs.2 serves]
    exact hs

theorem reserveChain_stationAt {chain : List ZoneIx} {creep : Bool} (hx : r.train? k = some x) (free : ∀ z ∈ chain, r.claim? z = some .clear)
    (opens : c.Serves x.head st → c.Closed st S .openCommand) (h : r.StationAt st p S) : (reserveChain c k chain creep r).StationAt st p S := by
  rw [reserveChain_eq hx]
  exact openElement_stationAt opens ((chainReserved_stationAt free h).within (putPresented_within k none) rfl)

theorem channelStop_stationAt {j : ChannelIx} (closed : c.Closed st S .provenClosed) (h : r.StationAt st p S) :
    (channelStop c j r).StationAt st p S := by
  unfold channelStop
  split
  · next ch d _ _ =>
    generalize (if d.profile = .immediate then (ch.restingAt 0, true) else ch.aimed 0 (dueAfter c.now d.interval)) = aim
    have put : (r.putChannel j aim.1).StationAt st p S := h.within (putChannel_within j _) rfl
    dsimp only
    split
    · exact put
    · split
      · split
        · next hc =>
          exact driveArrives_stationAt (fun ne => absurd hc.1 ne) (fun _ _ => closed) put
        · exact put.within (putElement_within _ _) rfl
      · exact put
  · exact h

theorem stopRide_stationAt (closed : c.Closed st S .provenClosed) (cancel : c.Closed st S .cancel) (h : r.StationAt st p S) :
    (r.stopRide c).StationAt st p S :=
  overAll_induct (Ride.StationAt st p S) _ (fun _ _ k => k.event (fun _ => cancel) fun _ _ h => h) _
    (overAll_induct (Ride.StationAt st p S) _ (fun _ _ k => channelStop_stationAt closed k) _
      (overAll_induct (Ride.StationAt st p S) _ (fun _ _ k => closeElement_stationAt (fun _ => closed) k) _ h))

/-! ### The end of a step -/

/-- `S` is closed under the releases that the interlock's own reservations begin: at a STATION zone only a demand is released (R29). -/
def Ctx.Releases (c : Ctx) (st : StationIx) (S : StationState → Prop) : Prop :=
  ∀ z d state, c.map.zone z = some d → d.station = some st → (d.kind = .station → state.isPending = true) → S state →
    S (state.next (c.stationProofs st) .openCommand)

theorem reserve_stationAt {chain : List ZoneIx} (releases : c.Releases st S) (hx : r.train? k = some x) (he : eligible c r x = true)
    (ha : chainAvailable c r k false x.head chain = true) (h : r.StationAt st p S) : (reserveChain c k chain false r).StationAt st p S := by
  obtain ⟨y, hy, pairing, state⟩ := h
  have one : r.StationAt st p fun s => s = y.state := ⟨y, hy, pairing, rfl⟩
  by_cases serves : c.Serves x.head st
  · obtain ⟨d, hd, hs⟩ := Option.bind_eq_some_iff.mp serves
    have pending : d.kind = .station → y.state.isPending = true := fun hk => by
      unfold eligible at he
      rw [Bool.and_eq_true] at he
      have meets := he.2
      simp only [stationMeets, hd, hk, hs, bne_self_eq_false, Bool.false_or, Option.any_some, hy] at meets
      exact meets
    have one : r.StationAt st p fun s => S s ∧ (s = y.state ∨ s = y.state.next (c.stationProofs st) .openCommand) :=
      ⟨y, hy, pairing, state, .inl rfl⟩
    have again (s : StationState) (p : Bool) : (s.next p .openCommand).next p .openCommand = s.next p .openCommand := by cases s <;> rfl
    refine (reserveChain_stationAt hx (chainAvailable_clear ha) (fun _ s hs' => ?_) one).imp fun s hs' => hs'.1
    have opened := releases x.head d y.state hd hs pending state
    rcases hs'.2 with rfl | rfl
    · exact ⟨opened, .inr rfl⟩
    · rw [again]
      exact ⟨opened, .inr rfl⟩
  · exact (reserveChain_stationAt hx (chainAvailable_clear ha) (fun s => absurd s serves) one).imp fun s e => e ▸ state

/-- A station through the interlock's reconsideration. -/
theorem reconsider_stationAt (releases : c.Releases st S) (h : r.StationAt st p S) : (reconsider c r).StationAt st p S := by
  unfold reconsider
  refine overAll_induct (Ride.StationAt st p S) _ (fun k r hr => ?_) _ (h.within (presentations_within r) rfl)
  unfold reserveIfAvailable
  split
  · split
    · next x chain hx _ he =>
      rw [Bool.and_eq_true] at he
      exact reserve_stationAt releases hx he.1 he.2 hr
    · exact hr
  · exact hr

/-- A station through the end of a step. -/
theorem conclude_stationAt {before after : Ride} (releases : c.Releases st S) (closed : c.Closed st S .provenClosed)
    (cancel : c.Closed st S .cancel) (h : after.StationAt st p S) : (conclude c before after).StationAt st p S :=
  conclude_induct (Ride.StationAt st p S) (fun _ _ k h => h.within k rfl) (fun _ _ _ _ hx he ha h => reserve_stationAt releases hx he ha h)
    (fun _ h => stopRide_stationAt closed cancel h) h

/-- A step that leaves the latch clear ends with the reconsideration of its own effects. -/
theorem conclude_on {before after : Ride} (on : (conclude c before after).latched = false) : conclude c before after = reconsider c after := by
  have clear : after.latched = false := by
    rw [← Bool.not_eq_true]
    exact fun e => absurd ((conclude_narrow (c := c) (before := before)).latched e) (by simp [on])
  unfold conclude at on ⊢
  dsimp only at on ⊢
  rw [tellLatched_same (.inr clear)] at on ⊢
  cases h : (reconsider c after).latched with
  | false => simp
  | true =>
    simp only [clear, h, Bool.not_false, Bool.and_self, if_true] at on
    have stays : (reconsider c ((reconsider c after).stopRide c)).latched = true :=
      (reconsider_changes (w := true) (o := true) (q := true) (.inr rfl)).latched ((stopRide_changes (w := true) (o := true) (q := true)).latched h)
    rw [stays] at on
    cases on

/-! ### DISPATCH and CANCEL_DISPATCH -/

theorem told_station? (s : State) (st : StationIx) : s.told.station? st = s.ride.station? st := (told_within s).station? rfl st

theorem stationState_of {y : StationRec} (hy : r.station? st = some y) : r.stationState st = y.state := by simp [Ride.stationState, hy]

theorem dispatchRule_ready {d : StationDesc} {y : StationRec} (mode : s.mode = .auto) (named : s.map.stationNamed f.obj.toNat = some (st, d))
    (hy : s.ride.station? st = some y) (authority : d.authority ≠ .buttons) (on : s.ride.latched = false) (ready : y.state = .ready) :
    dispatchRule f (s.asked dt) =
      (.done, (s.asked dt).onRide fun c r => stationEvent c st (.demand .link (dueAfter c.now d.dispatchWait)) r) := by
  have mode' : (s.asked dt).mode = .auto := mode
  have named' : (s.asked dt).map.stationNamed (objectOf f) = some (st, d) := named
  have on' : (s.asked dt).ride.latched = false := (told_latched s).trans on
  have state : (s.asked dt).ride.stationState st = .ready := (stationState_of ((told_station? s st).trans hy)).trans ready
  simp [dispatchRule, mode', named', authority, on', state]

theorem cancelRule_named {d : StationDesc} {y : StationRec} (mode : s.mode ≠ .config) (named : s.map.stationNamed f.obj.toNat = some (st, d))
    (hy : s.ride.station? st = some y) : cancelRule f (s.asked dt) =
      if y.state.isReleasing then (.conflict, s.asked dt)
      else if y.state.isPending then (.done, (s.asked dt).onRide fun c r => stationEvent c st .cancel r)
      else (.done, s.asked dt) := by
  have mode' : (s.asked dt).mode ≠ .config := mode
  have named' : (s.asked dt).map.stationNamed (objectOf f) = some (st, d) := named
  have state : (s.asked dt).ride.stationState st = y.state := stationState_of ((told_station? s st).trans hy)
  simp only [cancelRule, mode', named', state, if_false]
  rfl

/-- A demand formed at a READY station stands, or is released, where the ride is not stopped (R148, R149, R152). -/
theorem demand_stands {y : StationRec} {source : DemandSource} {due : Nat} {before : Ride} (hy : r.station? st = some y)
    (ready : y.state = .ready) (on : (conclude c before (stationEvent c st (.demand source due) r)).latched = false) :
    (conclude c before (stationEvent c st (.demand source due) r)).StationAt st y.pairing
      fun state => state = .pending source due ∨ state = .releasing false := by
  rw [conclude_on on]
  refine reconsider_stationAt (fun z d state _ _ _ hs => ?_) ⟨_, stationEvent_same hy _, rfl, .inl (by rw [ready]; rfl)⟩
  rcases hs with rfl | rfl
  · exact .inr rfl
  · exact .inr rfl

/-- A demand cancelled stays cancelled to the end of the step; at a station of STATION zones alone the station is then READY
(R150). -/
theorem cancelled_stands {y : StationRec} {before : Ride} (hy : r.station? st = some y) (pending : y.state.isPending = true) :
    (conclude c before (stationEvent c st .cancel r)).StationAt st y.pairing fun state => state.isPending = false ∧
      ((∀ z zd, c.map.zone z = some zd → zd.station = some st → zd.kind = .station) → state = .ready) := by
  have cancelled : y.state.next (c.stationProofs st) .cancel = .ready := by
    cases hs : y.state with
    | pending source due => rfl
    | _ => rw [hs] at pending; cases pending
  refine conclude_stationAt (fun z d state hd hst demand hs => ⟨?_, fun stations => ?_⟩) (fun state hs => ⟨?_, fun stations => ?_⟩)
    (fun state hs => ⟨?_, fun stations => ?_⟩) ⟨_, stationEvent_same hy _, rfl, by rw [cancelled]; rfl, fun _ => cancelled⟩
  · cases state <;> rfl
  · have ready := hs.2 stations
    have none := demand (stations z d hd hst)
    rw [ready] at none
    cases none
  · cases state with
    | pending source due => exact hs.1
    | releasing departing => cases c.stationProofs st <;> rfl
    | _ => rfl
  · rw [hs.2 stations]
    rfl
  · cases state <;> rfl
  · rw [hs.2 stations]
    rfl

/-- A cancelled demand is reported (R150). -/
theorem cancel_notice {y : StationRec} (hy : r.station? st = some y) (pending : y.state.isPending = true) :
    (stationEvent c st .cancel r).notice? .dispatchCancelled = true := by
  cases hs : y.state with
  | pending source due =>
    simp only [stationEvent, hy, hs, StationState.next, cancelsDemand, StationState.isPending, StationState.isReleasing, stationUnproven,
      Bool.not_false, Bool.and_self, if_true, Bool.false_eq_true, if_false]
    exact raise_notice _ _
  | _ => rw [hs] at pending; cases pending

/-- Settles O43. -/
theorem dispatchAndCancel : Obligations.DispatchAndCancel := by
  intro s dt f st d x hs named hx
  have hx' := (told_station? s st).trans hx
  refine ⟨fun mode authority on ready => ⟨_, rfl, ?_⟩, fun mode pending => ⟨_, rfl, ?_⟩, fun mode releasing => ⟨_, rfl, ?_⟩,
    fun mode idle still => ⟨_, rfl, ?_⟩⟩
  · have h : s.Did dt (fun c r => stationEvent c st (.demand .link (dueAfter c.now d.dispatchWait)) r) _ :=
      ordinary_did hs (own := dispatchRule f) (dispatchRule_ready mode named hx authority on ready)
    refine ⟨h.only, h.closed, h.answered, (stationEvent_changes (w := false) (o := false) (q := false) st _).keeps.trans h.keeps, fun on => ?_⟩
    rw [h.ride] at on ⊢
    obtain ⟨y, hy, -, state⟩ := demand_stands hx' ready on
    refine ⟨y, hy, state.imp_right fun e => ?_⟩
    rw [e]
    rfl
  · have rule := cancelRule_named (dt := dt) mode named hx
    have still : x.state.isReleasing = false := by
      cases hst : x.state with
      | releasing b => rw [hst] at pending; cases pending
      | _ => rfl
    rw [still, pending] at rule
    have h : s.Did dt (fun c r => stationEvent c st .cancel r) _ := ordinary_did hs (own := cancelRule f) rule
    obtain ⟨y, hy, pairing, state, ready⟩ := cancelled_stands (c := (s.asked dt).ctx) (before := s.told) hx' pending
    exact ⟨h.only, h.closed, h.answered, (stationEvent_changes (w := false) (o := false) (q := false) st _).keeps.trans h.keeps,
      h.keeps.notices _ (cancel_notice hx' pending), y, h.ride ▸ hy, state, pairing, ready⟩
  · have rule := cancelRule_named (dt := dt) mode named hx
    rw [releasing] at rule
    exact ordinary_turnedAway (i := .cancelDispatch dt f) hs rfl rule rfl
  · have rule := cancelRule_named (dt := dt) mode named hx
    rw [still, idle] at rule
    exact ordinary_turnedAway (i := .cancelDispatch dt f) hs rfl rule rfl

end Sys2Proof.Machine
end

section
/-! PROOF. SET_ROUTE_MODE and MOVE_SWITCH (R112, R122, R123). -/

namespace Sys2Proof.Machine

variable {i : Instr} {s t : State} {dt : Nat} {f : Frame} {c : Ctx} {a b r : Ride} {z u : ZoneIx} {w : SwitchIx} {d : SwitchDesc}
  {x y : SwitchRec} {side : Side}

theorem routeModeOf_code (mode : RouteMode) : routeModeOf mode.code = some mode := by cases mode <;> rfl

theorem sideOf_code (side : Side) : sideOf side.code = some side := by cases side <;> rfl

theorem routeModeRule_named {old new : RouteMode} (named : s.map.switchNamed f.obj.toNat = some (w, d)) (diverge : d.kind = .diverge old)
    (arg : f.arg.toNat = new.code) : routeModeRule f (s.asked dt) =
      (.done, { s.asked dt with map := { s.map with switches := tput s.map.switches w (some { d with kind := .diverge new }) } }) := by
  have named' : (s.asked dt).map.switchNamed (objectOf f) = some (w, d) := named
  simp only [routeModeRule, named', argumentOf, arg, routeModeOf_code, diverge]
  rfl

theorem moveSwitchRule_named (mode : s.mode = .maintenance) (named : s.map.switchNamed f.obj.toNat = some (w, d))
    (arg : f.arg.toNat = side.code) (hx : s.ride.switch? w = some x) (clear : s.ride.claim? d.zone = some .clear)
    (rest : ∀ reqA reqB arb served, x.role = .merge reqA reqB arb served → reqA = none ∧ reqB = none ∧ arb = .idle)
    (sound : ∀ cause, x.pos ≠ .fault cause) :
    moveSwitchRule f (s.asked dt) = (.done, (s.asked dt).onRide fun c r => requestMove c w side .link r) := by
  have mode' : (s.asked dt).mode = .maintenance := mode
  have named' : (s.asked dt).map.switchNamed (objectOf f) = some (w, d) := named
  have hx' : (s.asked dt).ride.switch? w = some x := ((told_within s).switch? rfl w).trans hx
  have clear' : switchZoneClear (s.asked dt).ctx (s.asked dt).ride w = true :=
    (switchZoneClear_iff (switchNamed_spec named).1).mpr (((told_within s).claim? rfl _).trans clear)
  have idle : x.role.arbiterBusy = false := by
    cases hr : x.role with
    | diverge setting last => rfl
    | merge reqA reqB arb served =>
      obtain ⟨-, -, rfl⟩ := rest _ _ _ _ hr
      rfl
  simp [moveSwitchRule, mode', named', argumentOf, arg, sideOf_code, hx', clear', idle, faulted_not sound]

/-- A switch that is moving toward a side asserts that side's output (R108). -/
theorem switchOutput_moving {due : Nat} (hd : s.map.switch w = some d) (hx : s.ride.switch? w = some x) :
    x.pos = .moving side due → s.switchOutput (match side with | .a => d.outA | .b => d.outB) = true := by
  intro moving
  unfold State.switchOutput
  refine finRange_any (j := w) ?_
  obtain ⟨pos, pending, committed, role⟩ := x
  cases show pos = _ from moving
  cases side <;> simp [hx, hd]

/-- What a request from the link makes of a switch whose zone is CLEAR (Table 6-3). -/
theorem requestedMove_link (hd : c.map.switch w = some d) :
    match x.pos with
    | .locked at_ => (requestedMove c w true side .link x).pending = none ∧
      if at_ = side then (requestedMove c w true side .link x).pos = .locked side
      else (requestedMove c w true side .link x).pos = .moving side (c.now + d.timeout * 1000)
    | .moving toward due => (requestedMove c w true side .link x).pos = .moving toward due ∧
      (requestedMove c w true side .link x).pending = if toward = side then none else some (side, .link)
    | .fault _ => True := by
  cases hp : x.pos with
  | locked at_ =>
    dsimp only
    by_cases e : at_ = side
    · subst e
      rw [requestedMove_there hp, if_pos rfl]
      exact ⟨rfl, hp⟩
    · rw [requestedMove_away hp e, if_pos rfl, if_neg e]
      exact ⟨rfl, startedMove_pos hd side⟩
  | moving toward due =>
    dsimp only
    rw [requestedMove_moving hp]
    exact ⟨hp, rfl⟩
  | fault cause => trivial

/-- Settles O44. -/
theorem routeModesAndMoves : Obligations.RouteModesAndMoves := by
  refine ⟨fun s dt f w d old new hs named diverge arg => ⟨_, rfl, ?_⟩,
    fun s dt f w d x side hs mode named arg hx clear rest sound => ?_⟩
  · obtain ⟨answered, same⟩ := ordinary_answers (next := .nothing) hs (routeModeRule_named (dt := dt) named diverge arg)
    exact ⟨answered, by rw [same]; rfl⟩
  · have h : s.Did dt (fun c r => requestMove c w side .link r) _ :=
      ordinary_did hs (own := moveSwitchRule f) (moveSwitchRule_named mode named arg hx clear rest sound)
    have hd := (switchNamed_spec named).1
    have hx' : s.told.switch? w = some x := ((told_within s).switch? rfl w).trans hx
    have asked := requestMove_switch (c := (s.asked dt).ctx) hx' side .link
    rw [show switchZoneClear (s.asked dt).ctx s.told w = true from
      (switchZoneClear_iff hd).mpr (((told_within s).claim? rfl _).trans clear)] at asked
    have made := requestedMove_link (c := (s.asked dt).ctx) (x := x) (side := side) hd
    have settled : (requestedMove (s.asked dt).ctx w true side .link x).Settled := .inr fun reqA reqB arb served e => by
      rw [requestedMove_role] at e
      exact ⟨(rest _ _ _ _ e).1, (rest _ _ _ _ e).2.1⟩
    generalize requestedMove (s.asked dt).ctx w true side .link x = m at asked made settled
    have calm : (s.asked dt).ctx.calm (requestMove (s.asked dt).ctx w side .link s.told) :=
      .inl (by rw [show (s.asked dt).ctx.mode = s.mode from rfl, mode]; simp)
    have still : tellLatched (s.asked dt).ctx s.told (requestMove (s.asked dt).ctx w side .link s.told) = requestMove (s.asked dt).ctx w side .link s.told := by
      refine tellLatched_same ?_
      rw [(requestMove_within w side .link).latched rfl]
      cases s.told.latched <;> simp
    obtain ⟨y, hy, rested, -⟩ := conclude_settled calm (still ▸ asked) settled
    refine ⟨_, y, rfl, h.only, h.closed, h.answered, (requestMove_changes (w := false) (o := false) (q := false) w side .link).keeps.trans h.keeps,
      h.ride ▸ hy, ?_⟩
    cases hp : x.pos with
    | locked at_ =>
      rw [hp] at made
      obtain ⟨none, there⟩ := made
      have pending : y.pending = Option.none := rested.pending.elim (fun e => e.trans none) fun e => e.1
      refine ⟨pending, ?_⟩
      split
      · next e =>
        rw [if_pos e] at there
        exact rested.pos.trans there
      · next e =>
        rw [if_neg e] at there
        have moving := rested.pos.trans there
        obtain ⟨-, -, ⟨map, -⟩, -⟩ := h.only
        exact ⟨moving, switchOutput_moving (map ▸ hd) (h.ride ▸ hy) moving⟩
    | moving toward due =>
      rw [hp] at made
      obtain ⟨moving, pending⟩ := made
      refine ⟨rested.pos.trans moving, ?_⟩
      rcases rested.pending with e | ⟨-, side', e⟩
      · exact e.trans pending
      · rw [pending] at e
        split at e <;> cases e
    | fault cause => exact absurd hp (sound cause)

end Sys2Proof.Machine
end

section
/-! PROOF. Eligibility, chains and reservations in AUTO (R29 to R35). -/

namespace Sys2Proof.Machine

variable {i : Instr} {s t : State} {dt : Nat} {f : Frame} {c : Ctx} {a b r : Ride} {z u : ZoneIx} {k : SlotIx} {m : CircuitMap}
  {x y : Train} {chain : List ZoneIx}

/-! ### Eligibility (R29) -/

theorem stationDemand_iff {st : StationIx} : ((r.station? st).any fun sr => sr.state.isPending) = true ↔
    ∃ sr source due, r.station? st = some sr ∧ sr.state = .pending source due := by
  cases hs : r.station? st with
  | none => simp
  | some sr => cases hst : sr.state <;> simp [StationState.isPending, hst]

theorem eligible_iff : eligible c r x = true ↔ c.mode = .auto ∧ readyToReserve c r x = true ∧
    ∀ d, c.map.zone x.head = some d → d.kind = .station →
      ∃ st sr source due, d.station = some st ∧ r.station? st = some sr ∧ sr.state = .pending source due := by
  rw [eligible, Bool.and_eq_true, Bool.and_eq_true, beq_iff_eq, and_assoc]
  refine and_congr_right fun _ => and_congr_right fun ready => ?_
  rw [stationMeets_iff (readyToReserve_iff.mp ready).2.2.2.1]
  simp only [stationDemand_iff]
  constructor
  · intro h d hd hk
    obtain ⟨st, hst, sr, source, due, hsr, state⟩ := h d hd hk
    exact ⟨st, sr, source, due, hst, hsr, state⟩
  · intro h d hd hk
    obtain ⟨st, sr, source, due, hst, hsr, state⟩ := h d hd hk
    exact ⟨st, hst, sr, source, due, hsr, state⟩

/-! ### Chains (R30) -/

/-- What a chain is: each zone the successor of the one before, while that does not stop a train; and why it ends. -/
theorem chainFrom_spec (m : CircuitMap) (n : Nat) (z : ZoneIx) :
    (chainFrom m n z).head? = some z ∧ (chainFrom m n z).length ≤ n + 1 ∧
    (∀ j y, (chainFrom m n z)[j]? = some y → j + 1 < (chainFrom m n z).length →
      m.isNonStopping y = true ∧ (chainFrom m n z)[j + 1]? = m.successor y .a) ∧
    ∃ last, (chainFrom m n z).getLast? = some last ∧
      (m.isNonStopping last = false ∨ (chainFrom m n z).length = n + 1 ∨ m.successor last .a = none) := by
  have alone {n : Nat} (ends : m.isNonStopping z = false ∨ 1 = n + 1 ∨ m.successor z .a = none) :
      [z].head? = some z ∧ [z].length ≤ n + 1 ∧
      (∀ j y, [z][j]? = some y → j + 1 < [z].length → m.isNonStopping y = true ∧ [z][j + 1]? = m.successor y .a) ∧
      ∃ last, [z].getLast? = some last ∧ (m.isNonStopping last = false ∨ [z].length = n + 1 ∨ m.successor last .a = none) :=
    ⟨rfl, by simp, fun j y _ h => absurd h (by simp), z, rfl, ends⟩
  induction n generalizing z with
  | zero => exact alone (.inr (.inl rfl))
  | succ n ih =>
    unfold chainFrom
    split
    · next stops =>
      split
      · next u hu =>
        obtain ⟨head, length, links, last, hlast, ends⟩ := ih u (fun ends => ⟨rfl, by simp, fun j y _ h => absurd h (by simp), u, rfl, ends⟩)
        refine ⟨rfl, by simpa using length, fun j y hy hj => ?_, last, ?_, ?_⟩
        · cases j with
          | zero =>
            cases hy
            refine ⟨stops, ?_⟩
            rw [List.getElem?_cons_succ, ← List.head?_eq_getElem?, head, hu]
          | succ j => exact links j y (by simpa using hy) (by simpa using hj)
        · rw [List.getLast?_cons, hlast]
          rfl
        · simpa using ends
      · next none => exact alone (.inr (.inr none))
    · next stops => exact alone (.inl (by simpa using stops))

/-- A zone that a passed map names as a successor is configured. -/
theorem successor_configured (h : m.Passed) {side : Side} (hs : m.successor u side = some z) : ∃ d, m.zone z = some d := by
  unfold CircuitMap.successor at hs
  split at hs
  · cases hs
  · next d hd =>
    have named : z ∈ d.named := by
      rw [mem_named]
      split at hs
      · cases hs
      · split at hs
        · exact .inr hs
        · exact .inl hs
    obtain ⟨-, e, -, -, he, -⟩ := Passed.exit h hd named
    exact ⟨e, he⟩

theorem isStopping_of (hd : ∃ d, m.zone z = some d) (h : m.isNonStopping z = false) : m.isStopping z = true := by
  obtain ⟨d, hd⟩ := hd
  simp only [CircuitMap.isNonStopping, hd, beq_eq_false_iff_ne] at h
  simpa [CircuitMap.isStopping, hd] using h

/-- A non-stopping zone of a passed map has a successor (R18). -/
theorem nonStopping_successor (h : m.Passed) (hz : m.isNonStopping z = true) : m.successor z .a ≠ none := by
  cases hd : m.zone z with
  | none => simp [CircuitMap.isNonStopping, hd] at hz
  | some d =>
    have zone := zone_passed (h.zone z d hd)
    have element : d.element = .none := by simpa [CircuitMap.isNonStopping, hd] using hz
    have spur : d.kind ≠ .spur := fun e => zone.holds (by rw [e]; simp) element
    have ahead := zone.ahead spur
    rw [successor_a, hd, Option.bind_some, if_neg spur]
    intro e
    rw [e] at ahead
    cases ahead

/-- A chain of a passed map ends with a stopping zone (R18). -/
theorem chainFrom_stops (h : m.Passed) (hz : ∃ d, m.zone z = some d) {last : ZoneIx} (hl : (chainFrom m 3 z).getLast? = some last) :
    m.isStopping last = true := by
  obtain ⟨head, -, links, last', hlast, ends⟩ := chainFrom_spec m 3 z
  cases hl.symm.trans hlast
  have configured (j : Nat) : ∀ y, (chainFrom m 3 z)[j]? = some y → ∃ d, m.zone y = some d := by
    induction j with
    | zero =>
      intro y hy
      rw [← List.head?_eq_getElem?, head] at hy
      cases hy
      exact hz
    | succ j ih =>
      intro y hy
      have inside : j + 1 < (chainFrom m 3 z).length := (List.getElem?_eq_some_iff.mp hy).1
      obtain ⟨u, hu⟩ : ∃ u, (chainFrom m 3 z)[j]? = some u := ⟨_, List.getElem?_eq_getElem (by omega)⟩
      exact successor_configured h ((links j u hu inside).2.symm.trans hy)
  have known : ∃ d, m.zone last = some d := configured _ last (List.getLast?_eq_getElem? .. ▸ hl)
  refine isStopping_of known ?_
  rw [← Bool.not_eq_true]
  intro stops
  rcases ends with e | full | e
  · rw [stops] at e
    cases e
  · generalize chainFrom m 3 z = chain at full links hl
    match chain, full with
    | [a0, a1, a2, a3], _ =>
      cases hl
      have link0 := links 0 a0 rfl (by simp)
      have link1 := links 1 a1 rfl (by simp)
      have link2 := links 2 a2 rfl (by simp)
      cases hd : m.zone a0 with
      | none => simp [CircuitMap.isNonStopping, hd] at link0
      | some d =>
        exact Passed.runs h hd a1 a2 a3 link0.1 link1.1 link2.1 stops
          ⟨⟨.a, link0.2.symm⟩, ⟨.a, link1.2.symm⟩, ⟨.a, link2.2.symm⟩⟩
  · exact nonStopping_successor h stops e

/-- What the prospective chain of a train is, `first` being the zone it begins with (R30). -/
theorem prospectiveChain_spec {first : Option ZoneIx} (plain : c.map.divergeAt x.head = none → first = c.map.successor x.head .a)
    (diverge : ∀ w, c.map.divergeAt x.head = some w →
      (∀ sx side, r.switch? w = some sx → sx.pos = .locked side → first = c.map.successor x.head side) ∧
      ((∀ sx side, r.switch? w = some sx → sx.pos ≠ .locked side) → first = none)) :
    prospectiveChain c r x = first.map (chainFrom c.map 3) ∧ (first ≠ none → ∃ side, c.map.successor x.head side = first) := by
  unfold prospectiveChain chainSuccessor
  cases hw : c.map.divergeAt x.head with
  | none =>
    rw [plain hw]
    exact ⟨rfl, fun _ => ⟨_, rfl⟩⟩
  | some w =>
    obtain ⟨locked, unlocked⟩ := diverge w hw
    dsimp only
    by_cases h : ∃ sx side, r.switch? w = some sx ∧ sx.pos = .locked side
    · obtain ⟨sx, side, hs, hp⟩ := h
      have lock : r.lockOf w = some side := by rw [Ride.lockOf, hs, Option.bind_some, hp]; rfl
      rw [lock, locked sx side hs hp]
      exact ⟨rfl, fun _ => ⟨_, rfl⟩⟩
    · have never : ∀ sx side, r.switch? w = some sx → sx.pos ≠ .locked side := fun sx side hs hp => h ⟨sx, side, hs, hp⟩
      have lock : r.lockOf w = none := by
        cases hs : r.switch? w with
        | none => simp [Ride.lockOf, hs]
        | some sx =>
          rw [Ride.lockOf, hs, Option.bind_some]
          cases hp : sx.pos with
          | locked side => exact absurd hp (never sx side hs)
          | _ => rfl
      rw [lock, unlocked never]
      exact ⟨rfl, fun e => absurd rfl e⟩

/-! ### Reservations (R33) -/

/-- A presented chain of an eligible train whose zones are all available is reserved. -/
theorem reserveIfAvailable_taken (hx : r.train? k = some x) (hp : r.presented? k = some chain) (he : eligible c r x = true)
    (ha : chainAvailable c r k false x.head chain = true) : reserveIfAvailable c k r = reserveChain c k chain false r := by
  simp [reserveIfAvailable, hx, hp, he, ha]

theorem reserveIfAvailable_left (hx : r.train? k = some x) (hp : r.presented? k = some chain)
    (h : ¬(eligible c r x = true ∧ chainAvailable c r k false x.head chain = true)) : reserveIfAvailable c k r = r := by
  have no : (eligible c r x && chainAvailable c r k false x.head chain) = false := by
    rw [← Bool.not_eq_true, Bool.and_eq_true]
    exact h
  simp [reserveIfAvailable, hx, hp, no]

/-! ### A hold that is the last to go -/

/-- A fold over the slots in which one alone does something. -/
theorem overAll_only {σ : Type} {n : Nat} (f : Fin n → σ → σ) (k : Fin n) (r : σ) (before : ∀ j, j ≠ k → f j r = r)
    (after : ∀ j, j ≠ k → f j (f k r) = f k r) : overAll f r = f k r := by
  have still (l : List (Fin n)) (hl : k ∉ l) (q : σ) (same : ∀ j, j ≠ k → f j q = q) : l.foldl (fun r j => f j r) q = q := by
    induction l with
    | nil => rfl
    | cons j js ih =>
      rw [List.mem_cons, not_or] at hl
      rw [List.foldl_cons, same j (Ne.symm hl.1), ih hl.2]
  have fold (l : List (Fin n)) (hl : k ∈ l) (nodup : l.Nodup) : l.foldl (fun r j => f j r) r = f k r := by
    induction l with
    | nil => cases hl
    | cons j js ih =>
      rw [List.nodup_cons] at nodup
      rw [List.foldl_cons]
      by_cases e : j = k
      · subst e
        exact still js nodup.1 _ after
      · rw [before j e]
        exact ih ((List.mem_cons.mp hl).resolve_left (Ne.symm e)) nodup.2
  exact fold _ (List.mem_finRange k) (List.nodup_finRange n)

/-- The last hold source of a zone removed. -/
theorem removeHold_last {zr : ZoneRec} {src : HoldSource} (hz : r.zone? z = some zr) (only : zr.holds = 1#4 <<< src.bit) :
    removeHold z src r = r.putZone z { zr with holds := 0#4 } := by
  have none : withoutBit zr.holds src.bit = 0#4 := by
    rw [withoutBit_source, only]
    cases src <;> decide
  simp [removeHold, hz, none]

/-- A zone that no source holds has no hold. -/
theorem holds_none {zr : ZoneRec} (hz : r.zone? z = some zr) (h : ∀ src, r.held z src = false) : zr.holds = 0#4 := by
  have bit (src : HoldSource) : zr.holds.getLsbD src.bit = false := by
    have e := h src
    rwa [Ride.held, hz] at e
  apply BitVec.eq_of_getLsbD_eq
  intro j hj
  match j, hj with
  | 0, _ => exact bit .link
  | 1, _ => exact bit .input
  | 2, _ => exact bit .rollback
  | 3, _ => exact bit .overdue

/-- A chain without switches is presented as it is (R32). -/
theorem present_plain (plain : ∀ y ∈ chain, c.map.divergeAt y = none ∧ c.map.mergeAt y = none) : present c k x chain r = r := by
  unfold present
  split
  · rfl
  · next d hd =>
    obtain ⟨diverge, merge⟩ := plain d (List.mem_of_getLast? hd)
    rw [diverge, merge]

/-- A train alone on the table that becomes eligible, with every zone of its chain clear, unheld and without a switch, has its chain
reserved at the end of the step (R33). -/
theorem reconsider_releases (hx : r.train? k = some x) (alone : ∀ j, j ≠ k → r.train? j = none) (absent : r.presented? k = none)
    (mode : c.mode = .auto) (ready : readyToReserve c r x = true)
    (noStation : ∀ d, c.map.zone x.head = some d → d.kind ≠ .station) (prospective : prospectiveChain c r x = some chain)
    (free : ∀ y ∈ chain, (∃ yr, r.zone? y = some yr ∧ yr.claim = .clear ∧ yr.fault = none ∧ yr.holds = 0#4) ∧
      c.map.divergeAt y = none ∧ c.map.mergeAt y = none) :
    ∃ r', Ride.Within { presented := true, switches := true } r r' ∧ reconsider c r = reserveChain c k chain false r' := by
  have eligible_ {r' : Ride} (within : Ride.Within { presented := true, switches := true } r r') : eligible c r' x = true := by
    refine eligible_iff.mpr ⟨mode, ?_, fun d hd hk => absurd hk (noStation d hd)⟩
    rw [readyToReserve_iff] at ready ⊢
    rw [within.latched rfl, within.zone? rfl, within.element? rfl]
    exact ready
  have presented : overAll (fun (k : SlotIx) r => reconsiderTrain c k r) r = r.putPresented k (some chain) := by
    have one : reconsiderTrain c k r = r.putPresented k (some chain) := by
      simp only [reconsiderTrain, hx, eligible_ (.refl r), if_true, prospective, absent, Option.isSome_none, Bool.false_eq_true, if_false]
      rw [if_neg (by simp)]
      exact present_plain fun y hy => (free y hy).2
    rw [overAll_only _ k, one]
    · intro j hj
      simp [reconsiderTrain, alone j hj]
    · intro j hj
      have none : (reconsiderTrain c k r).train? j = none := ((reconsiderTrain_parts k).train? rfl j).trans (alone j hj)
      rw [reconsiderTrain, none]
  have within : Ride.Within { presented := true, switches := true } r
      (overAll (fun (w : SwitchIx) r => arbitrate c w r) (r.putPresented k (some chain))) :=
    ((putPresented_within k _).mono rfl).trans (.overAll (fun w r => (arbitrate_within w).mono rfl) _)
  have arbitrated : Ride.Within .switch (r.putPresented k (some chain))
      (overAll (fun (w : SwitchIx) r => arbitrate c w r) (r.putPresented k (some chain))) := .overAll (fun w r => arbitrate_within w) _
  have told : (overAll (fun (w : SwitchIx) r => arbitrate c w r) (r.putPresented k (some chain))).presented? k = some chain :=
    (arbitrated.presented? rfl k).trans (tget_tput_same ..)
  unfold reconsider
  dsimp only
  rw [presented]
  generalize overAll (fun (w : SwitchIx) r => arbitrate c w r) (r.putPresented k (some chain)) = r' at within told
  refine ⟨r', within, ?_⟩
  have hx' := (within.train? rfl k).trans hx
  have available : chainAvailable c r' k false x.head chain = true := by
    refine chainAvailable_iff.mpr fun n before y _ hy => zoneAvailable_iff.mpr ?_
    obtain ⟨⟨yr, hyr, claim, fault, holds⟩, diverge, merge⟩ := free y (List.mem_of_getElem? hy)
    exact ⟨⟨yr, (within.zone? rfl y).trans hyr, claim, fault, fun _ => holds⟩, by simp [diverge], by simp [merge]⟩
  have clear := chainAvailable_clear available
  have taken := reserveIfAvailable_taken hx' told (eligible_ within) available
  have others (j : SlotIx) (hj : j ≠ k) {q : Ride} (none : q.train? j = none) : reserveIfAvailable c j q = q := by
    simp [reserveIfAvailable, none]
  have alone' (j : SlotIx) (hj : j ≠ k) : r'.train? j = none := (within.train? rfl j).trans (alone j hj)
  rw [overAll_only _ k, taken]
  · exact fun j hj => others j hj (alone' j hj)
  · intro j hj
    rw [taken]
    have led := reserveChain_led (c := c) (p := true) (P := fun _ => True) (chain := chain) false hx' trivial
      (readyToReserve_empty (eligible_ready (eligible_ within))) clear rfl
    exact others j hj ((led.carries j).1 (alone' j hj))

theorem overdueIn_alone (hx : r.train? k = some x) (held : x.phase = .held) (alone : ∀ j, j ≠ k → r.train? j = none) : r.overdueIn z = false := by
  unfold Ride.overdueIn
  cases ho : r.occupant? z with
  | none => rfl
  | some j =>
    rw [Option.bind_some]
    by_cases e : j = k
    · rw [e, hx, Option.any_some, held]
      rfl
    · rw [alone j e]
      rfl

/-- RELEASE_HOLD of the last source of a HELD train's zone, the train alone on the table, reserves its chain at once. -/
theorem release_done {d : ZoneDesc} {zr : ZoneRec} {src : HoldSource} (h : s.Did dt (fun _ => removeHold x.head src) t) (mode : s.mode = .auto)
    (on : s.ride.latched = false) (hd : s.map.zone x.head = some d) (noStation : d.kind ≠ .station) (noSpur : d.kind ≠ .spur)
    (stopping : d.element ≠ .none) (sound : ∀ cause cmd, s.ride.element? x.head ≠ some (.brake (.fault cause) cmd))
    (hz : s.ride.zone? x.head = some zr) (only : zr.holds = 1#4 <<< src.bit) (fault : zr.fault = none) (hx : s.ride.train? k = some x)
    (held : x.phase = .held) (empty : x.chain = []) (alone : ∀ j, j ≠ k → s.ride.train? j = none) (absent : s.ride.presented? k = none)
    (prospective : prospectiveChain s.ctx s.ride x = some chain)
    (free : ∀ y, y ∈ chain → s.ride.claim? y = some .clear ∧ s.ride.zoneFault y = none ∧ (∀ src', s.ride.held y src' = false) ∧
      s.map.divergeAt y = none ∧ s.map.mergeAt y = none) (still : t.ride.latched = false) :
    (∃ y, t.ride.train? k = some y ∧ y.chain = chain) ∧ (∀ y, y ∈ chain → t.ride.claim? y = some (.reserved k)) ∧
    (∀ st cmd, s.ride.element? x.head = some (.brake st cmd) → t.elementOutput x.head = true) ∧
    ∀ st cmd ch dd cx, s.ride.element? x.head = some (.drive st cmd) → d.element = .drive ch → s.map.drive ch = some dd →
      s.ride.channel? ch = some cx → (∃ st', t.ride.element? x.head = some (.drive st' .openRun)) ∧
        ∃ y, t.ride.channel? ch = some y ∧ y.target = dd.run := by
  have told := told_within s
  have lifted : Ride.Within { zones := true, reports := true } s.ride (removeHold x.head src s.told) :=
    (told.mono rfl).trans ((removeHold_within src).mono rfl)
  have last := removeHold_last ((told_zone? s x.head).trans hz) only
  have zone (y : ZoneIx) (hy : y ≠ x.head) : (removeHold x.head src s.told).zone? y = s.ride.zone? y := by
    rw [last]
    exact (tget_tput_other _ _ _ _ hy).trans (told_zone? s y)
  have own : (removeHold x.head src s.told).zone? x.head = some { zr with holds := 0#4 } := by
    rw [last]
    exact tget_tput_same ..
  have latched : (removeHold x.head src s.told).latched = false := by
    rw [last]
    exact (told_latched s).trans on
  have hdc : (s.asked dt).ctx.map.zone x.head = some d := hd
  have ready : readyToReserve (s.asked dt).ctx (removeHold x.head src s.told) x = true := by
    refine readyToReserve_iff.mpr ⟨latched, .inr (.inr (.inr held)), ?_, ?_, ⟨_, own, rfl, fault⟩, fun cause cmd e => ?_, empty⟩
    · simp [CircuitMap.isSpur, hdc, noSpur]
    · simp [CircuitMap.isStopping, hdc, stopping]
    · exact sound cause cmd ((lifted.element? rfl _).symm.trans e)
  have heldHere : s.ride.held x.head src = true := by
    rw [Ride.held, hz, Option.any_some, ZoneRec.holds?, only]
    cases src <;> decide
  have prospective' : prospectiveChain (s.asked dt).ctx (removeHold x.head src s.told) x = some chain := by
    have same : prospectiveChain (s.asked dt).ctx (removeHold x.head src s.told) x = prospectiveChain (s.asked dt).ctx s.told x := by
      rw [last]
      rfl
    rw [same, asked_prospectiveChain, prospective]
  obtain ⟨r', within, e⟩ := reconsider_releases (c := (s.asked dt).ctx) ((lifted.train? rfl k).trans hx)
    (fun j hj => (lifted.train? rfl j).trans (alone j hj)) ((lifted.presented? rfl k).trans absent) mode ready
    (fun d' hd' => by cases hdc.symm.trans hd'; exact noStation) prospective' fun y hy => by
      obtain ⟨claim, faults, holds, diverge, merge⟩ := free y hy
      have apart : y ≠ x.head := by
        rintro rfl
        rw [holds src] at heldHere
        cases heldHere
      refine ⟨?_, diverge, merge⟩
      rw [zone y apart]
      cases hyr : s.ride.zone? y with
      | none => rw [Ride.claim?, hyr] at claim; cases claim
      | some yr =>
        rw [Ride.claim?, hyr, Option.map_some] at claim
        rw [Ride.zoneFault, hyr, Option.bind_some] at faults
        exact ⟨yr, rfl, Option.some.inj claim, faults, holds_none hyr holds⟩
  have ride : t.ride = reserveChain (s.asked dt).ctx k chain false r' := by
    have on' := still
    rw [h.ride] at on' ⊢
    rw [conclude_on on', e]
  have hx' : r'.train? k = some x := (within.train? rfl k).trans ((lifted.train? rfl k).trans hx)
  have element : r'.element? x.head = s.ride.element? x.head := (within.element? rfl _).trans (lifted.element? rfl _)
  obtain ⟨⟨y, hy, chain_, -⟩, claims, -⟩ := reserveChain_claims (c := (s.asked dt).ctx) (chain := chain) (creep := false) hx'
  rw [State.elementOutput, ride]
  rw [ride] at still
  refine ⟨⟨y, hy, chain_⟩, fun y hy => ?_, fun st cmd he => ?_, fun st cmd ch dd cx he hch hdd hcx => ?_⟩
  · obtain ⟨claim, -, holds, -⟩ := free y hy
    have apart : y ≠ x.head := by
      rintro rfl
      rw [holds src] at heldHere
      cases heldHere
    rw [claims, if_pos hy, within.claim? rfl, Ride.claim?, zone y apart, show (s.ride.zone? y).map (·.claim) = _ from claim]
    rfl
  · obtain ⟨st', cmd', he', output⟩ := reserveChain_brake (c := (s.asked dt).ctx) hx' (element.trans he) (fun cause e => sound cause cmd (e ▸ he)) still
    rw [he']
    exact output
  · have at_ : (s.asked dt).ctx.map.elementAt x.head = .drive ch := by simp [CircuitMap.elementAt, hdc, hch]
    have channel : r'.channel? ch = some cx := (within.channel? rfl ch).trans ((lifted.channel? rfl ch).trans hcx)
    obtain ⟨he', y, hy, target, -⟩ := reserveChain_drive (c := (s.asked dt).ctx) (chain := chain) (creep := false) hx' (element.trans he) at_ hdd channel rfl
    exact ⟨⟨_, he'⟩, y, hy, target⟩

/-- Settles O45. -/
theorem autoReservesChains : Obligations.AutoReservesChains := by
  refine ⟨fun c r x => ?_, fun c r x first plain diverge => ?_, fun c r k before z => ?_, fun c r k x chain hx hp => ⟨fun he all => ?_, fun no => ?_⟩,
    fun s dt f z d zr k x chain src hs mode on named noStation noSpur stopping sound arg hi hz only fault hx head held empty alone absent
      prospective free => ?_⟩
  · rw [eligible_iff, readyToReserve_iff]
    tauto
  · obtain ⟨e, named⟩ := prospectiveChain_spec (r := r) plain diverge
    rw [e]
    refine ⟨fun none => by rw [none]; rfl, fun z hz => ?_⟩
    obtain ⟨head, length, links, last, hl, ends⟩ := chainFrom_spec c.map 3 z
    refine ⟨chainFrom c.map 3 z, last, by rw [hz]; rfl, head, hl, length, links, ends, fun passes => ?_⟩
    have passed := validate_passed passes
    obtain ⟨side, hside⟩ := named (by rw [hz]; simp)
    exact ⟨chainFrom_stops passed (successor_configured passed (hside.trans hz)) hl, chainFrom_nodup passed z⟩
  · rw [zoneAvailable_iff]
    refine and_congr_right fun _ => and_congr (forall₂_congr fun w _ => ?_) (forall₂_congr fun w _ => ?_)
    · constructor
      · rintro ⟨sx, at_, setting, last, hs, hp, hr, e⟩
        cases e.resolve_left (by simp)
        exact ⟨sx, at_, last, hs, hp, hr⟩
      · rintro ⟨sx, at_, last, hs, hp, hr⟩
        exact ⟨sx, at_, _, last, hs, hp, hr, .inr rfl⟩
    · constructor
      · rintro ⟨sx, side, reqA, reqB, arb, served, hs, hr, hside, ⟨j, rfl⟩ | ⟨e, -⟩⟩
        · exact ⟨sx, reqA, reqB, side, j, served, hs, hr, hside⟩
        · cases e
      · rintro ⟨sx, reqA, reqB, side, j, served, hs, hr, hside⟩
        exact ⟨sx, side, reqA, reqB, _, served, hs, hr, hside, .inl ⟨j, rfl⟩⟩
  · have available := chainAvailable_iff.mpr all
    rw [reserveIfAvailable_taken hx hp he available]
    obtain ⟨⟨y, hy, chain_, -⟩, claims, gone⟩ := reserveChain_claims (c := c) (chain := chain) (creep := false) hx
    refine ⟨⟨y, hy, chain_⟩, gone, fun z hz => ?_, fun z hz => ?_, fun st cmd element on => ?_⟩
    · rw [claims, if_pos hz, chainAvailable_clear available z hz]
      rfl
    · rw [claims, if_neg hz]
    · obtain ⟨-, -, -, -, -, sound, -⟩ := readyToReserve_iff.mp (eligible_ready he)
      exact reserveChain_brake hx element (fun cause e => sound cause cmd (e ▸ element)) on
  · refine reserveIfAvailable_left hx hp fun ⟨he, ha⟩ => ?_
    rcases no with no | ⟨n, before, z, hb, hz, no⟩
    · rw [he] at no
      cases no
    · rw [chainAvailable_iff.mp ha n before z hb hz] at no
      cases no
  · obtain ⟨hd, -⟩ := zoneNamed_spec named
    have rule : releaseRule f (s.asked dt) = (.done, (s.asked dt).onRide fun _ r => removeHold z src r) := by
      rw [releaseRule_named arg, zoneCommand_named (s := s.asked dt) (by rw [show (s.asked dt).mode = s.mode from rfl, mode]; simp) named,
        releaseSource_done hi fun _ => overdueIn_alone hx held alone]
    have h : s.Did dt (fun _ => removeHold z src) _ := ordinary_did hs (own := releaseRule f) rule
    refine ⟨_, rfl, h.answered, fun still => ?_⟩
    subst head
    exact release_done h mode on hd noStation noSpur stopping sound hz only fault hx held empty alone absent prospective free still

end Sys2Proof.Machine
end

section
/-! PROOF. The load, and the records each block builds at a take-up (R23, R81, R109, R127, R138, R142, R156, R181). -/

namespace Sys2Proof.Machine

variable {i : Instr} {s t : State} {dt : Nat} {c : Ctx} {a b r : Ride} {z u : ZoneIx} {w v : SwitchIx}

/-! ### The records as they are built -/

/-- With no occupant on the table a brake's proofs change its element and report alone. -/
theorem brakeProofChange_empty (empty : ∀ z, r.occupant? z = none) (z : ZoneIx) :
    Ride.Within { elements := true, reports := true } r (brakeProofChange c z r) := by
  have put (e : Element) : Ride.Within { elements := true, reports := true } r (r.putElement z e) := (putElement_within z e).mono rfl
  have empty' (e : Element) : (r.putElement z e).occupant? z = none := empty z
  unfold brakeProofChange
  split
  · next st cmd _ =>
    dsimp only
    split
    · exact .refl r
    · cases st.atLevels (c.brakeLevels z).1 (c.brakeLevels z).2 with
      | opened => simpa [brakeBecomes, provenOpen, empty'] using put _
      | closed => simpa [brakeBecomes, provenClosed, empty'] using put _
      | fault cause => exact ((put _).trans ((raise_within _).mono rfl)).trans ((report_within _).mono rfl)
      | opening due => exact put _
      | closing due => exact put _
  · exact .refl r

/-- The elements' proofs and the switches' reports change elements and reports alone. -/
theorem takeUpRide_within : Ride.Within { elements := true, reports := true } (builtRide c r) (takeUpRide c r) := by
  have empty (z : ZoneIx) : (builtRide c r).occupant? z = none := by
    have zone : (builtRide c r).zone? z = (c.map.zone z).map fun _ => ZoneRec.fresh := tget_tgen ..
    rw [Ride.occupant?, Ride.claim?, zone]
    cases c.map.zone z <;> rfl
  have brakes := overAll_induct (fun r' => Ride.Within { elements := true, reports := true } (builtRide c r) r')
    (fun (z : ZoneIx) r => brakeProofChange c z r)
    (fun z r' h => h.trans (brakeProofChange_empty (fun u => (h.occupant? rfl u).trans (empty u)) z)) _ (.refl _)
  exact brakes.trans ((Ride.Within.overAll (fun w r => reportFreshSwitch_within w) _).mono rfl)

/-- The state of an element at its proof levels. -/
def Ctx.atLevels (c : Ctx) (z : ZoneIx) : Element → Element
  | .brake st cmd => .brake (st.atLevels (c.brakeLevels z).1 (c.brakeLevels z).2) cmd
  | e => e

theorem brakeProofChange_element (z : ZoneIx) : (brakeProofChange c z r).element? z = (r.element? z).map (c.atLevels z) := by
  unfold brakeProofChange
  split
  · next st cmd he =>
    rw [he]
    dsimp only
    split
    · next same => rw [he, Option.map_some, Ctx.atLevels, same]
    · rw [brakeBecomes_element, if_pos rfl]
      rfl
  · next other =>
    cases he : r.element? z with
    | none => rfl
    | some e =>
      cases e with
      | brake st cmd => exact absurd he (other st cmd)
      | drive st cmd => rfl

theorem brakeProofChange_apart (h : u ≠ z) : (brakeProofChange c z r).element? u = r.element? u := by
  unfold brakeProofChange
  split
  · dsimp only
    split
    · rfl
    · rw [brakeBecomes_element, if_neg h]
  · rfl

/-- The element of a zone as a map is taken up (R127). -/
theorem takeUpRide_element (z : ZoneIx) : (takeUpRide c r).element? z = (freshElement c z).map (c.atLevels z) := by
  have brakes := overAll_at (fun (z : ZoneIx) r => brakeProofChange c z r) (fun r => r.element? z) z (Option.map (c.atLevels z))
    (fun r => brakeProofChange_element z) (fun u r h => brakeProofChange_apart (Ne.symm h)) (builtRide c r)
  have built : (builtRide c r).element? z = freshElement c z := tget_tgen ..
  rw [built] at brakes
  exact ((Ride.Within.overAll (fun w r => reportFreshSwitch_within w) _).element? rfl z).trans brakes

/-- A fault has been told: its ride stop cause and the notice (R48, R111, R131). -/
def Ride.Told (r : Ride) (cause : Cause) : Prop := r.cause? cause = true ∧ r.notice? .fault = true

theorem Ride.Told.grows {cause : Cause} (h : a.Told cause) (k : a.grows b) : b.Told cause := ⟨k.1 _ h.1, k.2 _ h.2⟩

theorem told_report (cause : Cause) : ((r.raise .fault).report cause).Told cause :=
  ⟨report_cause _ _, (report_changes (w := false) (o := false) (q := false) cause).grows.2 _ (raise_notice r .fault)⟩

theorem brakeBecomes_told (cause : ElementFault) (cmd : ElementCommand) : (brakeBecomes c z (.fault cause) cmd r).Told .elementFault :=
  told_report (r := r.putElement z (.brake (.fault cause) cmd)) .elementFault

theorem brakeProofChange_grows (z : ZoneIx) : r.grows (brakeProofChange c z r) :=
  (brakeProofChange_changes (w := false) (o := false) (q := false) z).grows

theorem brakeProofChange_told {due : Nat} {cmd : ElementCommand} (he : r.element? z = some (.brake (.closing due) cmd))
    (both : c.brakeLevels z = (true, true)) : (brakeProofChange c z r).Told .elementFault := by
  simp only [brakeProofChange, he, both, BrakeState.atLevels, reduceCtorEq, if_false]
  exact brakeBecomes_told _ _

/-- A brake found in FAULT at a take-up is reported (R131). -/
theorem takeUpRide_elementFault {due : Nat} {cmd : ElementCommand} (fresh : freshElement c z = some (.brake (.closing due) cmd))
    (both : c.brakeLevels z = (true, true)) : (takeUpRide c r).Told .elementFault := by
  have step (u : ZoneIx) (r' : Ride) (h : r'.element? z = some (.brake (.closing due) cmd) ∨ r'.Told .elementFault) :
      (u ≠ z ∧ (brakeProofChange c u r').element? z = some (.brake (.closing due) cmd)) ∨ (brakeProofChange c u r').Told .elementFault := by
    rcases h with he | told
    · by_cases e : u = z
      · subst e
        exact .inr (brakeProofChange_told he both)
      · exact .inl ⟨e, (brakeProofChange_apart (Ne.symm e)).trans he⟩
    · exact .inr (told.grows (brakeProofChange_grows u))
  have told := overAll_establish (fun r' => r'.element? z = some (.brake (.closing due) cmd) ∨ r'.Told .elementFault)
    (fun u r' => u = z → r'.Told .elementFault) (fun (z : ZoneIx) r => brakeProofChange c z r)
    (fun u r' h => (step u r' h).imp_left And.right) (fun u r' h e => (step u r' h).resolve_left fun k => k.1 e)
    (fun u v r' h k e => (k e).grows (brakeProofChange_grows u)) (builtRide c r) (.inl ((tget_tgen ..).trans fresh)) z rfl
  exact told.grows (overAll_changes (w := false) (o := false) (q := false) (fun w _ => reportFreshSwitch_changes w) _).grows

/-- A switch found in FAULT at a take-up is reported (R109, R111). -/
theorem takeUpRide_switchFault {x : SwitchRec} {cause : SwitchFault} (hx : (takeUpRide c r).switch? w = some x) (fault : x.pos = .fault cause) :
    (takeUpRide c r).Told .switchFault := by
  have before : (overAll (fun (z : ZoneIx) r => brakeProofChange c z r) (builtRide c r)).switch? w = some x :=
    ((Ride.Within.overAll (fun w r => reportFreshSwitch_within w) _).switch? rfl w).symm.trans hx
  refine overAll_establish (fun r' => r'.switch? w = some x) (fun v r' => v = w → r'.Told .switchFault)
    (fun (w : SwitchIx) r => reportFreshSwitch w r) (fun v r' h => ((reportFreshSwitch_within v).switch? rfl w).trans h) (fun v r' h e => ?_)
    (fun v v' r' h k e => (k e).grows (reportFreshSwitch_changes (w := false) (o := false) (q := false) v).grows) _ before w rfl
  subst e
  obtain ⟨pos, pending, committed, role⟩ := x
  cases show pos = _ from fault
  simp only [reportFreshSwitch, h]
  exact told_report _

/-! ### The take-up -/

theorem fresh_settled {d : SwitchDesc} : (freshSwitch c d).Settled := .inr fun reqA reqB arb served e => by
  unfold freshSwitch at e
  dsimp only at e
  split at e
  · cases e
  · cases e
    exact ⟨rfl, rfl⟩

/-- The state in which the blocks take a map up (R156). -/
def State.takingUp (s : State) : State :=
  { s with
    mode := .maintenance, sensors := s.sensors.takenUp (s.now + s.filterTime), bounds := Vector.replicate 52 none
    inputs := s.inputs.takenUp (s.now + Config.inputFilter), selection := none }

/-- With the ride stopped, a take-up ends with the records that its blocks built, but for presentations and switches. -/
theorem takeUp_still (latched : s.ride.latched = true) :
    Ride.Within { presented := true, switches := true } (takeUpRide s.takingUp.ctx s.ride) (takeUp s).ride := by
  have stays : (takeUpRide s.takingUp.ctx s.ride).latched = true := takeUpRide_after.latched latched
  have same := conclude_calm (c := s.takingUp.ctx) (before := s.ride) (.inr stays)
  rwa [tellLatched_same (.inl latched)] at same

theorem takeUp_built (latched : s.ride.latched = true) :
    Ride.Within { presented := true, switches := true, elements := true, reports := true } (builtRide s.takingUp.ctx s.ride) (takeUp s).ride :=
  (takeUpRide_within.mono rfl).trans ((takeUp_still latched).mono rfl)

/-- The records of a map taken up with the ride stopped. -/
theorem takeUp_element (latched : s.ride.latched = true) (z : ZoneIx) :
    (takeUp s).ride.element? z = (freshElement s.takingUp.ctx z).map (s.takingUp.ctx.atLevels z) :=
  ((takeUp_still latched).element? rfl z).trans (takeUpRide_element z)

theorem takeUp_told (latched : s.ride.latched = true) {cause : Cause} (h : (takeUpRide s.takingUp.ctx s.ride).Told cause) :
    (takeUp s).ride.Told cause :=
  h.grows ⟨fun j hj => by rwa [(takeUp_still latched).causes rfl], fun j hj => by rwa [(takeUp_still latched).notices rfl]⟩

theorem takeUp_switch {d : SwitchDesc} (latched : s.ride.latched = true) (hd : s.map.switch w = some d) :
    ∃ y, (takeUp s).ride.switch? w = some y ∧ (freshSwitch s.takingUp.ctx d).Rested y := by
  have stays : (takeUpRide s.takingUp.ctx s.ride).latched = true := takeUpRide_after.latched latched
  have built : (builtRide s.takingUp.ctx s.ride).switch? w = some (freshSwitch s.takingUp.ctx d) := by
    refine (tget_tgen ..).trans ?_
    rw [show s.takingUp.ctx.map.switch w = some d from hd]
    rfl
  have before : (tellLatched s.takingUp.ctx s.ride (takeUpRide s.takingUp.ctx s.ride)).switch? w = some (freshSwitch s.takingUp.ctx d) := by
    rw [tellLatched_same (.inl latched)]
    exact (takeUpRide_within.switch? rfl w).trans built
  obtain ⟨y, hy, rested, -⟩ := conclude_settled (.inr stays) before fresh_settled
  exact ⟨y, hy, rested⟩

/-- A switch's position at a take-up (R109). -/
theorem derivedPos_fault {l m : Bool} (h : l = m) : ∃ cause, derivedPos l m = .fault cause := by
  subst h
  cases l <;> exact ⟨_, rfl⟩

/-- The load in LOADING with power (R181). -/
theorem exec_load (powered : s.powered = true) (mode : s.mode = .loading) :
    exec (.load dt) s = .next (loadImage { s with now := s.now + dt, resetLine := false }) := by
  show Host.Outcome.next (s.advance dt).load = _
  unfold State.load
  rw [if_pos (show (s.advance dt).powered = true ∧ (s.advance dt).mode = .loading from ⟨powered, mode⟩)]
  rfl

/-- The element of a brake zone as a map is taken up (R127). -/
theorem freshElement_brake {d : ZoneDesc} {o cl : ProofLine} {ms : Nat} (hd : c.map.zone z = some d) (he : d.element = .brake o cl ms) :
    freshElement c z = some (.brake (.closing (c.now + ms * 1000)) .close) := by
  simp [freshElement, CircuitMap.elementAt, hd, he, Ctx.proofDue, dueAfter, Config.usPerMs]

theorem freshElement_drive {d : ZoneDesc} {ch : ChannelIx} (hd : c.map.zone z = some d) (he : d.element = .drive ch) :
    freshElement c z = some (.drive .closed .close) := by
  simp [freshElement, CircuitMap.elementAt, hd, he]

/-- Settles O33. -/
theorem loadAndTakeUp : Obligations.LoadAndTakeUp := by
  refine ⟨fun s latched => ?_, fun s dt powered mode => ⟨fun sound pass => ?_, fun sound fails => ?_, fun unsound => ?_⟩⟩
  · have built := takeUp_built latched
    have still := takeUp_still latched
    refine ⟨rfl, rfl, rfl, fun k => (built.train? rfl k).trans (builtRide_train k), fun z => (built.zone? rfl z).trans (tget_tgen ..), fun z => ?_,
      fun z d hd => ⟨fun o cl ms he => ⟨?_, fun ho hc => ?_⟩, fun ch he => ?_⟩, fun ch hch => ?_, fun w d hd => ?_, fun st hst => ?_, rfl, rfl,
      fun cause hc => ?_⟩
    · have shut : (takeUpRide s.takingUp.ctx s.ride).Shut := builtRide_shut.changes (w := false) (q := false) takeUpRide_after
      exact elementOutput_off ((shut z).congr (still.element? rfl z))
    · rw [takeUp_element latched, freshElement_brake (c := s.takingUp.ctx) hd he, Option.map_some, Ctx.atLevels,
        brakeLevels_brake (c := s.takingUp.ctx) hd he]
      show some (Element.brake (BrakeState.atLevels (.closing (s.now + ms * 1000)) (tget s.proofs o) (tget s.proofs cl)) .close) = _
      cases tget s.proofs o <;> cases tget s.proofs cl <;> rfl
    · refine takeUp_told latched (takeUpRide_elementFault (freshElement_brake (c := s.takingUp.ctx) hd he) ?_)
      rw [brakeLevels_brake (c := s.takingUp.ctx) hd he]
      exact Prod.ext ho hc
    · rw [takeUp_element latched, freshElement_drive (c := s.takingUp.ctx) hd he]
      rfl
    · obtain ⟨dd, hdd⟩ := Option.isSome_iff_exists.mp hch
      have channel : (takeUp s).ride.channel? ch =
          some { code := 0, target := 0, stepDue := none, zone := s.takingUp.ctx.map.driveZone ch } := by
        refine (built.channel? rfl ch).trans ((tget_tgen ..).trans ?_)
        rw [show s.takingUp.ctx.map.drive ch = some dd from hdd]
        rfl
      exact ⟨_, channel, rfl, rfl, rfl⟩
    · obtain ⟨y, hy, rested⟩ := takeUp_switch latched hd
      refine ⟨y, hy, rested.pending.elim id And.left, rested.committed, ?_, fun same => ?_⟩
      · rw [rested.pos]
        show derivedPos (tget s.proofs d.proofA) (tget s.proofs d.proofB) = _
        cases tget s.proofs d.proofA <;> cases tget s.proofs d.proofB <;> rfl
      · have hx : (takeUpRide s.takingUp.ctx s.ride).switch? w = some (freshSwitch s.takingUp.ctx d) := by
          refine (takeUpRide_within.switch? rfl w).trans ((tget_tgen ..).trans ?_)
          rw [show s.takingUp.ctx.map.switch w = some d from hd]
          rfl
        obtain ⟨cause, fault⟩ := derivedPos_fault same
        exact takeUp_told latched (takeUpRide_switchFault hx fault)
    · obtain ⟨sd, hsd⟩ := Option.isSome_iff_exists.mp hst
      refine (built.station? rfl st).trans ((tget_tgen ..).trans ?_)
      rw [show s.takingUp.ctx.map.station st = some sd from hsd]
      rfl
    · exact conclude_grows.1 _ ((takeUpRide_after (c := s.takingUp.ctx) (r := s.ride)).grows.1 _ hc)
  · rw [exec_load powered mode]
    simp only [loadImage, sound, pass, if_true]
  · rw [exec_load powered mode]
    simp only [loadImage, sound, fails, if_true, if_false, loadFails]
  · rw [exec_load powered mode]
    simp only [loadImage, unsound, Bool.false_eq_true, if_false, loadFails]

end Sys2Proof.Machine
end

section
/-! PROOF. Brake proofs and proof timers (R34, R61, R129 to R132). -/

namespace Sys2Proof.Machine

variable {i : Instr} {s t : State} {dt : Nat} {c : Ctx} {a b r : Ride} {z u : ZoneIx} {k : SlotIx} {x y : Train} {w : SwitchIx}
  {st : StationIx} {e : StationEvent} {g : Ctx → Ride → Ride}

/-! ### What reports no ride stop cause -/

/-- Only a release begun unproven and a proof lost report a station (R152). -/
theorem stationEvent_causes (opens : e ≠ .openCommand) (lost : e ≠ .proofLost) : (stationEvent c st e r).causes = r.causes := by
  have silent (proofs : Bool) (old new : StationState) : stationUnproven proofs old new e = false := by
    cases e with
    | openCommand => exact absurd rfl opens
    | proofLost => exact absurd rfl lost
    | _ => rfl
  unfold stationEvent
  split
  · rfl
  · dsimp only
    rw [silent, if_neg (by simp)]
    split <;> rfl

theorem zoneStationEvent_causes (opens : e ≠ .openCommand) (lost : e ≠ .proofLost) : (zoneStationEvent c z e r).causes = r.causes := by
  unfold zoneStationEvent
  split
  · exact stationEvent_causes opens lost
  · rfl

theorem occupantStationEvent_causes (opens : e ≠ .openCommand) (lost : e ≠ .proofLost) : (occupantStationEvent c k z e r).causes = r.causes := by
  unfold occupantStationEvent
  split
  · exact zoneStationEvent_causes opens lost
  · rfl

theorem changeTrain_causes (k : SlotIx) (x y : Train) : (changeTrain c k x y r).causes = r.causes := by
  have tell {p : Prop} [Decidable p] (z : ZoneIx) (e : StationEvent) (r : Ride) (opens : e ≠ .openCommand) (lost : e ≠ .proofLost) :
      (if p then occupantStationEvent c k z e r else r).causes = r.causes := by
    split
    · exact occupantStationEvent_causes opens lost
    · rfl
  unfold changeTrain
  exact (tell _ _ _ (by simp) (by simp)).trans ((tell _ _ _ (by simp) (by simp)).trans (tell _ _ _ (by simp) (by simp)))

/-- A zone that goes to CLEAR reports nothing (R112, R113, R146). -/
theorem setClaim_clear_causes : (setClaim c z .clear r).causes = r.causes := by
  unfold setClaim
  split
  · rfl
  · next zr _ =>
    have switch (q : Ride) : (claimToSwitch c z zr.claim .clear q).causes = q.causes := by
      unfold claimToSwitch
      split
      · rfl
      · simp only [ne_eq, not_true_eq_false, and_false, if_false]
        split
        · exact (switchZoneCleared_within _).causes rfl
        · rfl
    have station (q : Ride) : (claimToStation c z zr.claim .clear q).causes = q.causes := by
      unfold claimToStation
      split
      · exact zoneStationEvent_causes (by simp) (by simp)
      · exact zoneStationEvent_causes (by simp) (by simp)
      · rfl
    exact (station _).trans ((switch _).trans rfl)

theorem returnChain_causes : (returnChain c k r).causes = r.causes := by
  unfold returnChain
  split
  · rfl
  · next x _ =>
    refine foldl_induct (fun r' : Ride => r'.causes = r.causes) _ (fun r' z h => ?_) _ _ rfl
    split
    · exact setClaim_clear_causes.trans h
    · exact h

theorem provenOpen_causes : (provenOpen c z r).causes = r.causes := by
  unfold provenOpen
  split
  · rfl
  · split
    · rfl
    · split
      · exact changeTrain_causes ..
      · rfl

theorem provenClosed_causes : (provenClosed c z r).causes = r.causes := by
  unfold provenClosed
  split
  · rfl
  · split
    · rfl
    · split
      · exact (zoneStationEvent_causes (by simp) (by simp)).trans returnChain_causes
      · rfl

theorem latched_congr (h : b.causes = a.causes) : b.latched = a.latched := by
  unfold Ride.latched
  rw [h]

/-! ### An element that is proven -/

/-- An element proven CLOSED returns the chain of the train HELD in its zone (R132). -/
theorem provenClosed_returns (ho : r.occupant? z = some k) (hx : r.train? k = some x) (held : x.phase = .held) (head : x.head = z) :
    (provenClosed c z r).train? k = some { x with chain := [] } ∧
    ∀ y ∈ x.chain, r.claim? y = some (.reserved k) → (provenClosed c z r).claim? y = some .clear := by
  have e : provenClosed c z r = zoneStationEvent c z .provenClosed (returnChain c k r) := by
    simp only [provenClosed, ho, hx, held, head, and_self, if_true]
  have within := zoneStationEvent_within (c := c) (r := returnChain c k r) z .provenClosed
  rw [e]
  refine ⟨(within.train? rfl k).trans (returnChain_train hx), fun y hy hc => ?_⟩
  rw [within.claim? rfl, returnChain_claim? hx, if_pos ⟨hy, hc⟩]

/-! ### A step that is an event on the ride -/

/-- A step that is an event of a line or a timer, whose effect on the ride is `g`. -/
structure State.Happened (s : State) (dt : Nat) (g : Ctx → Ride → Ride) (t : State) : Prop where
  only : s.onlyEvent dt t
  ride : t.ride = conclude (s.advance dt).ctx s.ride (g (s.advance dt).ctx s.ride)

theorem onRideIf_happened {due : Bool} (h : due = true) : s.Happened dt g ((s.advance dt).onRideIf due g) := by
  subst h
  exact ⟨⟨⟨rfl, rfl, ⟨rfl, rfl, rfl, rfl⟩, ⟨rfl, rfl, rfl, rfl, rfl, rfl⟩, rfl⟩, rfl, rfl, rfl, rfl⟩, rfl⟩

theorem onRideIf_not {due : Bool} (h : due = false) : (s.advance dt).onRideIf due g = s.advance dt := by
  subst h
  rfl

theorem State.Happened.keeps (h : s.Happened dt g t) : (g (s.advance dt).ctx s.ride).Keeps t.ride := by
  rw [h.ride]
  exact conclude_narrow.keeps

/-! ### Brakes -/

/-- A change of a brake's proofs is its state at the levels (R129). -/
theorem brakeProofChange_brake {state : BrakeState} {cmd : ElementCommand} (he : r.element? z = some (.brake state cmd)) :
    brakeProofChange c z r = if state.atLevels (c.brakeLevels z).1 (c.brakeLevels z).2 = state then r
      else brakeBecomes c z (state.atLevels (c.brakeLevels z).1 (c.brakeLevels z).2) cmd r := by
  simp only [brakeProofChange, he]

theorem brakeBecomes_causes {state : BrakeState} {cmd : ElementCommand} (sound : ∀ cause, state ≠ .fault cause) :
    (brakeBecomes c z state cmd r).causes = r.causes := by
  cases state with
  | opened => exact provenOpen_causes.trans rfl
  | closed => exact provenClosed_causes.trans rfl
  | fault cause => exact absurd rfl (sound cause)
  | opening due => rfl
  | closing due => rfl

/-- A step that reports nothing, outside AUTO or with the ride stop latched, is left as it is but for the presentations. -/
theorem conclude_untold {before after : Ride} (calm : c.calm after) (same : after.causes = before.causes) :
    Ride.Within { presented := true, switches := true } after (conclude c before after) := by
  have still : tellLatched c before after = after :=
    tellLatched_same (by rw [latched_congr same]; cases before.latched <;> simp)
  have within := conclude_calm (before := before) calm
  rwa [still] at within

/-- The brake of a zone at the end of a step outside AUTO is as the step left it: a fault it is brought to stays. -/
theorem conclude_brake {before after : Ride} {state : BrakeState} {cmd : ElementCommand} (calm : c.calm after)
    (he : after.element? z = some (.brake state cmd)) (same : (∀ cause, state ≠ .fault cause) → after.causes = before.causes) :
    ∃ cmd', (conclude c before after).element? z = some (.brake state cmd') := by
  by_cases h : ∃ cause, state = .fault cause
  · obtain ⟨cause, rfl⟩ := h
    obtain ⟨cmd', e⟩ := (tellLatched_changes (w := true) (o := true) (q := true) (c := c) (before := before)).brake_stuck z cause ⟨cmd, he⟩
    exact ⟨cmd', ((conclude_calm calm).element? rfl z).trans e⟩
  · have causes := same fun cause e => h ⟨cause, e⟩
    exact ⟨cmd, ((conclude_untold calm causes).element? rfl z).trans he⟩

/-- The levels of a brake's proof lines, as the context reads them. -/
theorem onRide_proofs (line : ProofLine) (high : Bool) (changed : tget s.proofs line ≠ high) :
    proofLineChange line high (s.advance dt) =
      ({ s.advance dt with proofs := tput s.proofs line high }).onRide fun c r => proofTaken c line r := by
  have e : ¬ tget (s.advance dt).proofs line = high := changed
  unfold proofLineChange
  rw [if_neg e]
  rfl

theorem atLevels_moved {state : BrakeState} {l m : Bool} {cause : ElementFault} (h : state.atLevels l m = .fault cause)
    (sound : ∀ old, state ≠ .fault old) : state.atLevels l m ≠ state := fun e => sound cause (e ▸ h)

theorem proofExpiry_brake {state : BrakeState} {cmd : ElementCommand} {due : Nat} {cause : ElementFault}
    (he : r.element? z = some (.brake state cmd))
    (h : state = .opening due ∧ cause = .openTimeout ∨ state = .closing due ∧ cause = .closeTimeout) :
    proofExpiry c z r = brakeBecomes c z (.fault cause) cmd r ∧ (Element.brake state cmd).timerDue = some due := by
  obtain ⟨rfl, rfl⟩ | ⟨rfl, rfl⟩ := h
  · exact ⟨by simp only [proofExpiry, he], rfl⟩
  · exact ⟨by simp only [proofExpiry, he], rfl⟩

/-- Settles O54: the step is the brake's change alone, since it leaves the ride calm; a fault it is brought to stays. -/
theorem brakeProofsAndTimers : Obligations.BrakeProofsAndTimers := by
  unfold Obligations.BrakeProofsAndTimers
  refine ⟨fun s dt line high z d o cl ms state cmd changed used hd brake he calm => ?_, fun s dt z due cmd state cause he how => ?_⟩
  · set s' : State := { s.advance dt with proofs := tput s.proofs line high } with hs'
    have levels : s'.ctx.brakeLevels z = (tget s'.proofs o, tget s'.proofs cl) := brakeLevels_brake hd brake
    have taken : proofTaken s'.ctx line s.ride = brakeProofChange s'.ctx z s.ride := by
      unfold proofTaken
      rw [show s'.ctx.map.brakeOf line = some z from used]
    have changes : Changes false false false s.ride (brakeProofChange s'.ctx z s.ride) := brakeProofChange_changes z
    have calm' : s'.ctx.calm (brakeProofChange s'.ctx z s.ride) := Ctx.calm.changes (c := s'.ctx) calm changes
    have ride : (s'.onRide fun c r => proofTaken c line r).ride = conclude s'.ctx s.ride (brakeProofChange s'.ctx z s.ride) := by
      rw [← taken]; rfl
    have element : ∃ cmd', (conclude s'.ctx s.ride (brakeProofChange s'.ctx z s.ride)).element? z =
        some (.brake (state.atLevels (tget s'.proofs o) (tget s'.proofs cl)) cmd') := by
      have at_ := brakeProofChange_element (c := s'.ctx) (r := s.ride) z
      rw [he, Option.map_some, Ctx.atLevels, levels] at at_
      refine conclude_brake calm' at_ fun sound => ?_
      rw [brakeProofChange_brake he, levels]
      split
      · rfl
      · exact brakeBecomes_causes sound
    refine ⟨s'.onRide fun c r => proofTaken c line r, ?_, rfl, ?_, ?_, ?_, ?_⟩
    · show Host.Outcome.next (proofLineChange line high (s.advance dt)) = _
      rw [onRide_proofs line high changed]
    · rw [ride]
      exact changes.keeps.trans conclude_narrow.keeps
    · rintro a b rfl rfl
      rw [ride]
      exact element
    · intro cause cmd' sound fault
      rw [ride] at fault ⊢
      obtain ⟨cmd'', e⟩ := element
      have new : state.atLevels (tget s'.proofs o) (tget s'.proofs cl) = .fault cause := by
        rw [e] at fault
        injection fault with fault
        injection fault
      have told : (brakeProofChange s'.ctx z s.ride).Told .elementFault := by
        rw [brakeProofChange_brake he, levels, if_neg (atLevels_moved new sound), new]
        exact brakeBecomes_told cause cmd
      exact told.grows conclude_grows
    · intro k x due ho hx head
      have becomes (h : state.atLevels (tget s'.proofs o) (tget s'.proofs cl) ≠ state) : brakeProofChange s'.ctx z s.ride =
          brakeBecomes s'.ctx z (state.atLevels (tget s'.proofs o) (tget s'.proofs cl)) cmd s.ride := by
        rw [brakeProofChange_brake he, levels, if_neg h]
      rw [ride]
      refine ⟨?_, ?_⟩
      · rintro rfl open_ closed rest
        rw [show tget s'.proofs o = true from open_, show tget s'.proofs cl = false from closed] at becomes
        have e := becomes (by simp [BrakeState.atLevels])
        have within := conclude_untold (before := s.ride) calm' (by rw [e]; exact provenOpen_causes)
        refine ⟨x.released s'.ctx z, ?_, rfl, rfl, rfl, ?_⟩
        · rw [within.train? rfl, e]
          exact provenOpen_release ho hx rest head
        · simp only [Train.released, deadlineFrom, Ctx.releaseAllowance]
          rw [show s'.ctx.map.zone z = some d from hd]
          rfl
      · rintro rfl open_ closed held
        rw [show tget s'.proofs o = false from open_, show tget s'.proofs cl = true from closed] at becomes
        have e := becomes (by simp [BrakeState.atLevels])
        have within := conclude_untold (before := s.ride) calm' (by rw [e]; exact provenClosed_causes)
        obtain ⟨train, claims⟩ := provenClosed_returns (c := s'.ctx) (r := s.ride.putElement z (.brake .closed cmd)) (z := z) ho hx held head
        refine ⟨⟨{ x with chain := [] }, ?_, held, rfl⟩, fun y hy hc => ?_⟩
        · rw [within.train? rfl, e]
          exact train
        · rw [within.claim? rfl, e]
          exact claims y hy hc
  · obtain ⟨becomes, timer⟩ := proofExpiry_brake (c := (s.advance dt).ctx) he how
    have cond : ((s.advance dt).ride.element? z).any (fun e => e.timerDue.any (s.advance dt).reached) = decide (due ≤ s.now + dt) := by
      rw [show (s.advance dt).ride.element? z = _ from he, Option.any_some, timer]
      rfl
    refine ⟨fun reached => ?_, fun early => ?_⟩
    · have h : s.Happened dt (fun c r => proofExpiry c z r) ((s.advance dt).proofExpires z) :=
        onRideIf_happened (cond.trans (decide_eq_true reached))
      have ride : ((s.advance dt).proofExpires z).ride = conclude (s.advance dt).ctx s.ride (proofExpiry (s.advance dt).ctx z s.ride) :=
        h.ride
      rw [becomes] at ride
      have told := brakeBecomes_told (c := (s.advance dt).ctx) (z := z) (r := s.ride) cause cmd
      have changes : Changes false false false s.ride (brakeBecomes (s.advance dt).ctx z (.fault cause) cmd s.ride) := by
        rw [← becomes]
        exact proofExpiry_changes z
      obtain ⟨cmd', element⟩ := conclude_brake (before := s.ride) (.inr (latched_of_cause told.1))
        ((brakeBecomes_element (c := (s.advance dt).ctx) (r := s.ride) z (.fault cause) cmd z).trans (if_pos rfl))
        fun sound => absurd rfl (sound cause)
      have end_ := told.grows (conclude_grows (c := (s.advance dt).ctx) (before := s.ride))
      rw [← ride] at element end_
      refine ⟨_, rfl, h.only, ⟨cmd', element⟩, ?_, end_.1, end_.2, ?_⟩
      · exact elementOutput_off fun e he => (Option.some.inj (element.symm.trans he)) ▸ rfl
      · rw [ride]
        exact changes.keeps.trans conclude_narrow.keeps
    · show Host.Outcome.next ((s.advance dt).proofExpires z) = _
      exact congrArg _ (onRideIf_not (cond.trans (decide_eq_false (by omega))))

end Sys2Proof.Machine
end

section
/-! PROOF. The steps of a drive channel and what their arrival proves (R61, R132, R133, R135). -/

namespace Sys2Proof.Machine

variable {s t : State} {dt : Nat} {c : Ctx} {r : Ride} {z : ZoneIx} {k : SlotIx} {x : Train} {i : ChannelIx} {ch : Channel} {d : DriveDesc}
  {due : Nat} {cmd : ElementCommand}

theorem driveArrives_causes : (driveArrives c z cmd r).causes = r.causes := by
  cases cmd with
  | close => exact provenClosed_causes.trans rfl
  | openRun => exact provenOpen_causes.trans rfl
  | openCreep => exact provenOpen_causes.trans rfl

theorem driveArrives_release (open_ : cmd ≠ .close) (ho : r.occupant? z = some k) (hx : r.train? k = some x)
    (rest : x.phase = .held ∨ x.phase = .stopping) (head : x.head = z) : (driveArrives c z cmd r).train? k = some (x.released c z) := by
  cases cmd with
  | close => exact absurd rfl open_
  | openRun => exact provenOpen_release ho hx rest head
  | openCreep => exact provenOpen_release ho hx rest head

/-- A step goes toward the target and no further; it arrives where it reaches it. -/
theorem stepped_spec (ch : Channel) (size next : Nat) :
    (ch.stepped size next).1.target = ch.target ∧ (ch.stepped size next).1.zone = ch.zone ∧
    (ch.code ≤ ch.target → (ch.stepped size next).1.code = min ch.target (ch.code + size)) ∧
    (ch.target ≤ ch.code → (ch.stepped size next).1.code = max ch.target (ch.code - size)) ∧
    (ch.stepped size next).1.stepDue = (if (ch.stepped size next).1.code = ch.target then none else some next) ∧
    (ch.stepped size next).2 = decide ((ch.stepped size next).1.code = ch.target) := by
  unfold Channel.stepped
  generalize hcode : (if ch.target < ch.code then ch.code - min size (ch.code - ch.target) else ch.code + min size (ch.target - ch.code)) = code
  have up : ch.code ≤ ch.target → code = min ch.target (ch.code + size) := fun h => by
    rw [if_neg (by omega)] at hcode
    omega
  have down : ch.target ≤ ch.code → code = max ch.target (ch.code - size) := fun h => by
    split at hcode <;> omega
  dsimp only
  by_cases arrived : code = ch.target
  · rw [if_pos arrived]
    exact ⟨arrived, rfl, up, down, (if_pos arrived).symm, (decide_eq_true arrived).symm⟩
  · rw [if_neg arrived]
    exact ⟨rfl, rfl, up, down, (if_neg arrived).symm, (decide_eq_false arrived).symm⟩

theorem stepSize_eq (latched : Bool) : stepSize d ch.falling latched =
    if ch.target < ch.code ∧ latched = true ∧ d.profile = .ramp then d.stopStep else d.step := by
  simp only [stepSize, Channel.falling, decide_eq_true_eq]

/-- A due step of a channel. -/
theorem channelStep_eq (hx : r.channel? i = some ch) (hd : c.map.drive i = some d) (hdue : ch.stepDue = some due) :
    channelStep c i r =
      if (ch.stepped (stepSize d ch.falling r.latched) (dueAfter due d.interval)).1.code = ch.target then
        channelArrival c ch.zone d ch.target (r.putChannel i (ch.stepped (stepSize d ch.falling r.latched) (dueAfter due d.interval)).1)
      else r.putChannel i (ch.stepped (stepSize d ch.falling r.latched) (dueAfter due d.interval)).1 := by
  obtain ⟨-, -, -, -, -, arrives⟩ := stepped_spec ch (stepSize d ch.falling r.latched) (dueAfter due d.interval)
  simp only [channelStep, hx, hd, hdue, arrives, decide_eq_true_eq]
  split
  · next h => rw [h]
  · rfl

theorem channelArrival_causes {zone : Option ZoneIx} {code : Nat} : (channelArrival c zone d code r).causes = r.causes := by
  unfold channelArrival
  split
  · rfl
  · split
    · split
      · exact driveArrives_causes
      · rfl
    · rfl

/-- An element hears of the code that its command names, and of no other. -/
theorem channelArrival_drive {st : DriveState} {code : Nat} (he : r.element? z = some (.drive st cmd)) :
    channelArrival c (some z) d code r = if cmd.codeOn d = code then driveArrives c z cmd r else r := by
  simp only [channelArrival, he]

/-- Settles O56: the channel's step is the step's only effect, since neither an arrival nor what it proves reports a stop. -/
theorem driveSteps : Obligations.DriveSteps := by
  unfold Obligations.DriveSteps
  intro s dt i ch d due size hx hd hdue calm hsize
  have cond : ((s.advance dt).ride.channel? i).any (fun x => x.stepDue.any (s.advance dt).reached) = decide (due ≤ s.now + dt) := by
    rw [show (s.advance dt).ride.channel? i = _ from hx, Option.any_some, hdue]
    rfl
  refine ⟨fun reached => ?_, fun early => ?_⟩
  · have h : s.Happened dt (fun c r => channelStep c i r) ((s.advance dt).channelSteps i) :=
      onRideIf_happened (cond.trans (decide_eq_true reached))
    set c := (s.advance dt).ctx with hc
    have ride : ((s.advance dt).channelSteps i).ride = conclude c s.ride (channelStep c i s.ride) := h.ride
    have changes : Changes false false false s.ride (channelStep c i s.ride) := channelStep_changes i
    have eq := channelStep_eq (c := c) hx hd hdue
    rw [stepSize_eq, ← hsize] at eq
    obtain ⟨target, zone, up, down, step, -⟩ := stepped_spec ch size (dueAfter due d.interval)
    generalize (ch.stepped size (dueAfter due d.interval)).1 = y at eq target zone up down step
    have within := conclude_untold (before := s.ride) (Ctx.calm.changes (c := c) calm changes) (by
      rw [eq]
      split
      · exact channelArrival_causes.trans rfl
      · rfl)
    have channel : (channelStep c i s.ride).channel? i = some y := by
      have put : (s.ride.putChannel i y).channel? i = some y := tget_tput_same _ _ _
      rw [eq]
      split
      · rw [(channelArrival_within (c := c) (r := s.ride.putChannel i y) ch.zone d ch.target).channel? rfl, put]
      · exact put
    refine ⟨_, y, rfl, h.only, ?_, ?_, target, zone, up, down, step, fun z st cmd hz he => ⟨fun away => ?_, fun there names => ?_⟩⟩
    · rw [ride]
      exact changes.keeps.trans conclude_narrow.keeps
    · rw [ride, within.channel? rfl, channel]
    · have same : (channelStep c i s.ride) = s.ride.putChannel i y := by
        rw [eq]
        split
        · next arrived =>
          rw [hz, channelArrival_drive (r := s.ride.putChannel i y) he, if_neg (away.resolve_left (fun h => h arrived))]
        · rfl
      rw [ride, within.element? rfl, same]
      exact he
    · have arrives : channelStep c i s.ride = driveArrives c z cmd (s.ride.putChannel i y) := by
        rw [eq, if_pos there, hz, channelArrival_drive (r := s.ride.putChannel i y) he, if_pos names]
      rw [arrives] at within
      refine ⟨?_, fun k w ho hw head => ⟨fun open_ rest => ?_, fun close held => ?_⟩⟩
      · rw [ride, arrives, within.element? rfl, driveArrives_element, if_pos rfl]
      · refine ⟨w.released c z, ?_, rfl, rfl, rfl, rfl⟩
        rw [ride, arrives, within.train? rfl]
        exact driveArrives_release (r := s.ride.putChannel i y) open_ ho hw rest head
      · subst close
        obtain ⟨train, claims⟩ := provenClosed_returns (c := c) (r := (s.ride.putChannel i y).putElement z (.drive .closed .close)) (z := z)
          ho hw held head
        refine ⟨⟨{ w with chain := [] }, ?_, held, rfl⟩, fun v hv hv' => ?_⟩
        · rw [ride, arrives, within.train? rfl]
          exact train
        · rw [ride, arrives, within.claim? rfl]
          exact claims v hv hv'
  · show Host.Outcome.next ((s.advance dt).channelSteps i) = _
    exact congrArg _ (onRideIf_not (cond.trans (decide_eq_false (by omega))))

end Sys2Proof.Machine
end

section
/-! PROOF. Switch proofs and move timers (R110 to R113, R116). -/

namespace Sys2Proof.Machine

variable {s t : State} {dt : Nat} {c : Ctx} {w v : SwitchIx} {a b r : Ride} {z u : ZoneIx} {k : SlotIx} {x y : SwitchRec}
  {d : SwitchDesc} {cause : SwitchFault}

/-! ### What the closing of elements can do to claims and switches -/

/-- One effect of an element's close: a zone that a returned chain gives up goes to CLEAR; zones and switches are otherwise left. -/
inductive Ride.Ebb (c : Ctx) (r : Ride) : Ride → Prop
  | within {p : Parts} {b : Ride} (h : Ride.Within p r b) (zones : p.zones = false) (switches : p.switches = false) : Ebb c r b
  | cleared (z : ZoneIx) : Ebb c r (setClaim c z .clear r)

/-- A sequence of such effects. -/
def Ride.Ebbs (c : Ctx) : Ride → Ride → Prop := Relation.ReflTransGen (Ride.Ebb c)

namespace Ride.Ebbs

theorem refl (a : Ride) : Ride.Ebbs c a a := Relation.ReflTransGen.refl

theorem trans {d : Ride} (h : Ride.Ebbs c a b) (k : Ride.Ebbs c b d) : Ride.Ebbs c a d := Relation.ReflTransGen.trans h k

theorem of_within {p : Parts} (h : Ride.Within p a b) (zones : p.zones = false) (switches : p.switches = false) : Ride.Ebbs c a b :=
  .single (.within h zones switches)

theorem overAll {n : Nat} {f : Fin n → Ride → Ride} (h : ∀ i r, Ride.Ebbs c r (f i r)) (r : Ride) : Ride.Ebbs c r (overAll f r) :=
  overAll_induct (Ride.Ebbs c r) f (fun i _ k => k.trans (h i _)) r (refl r)

end Ride.Ebbs

theorem returnChain_ebbs (k : SlotIx) : Ride.Ebbs c r (returnChain c k r) := by
  unfold returnChain
  split
  · exact .refl r
  · next x _ =>
    refine foldl_induct (fun b : Ride => Ride.Ebbs c r b) _ (fun b z h => ?_) _ _ (.of_within (putTrain_within k _) rfl rfl)
    split
    · exact h.trans (.single (.cleared z))
    · exact h

theorem provenClosed_ebbs (z : ZoneIx) : Ride.Ebbs c r (provenClosed c z r) := by
  unfold provenClosed
  split
  · exact .refl r
  · split
    · exact .refl r
    · split
      · exact (returnChain_ebbs _).trans (.of_within (zoneStationEvent_within z _) rfl rfl)
      · exact .refl r

theorem brakeBecomes_ebbs (z : ZoneIx) (state : BrakeState) (cmd : ElementCommand) : Ride.Ebbs c r (brakeBecomes c z state cmd r) := by
  have put : Ride.Ebbs c r (r.putElement z (.brake state cmd)) := .of_within (putElement_within z _) rfl rfl
  refine put.trans ?_
  cases state with
  | opened => exact .of_within (provenOpen_within z) rfl rfl
  | closed => exact provenClosed_ebbs z
  | fault cause =>
    exact (Ride.Ebbs.of_within (raise_within .fault) rfl rfl).trans (.of_within (report_within .elementFault) rfl rfl)
  | opening due => exact .refl _
  | closing due => exact .refl _

theorem brakeCommand_ebbs (z : ZoneIx) (cmd : ElementCommand) (state : BrakeState) : Ride.Ebbs c r (brakeCommand c z cmd state r) := by
  unfold brakeCommand
  split
  · exact .of_within (putElement_within z _) rfl rfl
  · exact brakeBecomes_ebbs ..
  · exact brakeBecomes_ebbs ..
  · exact brakeBecomes_ebbs ..

theorem driveArrives_ebbs (z : ZoneIx) (cmd : ElementCommand) : Ride.Ebbs c r (driveArrives c z cmd r) := by
  have put (e : Element) : Ride.Ebbs c r (r.putElement z e) := .of_within (putElement_within z e) rfl rfl
  cases cmd with
  | close => exact (put _).trans (provenClosed_ebbs z)
  | openRun => exact (put _).trans (.of_within (provenOpen_within z) rfl rfl)
  | openCreep => exact (put _).trans (.of_within (provenOpen_within z) rfl rfl)

theorem driveCommand_ebbs (z : ZoneIx) (cmd : ElementCommand) : Ride.Ebbs c r (driveCommand c z cmd r) := by
  unfold driveCommand
  split
  · exact .refl r
  · split
    · next i _ _ _ ch d _ _ =>
      generalize (if stopsAtOnce r d cmd then (ch.restingAt 0, true) else ch.aimed (cmd.codeOn d) (dueAfter c.now d.interval)) = aim
      have put : Ride.Ebbs c r (r.putChannel i aim.1) := .of_within (putChannel_within i _) rfl rfl
      dsimp only
      split
      · exact put.trans (driveArrives_ebbs z cmd)
      · exact put.trans (.of_within (driveInFlight_within z cmd) rfl rfl)
    · exact .refl r

theorem commandElement_ebbs (z : ZoneIx) (cmd : ElementCommand) : Ride.Ebbs c r (commandElement c z cmd r) := by
  unfold commandElement
  split
  · exact brakeCommand_ebbs ..
  · exact driveCommand_ebbs ..
  · exact .refl r

theorem closeElement_ebbs (z : ZoneIx) : Ride.Ebbs c r (closeElement c z r) := by
  unfold closeElement
  split
  · exact .refl r
  · exact (Ride.Ebbs.of_within (closeUnderTrain_within z) rfl rfl).trans (commandElement_ebbs z .close)

theorem channelStop_ebbs (i : ChannelIx) : Ride.Ebbs c r (channelStop c i r) := by
  unfold channelStop
  split
  · next ch d _ _ =>
    generalize (if d.profile = .immediate then (ch.restingAt 0, true) else ch.aimed 0 (dueAfter c.now d.interval)) = aim
    have put : Ride.Ebbs c r (r.putChannel i aim.1) := .of_within (putChannel_within i _) rfl rfl
    dsimp only
    split
    · exact put
    · split
      · split
        · exact put.trans (driveArrives_ebbs _ _)
        · exact put.trans (.of_within (putElement_within _ _) rfl rfl)
      · exact put
  · exact .refl r

theorem stopRide_ebbs : Ride.Ebbs c r (r.stopRide c) :=
  (Ride.Ebbs.overAll (fun z _ => closeElement_ebbs z) r).trans
    ((Ride.Ebbs.overAll (fun i _ => channelStop_ebbs i) _).trans
      (.overAll (fun st _ => .of_within (stationEvent_within st .cancel) rfl rfl) _))

theorem tellLatched_ebbs {before : Ride} : Ride.Ebbs c r (tellLatched c before r) := by
  unfold tellLatched
  split
  · exact stopRide_ebbs
  · exact .refl r

/-! ### A switch in FAULT keeps all but its commitment -/

/-- Switch `w` stands in FAULT as record `x`, but that its commitment ends where a zone that holds it has gone to CLEAR since `a`
(R113); and no zone has taken a claim since. -/
structure Ride.Stands (r : Ride) (c : Ctx) (a : Ride) (w : SwitchIx) (x : SwitchRec) : Prop where
  record : ∃ y, r.switch? w = some y ∧ y.pos = x.pos ∧ y.pending = x.pending ∧ y.role = x.role ∧
    (y.committed = x.committed ∨ y.committed = none ∧ ∃ z d, c.map.zone z = some d ∧ d.switch = some w ∧
      a.claim? z ≠ some .clear ∧ r.claim? z = some .clear)
  claims : ∀ z, r.claim? z = a.claim? z ∨ r.claim? z = some .clear

/-- The switch controller told of a zone that goes to CLEAR (R113). -/
theorem claimToSwitch_clear (z : ZoneIx) (old : Claim) : claimToSwitch c z old .clear r = r ∨
    ∃ w, heldSwitch c z = some w ∧ old ≠ .clear ∧ claimToSwitch c z old .clear r = switchZoneCleared c w r := by
  unfold claimToSwitch
  split
  · exact .inl rfl
  · next w hw =>
    by_cases h : old = .clear
    · simp [h]
    · exact .inr ⟨w, hw, h, by simp [h]⟩

theorem switchZoneCleared_other (h : w ≠ v) : (switchZoneCleared c v r).switch? w = r.switch? w := by
  unfold switchZoneCleared
  split
  · rfl
  · dsimp only
    split <;> exact putSwitch_other _ _ _ _ h

theorem switchZoneCleared_fault (hx : r.switch? w = some x) (fault : x.pos = .fault cause) :
    (switchZoneCleared c w r).switch? w = some { x with committed := none, role := x.role.atClear } := by
  simp only [switchZoneCleared, hx, fault]
  exact putSwitch_same _ _ _

/-- The switches as a zone goes to CLEAR. -/
theorem setClaim_clear_switches (z : ZoneIx) : (setClaim c z .clear r).switches = r.switches ∨
    ∃ w, heldSwitch c z = some w ∧ r.claim? z ≠ some .clear ∧ (r.claim? z).isSome = true ∧
      (setClaim c z .clear r).switches = (switchZoneCleared c w r).switches := by
  unfold setClaim
  split
  · exact .inl rfl
  · next zr hz =>
    have station (q : Ride) : (claimToStation c z zr.claim .clear q).switches = q.switches := (claimToStation_within z _ _).switches rfl
    have claim : r.claim? z = some zr.claim := by simp [Ride.claim?, hz]
    rcases claimToSwitch_clear (c := c) (r := r.putZone z { zr with claim := .clear }) z zr.claim with e | ⟨w, hw, old, e⟩
    · exact .inl ((station _).trans ((congrArg Ride.switches e).trans rfl))
    · refine .inr ⟨w, hw, by rw [claim]; simpa using old, by rw [claim]; rfl, ((station _).trans (congrArg Ride.switches e)).trans ?_⟩
      unfold switchZoneCleared
      rw [show (r.putZone z { zr with claim := .clear }).switch? w = r.switch? w from rfl]
      cases r.switch? w with
      | none => rfl
      | some x => cases hp : x.pos <;> simp only [hp] <;> rfl

theorem setClaim_clear_claim (h : r.claim? u = some .clear) (z : ZoneIx) : (setClaim c z .clear r).claim? u = some .clear := by
  rw [setClaim_claim?]
  split
  · next e => rw [← e, h]; rfl
  · exact h

theorem Ride.Stands.cleared (fault : x.pos = .fault cause) (idle : x.role.atClear = x.role) (h : r.Stands c a w x) (z : ZoneIx) :
    (setClaim c z .clear r).Stands c a w x := by
  obtain ⟨⟨y, hy, pos, pending, role, committed⟩, claims⟩ := h
  refine ⟨?_, fun u => ?_⟩
  · have stays : y.committed = x.committed ∨ y.committed = none ∧ ∃ u d, c.map.zone u = some d ∧ d.switch = some w ∧
        a.claim? u ≠ some .clear ∧ (setClaim c z .clear r).claim? u = some .clear :=
      committed.imp_right fun ⟨gone, u, d, hd, hw, was, now⟩ => ⟨gone, u, d, hd, hw, was, setClaim_clear_claim now z⟩
    rcases setClaim_clear_switches (c := c) (r := r) z with e | ⟨v, hv, taken, exists_, e⟩
    · exact ⟨y, (congrArg (tget · w) e).trans hy, pos, pending, role, stays⟩
    · by_cases same : w = v
      · subst same
        obtain ⟨d, hd, hw⟩ := Option.bind_eq_some_iff.mp hv
        refine ⟨_, (congrArg (tget · w) e).trans (switchZoneCleared_fault hy (pos.trans fault)), pos, pending, ?_, .inr ⟨rfl, z, d, hd, hw, ?_, ?_⟩⟩
        · exact (congrArg SwitchRole.atClear role).trans idle
        · rwa [(claims z).resolve_right taken] at taken
        · rw [setClaim_claim?, if_pos rfl]
          obtain ⟨old, hold⟩ := Option.isSome_iff_exists.mp exists_
          rw [hold]; rfl
      · exact ⟨y, (congrArg (tget · w) e).trans ((switchZoneCleared_other same).trans hy), pos, pending, role, stays⟩
  · rw [setClaim_claim?]
    split
    · next e =>
      subst e
      rcases claims u with e | e
      · rw [e]
        cases a.claim? u with
        | none => exact .inl rfl
        | some old => exact .inr rfl
      · rw [e]; exact .inr rfl
    · exact claims u

theorem Ride.Stands.ebbs (fault : x.pos = .fault cause) (idle : x.role.atClear = x.role) (h : a.Stands c a w x) (k : Ride.Ebbs c a b) :
    b.Stands c a w x := by
  induction k with
  | refl => exact h
  | tail _ ebb ih =>
    cases ebb with
    | cleared z => exact ih.cleared fault idle z
    | within within zones switches =>
      obtain ⟨⟨y, hy, pos, pending, role, committed⟩, claims⟩ := ih
      refine ⟨⟨y, (within.switch? switches w).trans hy, pos, pending, role, ?_⟩, fun u => ?_⟩
      · simpa only [within.claim? zones] using committed
      · simpa only [within.claim? zones] using claims u

/-! ### The record of a switch that enters FAULT -/

theorem atFault_atClear (role : SwitchRole) : role.atFault.atClear = role.atFault := by cases role <;> rfl

theorem faultedBy_stopped : x.stoppedAs (x.faultedBy cause) cause := by
  refine ⟨rfl, fun setting last hr => ⟨?_, ?_⟩, fun reqA reqB arb served hr => ⟨?_, ?_, ?_⟩⟩
  · simp only [SwitchRec.faultedBy, hr, SwitchRole.atFault]
  · simp only [SwitchRec.faultedBy, hr, SwitchRole.isAligning]
    split <;> simp_all
  · simp only [SwitchRec.faultedBy, hr, SwitchRole.atFault]
  · rintro ⟨⟨side, rfl⟩, toward, hp⟩
    simp only [SwitchRec.faultedBy, hr, hp, SwitchRole.isAligning, if_true]
  · intro keeps
    simp only [SwitchRec.faultedBy, hr]
    split
    · next toward hp =>
      have rest := keeps.resolve_right fun h => h toward hp
      cases arb with
      | aligning side => exact absurd rfl (rest side)
      | _ => simp [SwitchRole.isAligning]
    · rfl

theorem SwitchRec.stoppedAs.congr {y' : SwitchRec} (h : x.stoppedAs y cause) (pos : y'.pos = y.pos) (pending : y'.pending = y.pending)
    (role : y'.role = y.role) : x.stoppedAs y' cause :=
  ⟨pos.trans h.pos, fun setting last hr => by rw [pending, role]; exact h.route setting last hr,
    fun reqA reqB arb served hr => by rw [pending, role]; exact h.merge reqA reqB arb served hr⟩

theorem faultSwitch_told (hx : r.switch? w = some x) : (faultSwitch w cause r).Told .switchFault := by
  simp only [faultSwitch, hx]
  exact told_report .switchFault

/-- A step that faults a switch: the stop it reports closes the elements, and the interlock then only withdraws (R111, R113). -/
theorem conclude_faultSwitch (hx : r.switch? w = some x) :
    ∃ y, (conclude c r (faultSwitch w cause r)).switch? w = some y ∧ y.pos = .fault cause ∧
      (y.committed = x.committed ∨ y.committed = none ∧ ∃ z d, c.map.zone z = some d ∧ d.switch = some w ∧
        r.claim? z ≠ some .clear ∧ (conclude c r (faultSwitch w cause r)).claim? z = some .clear) ∧
      (conclude c r (faultSwitch w cause r)).Told .switchFault ∧ ((∀ k, r.presented? k = none) → x.stoppedAs y cause) := by
  have told := faultSwitch_told (cause := cause) hx
  have calm : c.calm (faultSwitch w cause r) := .inr (latched_of_cause told.1)
  have within := faultSwitch_within (r := r) w cause
  have stands : (faultSwitch w cause r).Stands c (faultSwitch w cause r) w (x.faultedBy cause) :=
    ⟨⟨_, faultSwitch_switch hx cause, rfl, rfl, rfl, .inl rfl⟩, fun z => .inl rfl⟩
  obtain ⟨⟨y, hy, pos, pending, role, committed⟩, -⟩ :=
    Ride.Stands.ebbs rfl (atFault_atClear x.role) stands (tellLatched_ebbs (c := c) (before := r))
  obtain ⟨y', hy', rested, same⟩ := conclude_settled (before := r) calm hy (.inl ⟨cause, pos⟩)
  refine ⟨y', hy', rested.pos.trans pos, ?_, told.grows conclude_grows, fun absent => ?_⟩
  · rw [rested.committed]
    simp only [within.claim? rfl] at committed
    simp only [(conclude_calm (before := r) calm).claim? rfl]
    exact committed
  · rw [same fun k => (within.presented? rfl k).trans (absent k)]
    exact faultedBy_stopped.congr pos pending role

/-! ### The changes of a switch's proofs -/

/-- The switch stands in FAULT, or is proven where it stands or is not yet proven where it goes. -/
def SwitchRec.unmoved (x : SwitchRec) (l m : Bool) : Prop :=
  (∃ cause, x.pos = .fault cause) ∨ (∃ at_, x.pos = .locked at_ ∧ l ≠ m) ∨
    ∃ side due, x.pos = .moving side due ∧ (match side with | .a => l | .b => m) = false

theorem switchProofChange_rests {l m : Bool} (hx : r.switch? w = some x) (h : x.unmoved l m) : switchProofChange c w l m r = r := by
  rcases h with ⟨cause, hp⟩ | ⟨at_, hp, ne⟩ | ⟨side, due, hp, away⟩
  · simp only [switchProofChange, hx, hp]
  · cases l <;> cases m <;> simp [switchProofChange, hx, hp] at ne ⊢
  · cases side <;> simp_all [switchProofChange]

theorem switchProofChange_locks {l m : Bool} {side : Side} {due : Nat} (hx : r.switch? w = some x) (hp : x.pos = .moving side due)
    (hl : l = (side == .a)) (hm : m = (side == .b)) : switchProofChange c w l m r = lockSwitch c w side r := by
  subst hl hm
  cases side <;> simp [switchProofChange, hx, hp]

theorem switchProofChange_faults {l m : Bool} (hx : r.switch? w = some x)
    (h : (∀ old, x.pos ≠ .fault old) ∧ l = true ∧ m = true ∧ cause = .proofConflict ∨
      (∃ at_, x.pos = .locked at_) ∧ l = false ∧ m = false ∧ cause = .proofLost) :
    switchProofChange c w l m r = faultSwitch w cause r := by
  rcases h with ⟨sound, rfl, rfl, rfl⟩ | ⟨⟨at_, hp⟩, rfl, rfl, rfl⟩
  · cases hp : x.pos with
    | fault old => exact absurd hp (sound old)
    | locked at_ => simp [switchProofChange, hx, hp]
    | moving side due => simp [switchProofChange, hx, hp]
  · simp [switchProofChange, hx, hp]

/-- A switch that locks: the lock is handed to its pending request (R110, R112). -/
theorem lockSwitch_cases {side : Side} (hx : r.switch? w = some x) (hd : c.map.switch w = some d) :
    ∃ y, (lockSwitch c w side r).switch? w = some y ∧ y.committed = x.committed ∧ y.role = x.role.atLock side ∧
      (x.pending = none ∨ (∃ source, x.pending = some (side, source)) → y.pos = .locked side ∧ y.pending = none) ∧
      ∀ source, x.pending = some (side.other, source) →
        if r.claim? d.zone = some .clear then y.pos = .moving side.other (c.now + d.timeout * 1000) ∧ y.pending = none
        else y.pos = .locked side ∧ y.pending = x.pending := by
  refine ⟨_, lockSwitch_switch hx side, by simp, by simp, ?_, fun source hp => ?_⟩
  · rintro (hp | ⟨source, hp⟩)
    · simp [pendingAtLock, hp]
    · simp [pendingAtLock, hp]
  · have ne : ¬ side.other = side := by cases side <;> simp [Side.other]
    have clear := switchZoneClear_iff (c := c) (r := r) hd
    simp only [pendingAtLock, hp, ne, if_false]
    by_cases h : r.claim? d.zone = some .clear
    · rw [if_pos (clear.mpr h), if_pos h]
      exact ⟨startedMove_pos hd _, rfl⟩
    · rw [if_neg (fun k => h (clear.mp k)), if_neg h]
      exact ⟨rfl, rfl⟩

theorem atLock_free {side : Side} (hy : y.role = x.role.atLock side)
    (free : ∀ reqA reqB arb served, x.role = .merge reqA reqB arb served → reqA = none ∧ reqB = none) : y.Settled := by
  refine .inr fun reqA reqB arb served e => ?_
  rw [hy] at e
  cases hr : x.role with
  | diverge setting last =>
    rw [hr] at e
    cases e
  | merge reqA' reqB' arb' served' =>
    rw [hr] at e
    cases e
    exact free _ _ _ _ hr

theorem lockSwitch_causes {side : Side} : (lockSwitch c w side r).causes = r.causes := (lockSwitch_within w side).causes rfl

theorem switchOf_named {m : CircuitMap} {line : ProofLine} (h : m.switchOf line = some (w, d)) : m.switch w = some d := by
  obtain ⟨v, -, hv⟩ := List.exists_of_findSome?_eq_some h
  obtain ⟨e, he, hd⟩ := Option.bind_eq_some_iff.mp hv
  split at hd
  · cases hd
    exact he
  · cases hd

theorem Changes.switch_isSome {w' o q : Bool} (h : Changes w' o q a b) (some_ : (a.switch? w).isSome = true) : (b.switch? w).isSome = true := by
  induction h with
  | refl => exact some_
  | tail _ step ih =>
    cases step with
    | switch v x y hx stuck =>
      by_cases e : w = v
      · subst e
        rw [putSwitch_same]
        rfl
      · rw [putSwitch_other _ _ _ _ e]
        exact ih
    | report cause => rwa [(report_within cause).switch? rfl]
    | _ => exact ih

/-- What a step makes of a switch that enters FAULT in it. -/
structure State.Faults (s t : State) (w : SwitchIx) (x y : SwitchRec) (cause : SwitchFault) : Prop where
  pos : y.pos = .fault cause
  committed : s.committedStays t w x y
  told : t.ride.Told .switchFault
  stopped : (∀ k, s.ride.presented? k = none) → x.stoppedAs y cause

theorem faults_of (hx : s.ride.switch? w = some x) (hm : c.map = s.map)
    (ride : t.ride = conclude c s.ride (faultSwitch w cause s.ride)) (hy : t.ride.switch? w = some y) : s.Faults t w x y cause := by
  obtain ⟨y', hy', pos, committed, told, stopped⟩ := conclude_faultSwitch (c := c) (cause := cause) hx
  rw [← ride] at hy' committed told
  rw [hm] at committed
  cases Option.some.inj (hy.symm.trans hy')
  exact ⟨pos, committed, told, stopped⟩

/-- Settles O55: each case of the switch controller's operation, and then the step, whose fault stops the ride and whose other
changes report nothing, so that the interlock only withdraws. -/
theorem switchProofsAndTimers : Obligations.SwitchProofsAndTimers := by
  unfold Obligations.SwitchProofsAndTimers
  refine ⟨fun c w r x d l m hx hd => ⟨switchProofChange_rests hx, fun side due hp hl hm => ?_, fun cause h => ?_⟩,
    fun s dt line high w d x l m changed unused used hx hl hm => ?_, fun s dt w x side due hx hp => ⟨fun reached => ?_, fun early => ?_⟩⟩
  · rw [switchProofChange_locks hx hp hl hm]
    obtain ⟨y, hy, committed, role, done, other⟩ := lockSwitch_cases (side := side) hx hd
    refine ⟨y, hy, committed, fun setting last hr => ?_, done, other⟩
    rw [role, hr]
    rfl
  · rw [switchProofChange_faults hx h]
    have told := faultSwitch_told (cause := cause) hx
    exact ⟨_, faultSwitch_switch hx cause, faultedBy_stopped, rfl, told.1, told.2⟩
  · set s' : State := { s.advance dt with proofs := tput s.proofs line high } with hs'
    have hd : s'.ctx.map.switch w = some d := switchOf_named used
    have taken : proofTaken s'.ctx line s.ride = switchProofChange s'.ctx w l m s.ride := by
      unfold proofTaken
      rw [show s'.ctx.map.brakeOf line = none from unused, show s'.ctx.map.switchOf line = _ from used, hl, hm]
      rfl
    have ride : (s'.onRide fun c r => proofTaken c line r).ride = conclude s'.ctx s.ride (switchProofChange s'.ctx w l m s.ride) := by
      rw [← taken]; rfl
    have changes : Changes false false false s.ride (switchProofChange s'.ctx w l m s.ride) := switchProofChange_changes w l m
    obtain ⟨y, hy⟩ := Option.isSome_iff_exists.mp
      (conclude_narrow.switch_isSome (changes.switch_isSome (Option.isSome_iff_exists.mpr ⟨x, hx⟩)))
    have faults (cause : SwitchFault) (h : (∀ old, x.pos ≠ .fault old) ∧ l = true ∧ m = true ∧ cause = .proofConflict ∨
        (∃ at_, x.pos = .locked at_) ∧ l = false ∧ m = false ∧ cause = .proofLost) :
        s.Faults (s'.onRide fun c r => proofTaken c line r) w x y cause := by
      refine faults_of (c := s'.ctx) hx rfl ?_ (ride ▸ hy)
      rw [ride, switchProofChange_faults hx h]
    refine ⟨s'.onRide fun c r => proofTaken c line r, y, ?_, rfl, ?_, ride ▸ hy, fun sound hl hm => ?_, fun at_ hp hl hm => ?_, fun calm free => ⟨?_, ?_⟩⟩
    · show Host.Outcome.next (proofLineChange line high (s.advance dt)) = _
      rw [onRide_proofs line high changed]
    · rw [ride]
      exact changes.keeps.trans conclude_narrow.keeps
    · have h := faults .proofConflict (.inl ⟨sound, hl, hm, rfl⟩)
      exact ⟨h.pos, h.committed, h.told.1, h.told.2, h.stopped⟩
    · have h := faults .proofLost (.inr ⟨⟨at_, hp⟩, hl, hm, rfl⟩)
      exact ⟨h.pos, h.committed, h.told.1, h.told.2, h.stopped⟩
    · intro side due hp hl hm
      rw [switchProofChange_locks hx hp hl hm] at hy
      obtain ⟨v, hv, -, role, done, other⟩ := lockSwitch_cases (c := s'.ctx) (side := side) hx hd
      have within := lockSwitch_within (c := s'.ctx) (r := s.ride) w side
      have calm' : s'.ctx.calm (lockSwitch s'.ctx w side s.ride) := Ctx.calm.within (c := s'.ctx) calm within rfl
      have still : tellLatched s'.ctx s.ride (lockSwitch s'.ctx w side s.ride) = lockSwitch s'.ctx w side s.ride :=
        tellLatched_same (by rw [latched_congr lockSwitch_causes]; cases s.ride.latched <;> simp)
      obtain ⟨y', hy', rested, same⟩ := conclude_settled (before := s.ride) calm' (still.symm ▸ hv) (atLock_free role free)
      cases Option.some.inj (hy.symm.trans hy')
      have dropped (none_ : v.pending = none) : y.pending = none := rested.pending.elim (fun e => e.trans none_) (fun h => h.1)
      refine ⟨fun h => ?_, fun source hs clear => ?_, fun source hs taken_ => ?_⟩
      · exact ⟨rested.pos.trans (done h).1, dropped (done h).2⟩
      · have h := other source hs
        rw [if_pos clear] at h
        exact ⟨rested.pos.trans h.1, dropped h.2⟩
      · have h := other source hs
        rw [if_neg taken_] at h
        refine ⟨rested.pos.trans h.1, fun absent => ?_⟩
        rw [same fun k => (within.presented? rfl k).trans (absent k)]
        exact h.2
    · intro unmoved
      rw [switchProofChange_rests hx unmoved] at hy
      have still : tellLatched s'.ctx s.ride s.ride = s.ride := tellLatched_same (by cases s.ride.latched <;> simp)
      obtain ⟨y', hy', rested, same⟩ := conclude_settled (c := s'.ctx) (before := s.ride) (after := s.ride) calm (still.symm ▸ hx) (.inr free)
      cases Option.some.inj (hy.symm.trans hy')
      exact ⟨rested.pos, rested.committed, same⟩
  all_goals
    have cond : ((s.advance dt).ride.switch? w).any (fun x => x.pos.moveDue.any (s.advance dt).reached) = decide (due ≤ s.now + dt) := by
      rw [show (s.advance dt).ride.switch? w = _ from hx, Option.any_some, hp]
      rfl
  · have h : s.Happened dt (fun _ r => faultSwitch w .moveTimeout r) ((s.advance dt).moveExpires w) :=
      onRideIf_happened (cond.trans (decide_eq_true reached))
    have ride : ((s.advance dt).moveExpires w).ride = conclude (s.advance dt).ctx s.ride (faultSwitch w .moveTimeout s.ride) := h.ride
    obtain ⟨y, hy, -⟩ := conclude_faultSwitch (c := (s.advance dt).ctx) (cause := .moveTimeout) hx
    have faults := faults_of (c := (s.advance dt).ctx) hx rfl ride (ride ▸ hy)
    have changes : Changes false false false s.ride (faultSwitch w .moveTimeout s.ride) :=
      faultSwitch_changes w .moveTimeout fun v hv old e => by cases Option.some.inj (hx.symm.trans hv); cases hp.symm.trans e
    refine ⟨_, y, rfl, h.only, ride ▸ hy, faults.pos, faults.committed, faults.told.1, faults.told.2, ?_, faults.stopped⟩
    rw [ride]
    exact changes.keeps.trans conclude_narrow.keeps
  · show Host.Outcome.next ((s.advance dt).moveExpires w) = _
    exact congrArg _ (onRideIf_not (cond.trans (decide_eq_false (by omega))))

end Sys2Proof.Machine
end

section
/-! PROOF. What a track event leaves of the ride: the layer for O48 to O53 (R48, R55, R56, R63, R65). -/

namespace Sys2Proof.Machine

variable {s t : State} {dt : Nat} {c : Ctx} {a b e r : Ride} {z u : ZoneIx} {j k : SlotIx} {x y v : Train} {o q : Bool}
  {K K' : Option SlotIx} {H F V H' F' V' : Option ZoneIx}

/-! ### All but one train and one zone -/

/-- From `a` to `b` every train but `K` stands as it did, every zone but `H` keeps its hold sources, but `F` its fault and but `V` its
entry speed; causes and notices are only added. -/
structure Ride.But (a b : Ride) (K : Option SlotIx) (H F V : Option ZoneIx) : Prop where
  trains : ∀ j, some j ≠ K → b.standing j = a.standing j
  holds : ∀ z src, some z ≠ H → b.held z src = a.held z src
  faults : ∀ z, some z ≠ F → b.zoneFault z = a.zoneFault z
  speeds : ∀ z, some z ≠ V → b.entrySpeed z = a.entrySpeed z
  grows : a.grows b

namespace Ride.But

theorem refl (a : Ride) : a.But a K H F V := ⟨fun _ _ => rfl, fun _ _ _ => rfl, fun _ _ => rfl, fun _ _ => rfl, .refl a⟩

theorem trans (h : a.But b K H F V) (k : b.But e K H F V) : a.But e K H F V :=
  ⟨fun j hj => (k.trains j hj).trans (h.trains j hj), fun z src hz => (k.holds z src hz).trans (h.holds z src hz),
    fun z hz => (k.faults z hz).trans (h.faults z hz), fun z hz => (k.speeds z hz).trans (h.speeds z hz), h.grows.trans k.grows⟩

theorem of_changes (h : Changes false o q a b) : a.But b K H F V :=
  ⟨fun j _ => h.keeps.trains j, fun z src _ => h.keeps.holds z src, fun z _ => h.keeps.faults z, fun z _ => h.keeps.speeds z, h.grows⟩

theorem keeps (h : a.But b none none none none) : a.Keeps b :=
  ⟨fun z src => h.holds z src (by simp), fun z => h.faults z (by simp), fun z => h.speeds z (by simp), fun j => h.trains j (by simp),
    fun cause => h.grows.1 _, fun n => h.grows.2 _⟩

theorem apart (h : a.But b (some k) H F V) : a.Apart b k H :=
  ⟨fun j hj => h.trains j (by simpa using hj), h.holds, fun cause => h.grows.1 _, fun n => h.grows.2 _⟩

end Ride.But

/-- A train's standing, as a function of its record. -/
def Train.stands (x : Train) : Standing :=
  { label := x.label, head := x.head, tail := x.tail, guard := x.guard, lastSpeed := x.lastSpeed, awaited := x.awaited,
    early := x.early, overdue := x.overdue }

theorem standing_eq (r : Ride) (k : SlotIx) : r.standing k = (r.train? k).map Train.stands := rfl

/-- Two records put in one slot that stand alike. -/
theorem putTrain_keeps (same : y.stands = x.stands) : (r.putTrain k x).Keeps (r.putTrain k y) := by
  refine ⟨fun _ _ => rfl, fun _ => rfl, fun _ => rfl, fun j => ?_, fun _ h => h, fun _ h => h⟩
  by_cases hj : j = k
  · subst hj
    rw [standing_eq, standing_eq, putTrain_same, putTrain_same, Option.map_some, Option.map_some, same]
  · rw [standing_eq, standing_eq, putTrain_other _ _ _ _ hj, putTrain_other _ _ _ _ hj]

theorem putTrain_but (k : SlotIx) (y : Train) (r : Ride) : r.But (r.putTrain k y) (some k) H F V :=
  ⟨fun j hj => by rw [standing_eq, standing_eq, putTrain_other _ _ _ _ (by simpa using hj)], fun _ _ _ => rfl, fun _ _ => rfl,
    fun _ _ => rfl, .refl _⟩

/-! ### A hold added, a fault recorded -/

/-- A zone record put in place of one with the same hold sources. -/
theorem putZone_but {zr zr' : ZoneRec} (hz : r.zone? z = some zr) (holds : zr'.holds = zr.holds ∨ H = some z)
    (faults : zr'.fault = zr.fault ∨ F = some z) (speeds : zr'.entrySpeed = zr.entrySpeed ∨ V = some z) :
    r.But (r.putZone z zr') K H F V := by
  have same : (r.putZone z zr').zone? z = some zr' := tget_tput_same _ _ _
  have other (u : ZoneIx) (hu : u ≠ z) : (r.putZone z zr').zone? u = r.zone? u := tget_tput_other _ _ _ _ hu
  refine ⟨fun _ _ => rfl, fun u src hu => ?_, fun u hu => ?_, fun u hu => ?_, .refl _⟩
  · by_cases e : u = z
    · subst e
      simp only [Ride.held, same, hz, Option.any_some, ZoneRec.holds?, holds.resolve_right fun h => hu h.symm]
    · simp only [Ride.held, other u e]
  · by_cases e : u = z
    · subst e
      simp only [Ride.zoneFault, same, hz, Option.bind_some, faults.resolve_right fun h => hu h.symm]
    · simp only [Ride.zoneFault, other u e]
  · by_cases e : u = z
    · subst e
      simp only [Ride.entrySpeed, same, hz, Option.bind_some, speeds.resolve_right fun h => hu h.symm]
    · simp only [Ride.entrySpeed, other u e]

/-- A hold source is put in the zone's record, and the element's close follows. -/
theorem addHold_parts (z : ZoneIx) (src : HoldSource) (r : Ride) : ∃ b, Ride.Within { zones := true } r b ∧ (∀ u, b.claim? u = r.claim? u) ∧
    r.But b K (some z) F V ∧ Changes false false false b (addHold c z src r) := by
  unfold addHold
  split
  · exact ⟨r, .refl r, fun _ => rfl, .refl r, .refl r⟩
  · next zr hz =>
    split
    · exact ⟨r, .refl r, fun _ => rfl, .refl r, .refl r⟩
    · exact ⟨r.putZone z { zr with holds := withBit zr.holds src.bit }, putZone_within z _, putZone_claim_kept hz rfl, putZone_but hz (.inr rfl) (.inl rfl) (.inl rfl), closeElement_changes z⟩

theorem addHold_but (z : ZoneIx) (src : HoldSource) (r : Ride) : r.But (addHold c z src r) K (some z) F V := by
  obtain ⟨b, -, -, but, changes⟩ := addHold_parts (c := c) z src r
  exact but.trans (.of_changes changes)

/-- A fault cause is put in the zone's record unless it holds one, the fault is reported, and the element's close follows. -/
theorem setZoneFault_parts (z : ZoneIx) (cause : ZoneFault) (r : Ride) : ∃ b, Ride.Within { zones := true, reports := true } r b ∧
    (∀ u, b.claim? u = r.claim? u) ∧ r.But b K H (some z) V ∧ b.notice? .fault = true ∧ (cause ≠ .boundary → b.cause? .zoneFault = true) ∧
    ((r.zone? z).isSome = true → b.zoneFault z = some ((r.zoneFault z).getD cause)) ∧
    Changes false false false b (setZoneFault c z cause r) := by
  unfold setZoneFault
  dsimp only
  generalize hr2 : (if cause = .boundary then r.raise .fault else (r.raise .fault).report .zoneFault) = r2
  have changes : Changes false false false r r2 := by
    rw [← hr2]
    split
    · exact raise_changes _
    · exact (raise_changes _).trans (report_changes _)
  have within : Ride.Within { reports := true } r r2 := by
    rw [← hr2]
    split
    · exact raise_within _
    · exact (raise_within _).trans (report_within _)
  have notice : r2.notice? .fault = true := by
    rw [← hr2]
    split
    · exact raise_notice r .fault
    · exact (told_report .zoneFault).2
  have told : cause ≠ .boundary → r2.cause? .zoneFault = true := fun h => by
    rw [← hr2, if_neg h]
    exact report_cause _ _
  have claims (u : ZoneIx) : r2.claim? u = r.claim? u := within.claim? rfl u
  have zone := within.zone? rfl z
  split
  · next hz =>
    refine ⟨r2, within.mono rfl, claims, .of_changes changes, notice, told, fun h => ?_, .refl r2⟩
    rw [zone.symm.trans hz] at h
    cases h
  · next zr hz =>
    have hz' : r.zone? z = some zr := zone.symm.trans hz
    split
    · next held =>
      refine ⟨r2, within.mono rfl, claims, .of_changes changes, notice, told, fun h => ?_, .refl r2⟩
      obtain ⟨f, hf⟩ := Option.isSome_iff_exists.mp held
      simp [Ride.zoneFault, hz, hz', hf]
    · next free =>
      have none_ : zr.fault = none := Option.not_isSome_iff_eq_none.mp free
      refine ⟨r2.putZone z { zr with fault := some cause }, (within.mono rfl).trans ((putZone_within z _).mono rfl), fun u => ?_,
        (Ride.But.of_changes changes).trans (putZone_but hz (.inl rfl) (.inr rfl) (.inl rfl)), notice, told, fun _ => ?_, closeElement_changes z⟩
      · exact (putZone_claim_kept (v' := { zr with fault := some cause }) hz rfl u).trans (claims u)
      · have same : (r2.putZone z { zr with fault := some cause }).zone? z = some { zr with fault := some cause } := tget_tput_same _ _ _
        simp [Ride.zoneFault, hz', same, none_]

theorem setZoneFault_but (z : ZoneIx) (cause : ZoneFault) (r : Ride) : r.But (setZoneFault c z cause r) K H (some z) V := by
  obtain ⟨b, -, -, but, -, -, -, changes⟩ := setZoneFault_parts (c := c) z cause r
  exact but.trans (.of_changes changes)

theorem setZoneFault_fault {cause : ZoneFault} (hz : (r.zone? z).isSome = true) :
    (setZoneFault c z cause r).zoneFault z = some ((r.zoneFault z).getD cause) := by
  obtain ⟨b, -, -, -, -, -, fault, changes⟩ := setZoneFault_parts (c := c) (K := none) (H := none) (V := none) z cause r
  rw [changes.keeps.faults z]
  exact fault hz

theorem setZoneFault_told {cause : ZoneFault} : (setZoneFault c z cause r).notice? .fault = true ∧
    (cause ≠ .boundary → (setZoneFault c z cause r).cause? .zoneFault = true) := by
  obtain ⟨b, -, -, -, notice, told, -, changes⟩ := setZoneFault_parts (c := c) (K := none) (H := none) (V := none) z cause r
  exact ⟨changes.grows.2 _ notice, fun h => changes.grows.1 _ (told h)⟩

/-- A fault that a step records stands at its end (R48). -/
theorem setZoneFault_faultedBy {cause : ZoneFault} (other : cause ≠ .boundary) (h : Changes false o q (setZoneFault c z cause r) b) :
    r.faultedBy b z cause := by
  have fault (hz : (r.zone? z).isSome = true) : b.zoneFault z = some ((r.zoneFault z).getD cause) :=
    (h.keeps.faults z).trans (setZoneFault_fault hz)
  have told := setZoneFault_told (c := c) (z := z) (r := r) (cause := cause)
  refine ⟨⟨h.grows.1 _ (told.2 other), h.grows.2 _ told.1, fun hb => ?_⟩, fault⟩
  have hz : (r.zone? z).isSome = true := by
    rw [h.zone_isSome, (setZoneFault_changes (w := true) (o := false) (q := false) z cause rfl).zone_isSome] at hb
    exact hb
  rw [fault hz]
  simp

/-! ### A train that only the track moves on -/

/-- Record `y` is `x` but for its chain, its directive. -/
def Train.Still (x y : Train) : Prop :=
  SamePlace x y ∧ y.label = x.label ∧ y.phase = x.phase ∧ y.deadline = x.deadline ∧ y.dir = x.dir ∧ y.stepping = x.stepping

theorem Train.Still.refl (x : Train) : x.Still x := ⟨.refl x, rfl, rfl, rfl, rfl, rfl⟩

theorem Train.Still.trans (h : x.Still y) (k : y.Still v) : x.Still v := by
  obtain ⟨place, label, phase, deadline, dir, stepping⟩ := h
  obtain ⟨place', label', phase', deadline', dir', stepping'⟩ := k
  exact ⟨place.trans place', label'.trans label, phase'.trans phase, deadline'.trans deadline, dir'.trans dir, stepping'.trans stepping⟩

/-- The train in slot `k` has record `x` but for its chain and its directive, and is in no phase that an element's proof or its
close changes. -/
def Ride.StillAt (r : Ride) (k : SlotIx) (x : Train) : Prop :=
  (x.phase ≠ .held ∧ x.phase ≠ .stopping ∧ x.phase ≠ .running) ∧ ∃ y, r.train? k = some y ∧ x.Still y

theorem Ride.StillAt.changes (h : a.StillAt k x) (n : Changes false o q a b) : b.StillAt k x := by
  obtain ⟨phase, y, hy, still⟩ := h
  have phase' := phase
  rw [← still.2.2.1] at phase'
  obtain ⟨y', hy', place, label, rest⟩ := n.train_still hy phase'
  exact ⟨phase, y', hy', still.trans ⟨place, label, rest⟩⟩

theorem Ride.StillAt.within {p : Parts} (h : a.StillAt k x) (n : Ride.Within p a b) (trains : p.trains = false) : b.StillAt k x := by
  obtain ⟨phase, y, hy, still⟩ := h
  exact ⟨phase, y, (n.train? trains k).trans hy, still⟩

theorem Ride.StillAt.addHold (h : r.StillAt k x) (z : ZoneIx) (src : HoldSource) : (addHold c z src r).StillAt k x := by
  obtain ⟨b, within, -, -, changes⟩ := addHold_parts (c := c) (K := none) (F := none) (V := none) z src r
  exact (h.within within rfl).changes changes

theorem Ride.StillAt.setZoneFault (h : r.StillAt k x) (z : ZoneIx) (cause : ZoneFault) : (setZoneFault c z cause r).StillAt k x := by
  obtain ⟨b, within, -, -, -, -, -, changes⟩ := setZoneFault_parts (c := c) (K := none) (H := none) (V := none) z cause r
  exact (h.within within rfl).changes changes

theorem putTrain_still (phase : y.phase ≠ .held ∧ y.phase ≠ .stopping ∧ y.phase ≠ .running) : (r.putTrain k y).StillAt k y :=
  ⟨phase, y, putTrain_same r k y, .refl y⟩

theorem changeTrain_stillAt (phase : y.phase ≠ .held ∧ y.phase ≠ .stopping ∧ y.phase ≠ .running) : (changeTrain c k x y r).StillAt k y :=
  (putTrain_still phase).changes (changeTrain_narrow c k x y r)

theorem changeTrain_but (k : SlotIx) (x y : Train) (r : Ride) : r.But (changeTrain c k x y r) (some k) H F V :=
  (putTrain_but k y r).trans (.of_changes (changeTrain_narrow c k x y r))

theorem changeTrain_keeps (same : y.stands = v.stands) : (r.putTrain k v).Keeps (changeTrain c k x y r) :=
  (putTrain_keeps same).trans (changeTrain_narrow c k x y r).keeps

/-! ### LOST, OVERDUE, at rest -/

/-- The record of a train that goes to LOST (R56). -/
def Train.lost (x : Train) : Train := { x with phase := .lost, deadline := none, awaited := none, stepping := false }

theorem loseTrain_narrow (k : SlotIx) (x : Train) (r : Ride) : Changes false false false (r.putTrain k x.lost) (loseTrain c k x r) :=
  ((changeTrain_narrow c k x x.lost r).trans (raise_changes .fault)).trans (report_changes .lost)

/-- A train that a step loses is LOST at its end, and stands where it did (R56). -/
theorem loseTrain_lost (h : Changes false o q (loseTrain c k x r) b) :
    (r.putTrain k { x with awaited := none }).Keeps b ∧ b.lostIn k := by
  refine ⟨((putTrain_keeps (r := r) (k := k) (x := { x with awaited := none }) (y := x.lost) rfl).trans (loseTrain_narrow k x r).keeps).trans h.keeps, ?_, ?_, ?_⟩
  · have still : (loseTrain c k x r).StillAt k x.lost := (putTrain_still (by simp [Train.lost])).changes (loseTrain_narrow k x r)
    obtain ⟨-, y, hy, place, -, phase, deadline, -, stepping⟩ := still.changes h
    exact ⟨y, hy, phase, deadline, place.2.2.2.2.1, stepping⟩
  · exact h.grows.1 _ (report_cause _ _)
  · exact h.grows.2 _ ((report_changes (w := false) (o := false) (q := false) .lost).grows.2 _ (raise_notice _ .fault))

/-- The record of a train that goes to OVERDUE (R65). -/
def Train.overdueAt (x : Train) (awaited : Awaited) : Train :=
  { x with phase := .overdue, deadline := none, awaited := some awaited, overdue := countUp x.overdue }

theorem makeOverdue_still {awaited : Awaited} : (makeOverdue c k x awaited r).StillAt k (x.overdueAt awaited) := by
  have held : (addHold c x.head .overdue ((changeTrain c k x (x.overdueAt awaited) r).raise .overdue)).StillAt k (x.overdueAt awaited) :=
    (Ride.StillAt.changes (changeTrain_stillAt (by simp [Train.overdueAt])) (raise_changes (o := false) (q := false) .overdue)).addHold _ _
  unfold makeOverdue
  dsimp only
  split
  · exact held.changes (report_changes (o := false) (q := false) .overdue)
  · exact held

theorem makeOverdue_reports {awaited : Awaited} : (makeOverdue c k x awaited r).notice? .overdue = true ∧
    ((r.zone? x.head).isSome = true → (makeOverdue c k x awaited r).held x.head .overdue = true) ∧
    (((c.map.zone x.head).any fun zd => zd.severity == .stop) = true → (makeOverdue c k x awaited r).cause? .overdue = true) := by
  unfold makeOverdue
  dsimp only
  set r1 := (changeTrain c k x { x with phase := .overdue, deadline := none, awaited := some awaited, overdue := countUp x.overdue } r).raise
    .overdue with hr1
  have notice : r1.notice? .overdue = true := raise_notice _ .overdue
  have zone : r1.zone? x.head = r.zone? x.head := by
    rw [hr1, (raise_within .overdue).zone? rfl, (changeTrain_within k _ _).zone? rfl]
  have notice' := (addHold_changes (c := c) (w := true) (o := false) (q := false) (r := r1) x.head .overdue rfl).grows.2 _ notice
  have held (h : (r.zone? x.head).isSome = true) : (addHold c x.head .overdue r1).held x.head .overdue = true := addHold_same (zone ▸ h)
  split
  · next stop =>
    have report := report_changes (w := false) (o := false) (q := false) (r := addHold c x.head .overdue r1) .overdue
    exact ⟨report.grows.2 _ notice', fun h => (report.keeps.holds _ _).trans (held h), fun _ => report_cause _ _⟩
  · next free => exact ⟨notice', held, fun h => absurd h free⟩

/-- A train that a step makes OVERDUE is so at its end (R65). -/
theorem makeOverdue_ends {awaited : Awaited} (h : Changes false o q (makeOverdue c k x awaited r) b) :
    ∃ y, b.train? k = some y ∧ y.phase = .overdue ∧ y.awaited = some awaited ∧ y.deadline = none ∧
      y.overdue = min 255 (x.overdue + 1) ∧ y.head = x.head ∧ y.tail = x.tail ∧ b.notice? .overdue = true ∧
      ((r.zone? x.head).isSome = true → b.held x.head .overdue = true) ∧
      (((c.map.zone x.head).any fun zd => zd.severity == .stop) = true → b.cause? .overdue = true) := by
  obtain ⟨-, y, hy, ⟨head, tail, -, -, awaited, -, overdue, -⟩, -, phase, deadline, -⟩ := makeOverdue_still.changes h
  obtain ⟨notice, held, cause⟩ := makeOverdue_reports (c := c) (k := k) (x := x) (awaited := _) (r := r)
  exact ⟨y, hy, phase, awaited, deadline, overdue, head, tail, h.grows.2 _ notice, fun hz => (h.keeps.holds _ _).trans (held hz),
    fun stop => h.grows.1 _ (cause stop)⟩

/-- The record of a train at rest (R62 to R64). -/
def Train.rested (c : Ctx) (x : Train) : Train :=
  { x with
    phase := if c.map.isSpur x.head then .parked else .held
    deadline := none, awaited := none, dir := .forward, stepping := false, chain := [] }

theorem bringToRest_train : (bringToRest c k x r).train? k = some (x.rested c) := by
  unfold bringToRest
  exact returnChain_train (changeTrain_train _ _ _)

theorem bringToRest_keeps : (r.putTrain k { x with awaited := none }).Keeps (bringToRest c k x r) := by
  unfold bringToRest
  refine Ride.Keeps.trans (changeTrain_keeps ?_) (returnChain_changes (w := false) (o := false) (q := false) k).keeps
  rfl

/-- A train that a step brings to rest stands there at its end outside AUTO, its chain returned. -/
theorem bringToRest_ends {before : Ride} :
    (r.putTrain k { x with awaited := none }).Keeps (conclude c before (bringToRest c k x r)) ∧
    (∃ y, (conclude c before (bringToRest c k x r)).train? k = some y) ∧
    (c.calm (bringToRest c k x r) → (conclude c before (bringToRest c k x r)).train? k = some (x.rested c)) := by
  refine ⟨bringToRest_keeps.trans conclude_narrow.keeps, ?_, fun calm => ?_⟩
  · obtain ⟨y, hy, -⟩ := (conclude_narrow (c := c) (before := before)).train_kept k _ (bringToRest_train (r := r))
    exact ⟨y, hy⟩
  · refine (conclude_led_calm calm).resting bringToRest_train ?_ rfl
    unfold Train.rested
    dsimp only
    split <;> simp

end Sys2Proof.Machine
end

section
/-! PROOF. Deadlines, gate stalls, events that match no train, and the derivation of the boundaries (R48, R54, R55, R63, R65, R81,
R87, R88, R91). -/

namespace Sys2Proof.Machine

variable {s t : State} {dt stamp : Nat} {line : SensorLine} {c : Ctx} {a b r : Ride} {z u : ZoneIx} {k : SlotIx} {x y : Train}
  {dl : Deadline} {bi : BoundaryIx} {d : BoundaryDesc} {o q : Bool}

/-! ### Deadlines -/

theorem deadlineDue_eq (hx : s.ride.train? k = some x) (hdl : x.deadline = some dl) :
    (s.advance dt).deadlineDue k = decide (dl.start + dl.duration * 1000 ≤ s.now + dt) := by
  unfold State.deadlineDue
  rw [show (s.advance dt).ride.train? k = _ from hx, Option.any_some, hdl]
  rfl

theorem onJourneyExpiry_overdue (hx : r.train? k = some x) (hdl : x.deadline = some dl) (kind : dl.kind = .journey)
    (phase : x.phase = .entering ∨ x.phase = .running) : onJourneyExpiry c k r = makeOverdue c k x .approach r := by
  simp only [onJourneyExpiry, hx, hdl, kind, phase, and_self, if_true]

theorem onStopExpiry_stopping (hx : r.train? k = some x) (hdl : x.deadline = some dl) (kind : dl.kind = .stop) (phase : x.phase = .stopping) :
    onStopExpiry c k r = if ((c.map.zone x.head).any fun zd => zd.berth.isSome) = true then makeOverdue c k x .berth r else bringToRest c k x r := by
  simp only [onStopExpiry, hx, hdl, kind, phase, if_true]

theorem onStopExpiry_rollback (hx : r.train? k = some x) (hdl : x.deadline = some dl) (kind : dl.kind = .stop) (phase : x.phase = .rollback) :
    onStopExpiry c k r = makeOverdue c k x .noseIn r := by
  simp only [onStopExpiry, hx, hdl, kind, phase, if_true]

/-- Settles O53: the expiry is the step's only effect, and an OVERDUE train stays so through its end. -/
theorem deadlinesRunOut : Obligations.DeadlinesRunOut := by
  unfold Obligations.DeadlinesRunOut
  intro s dt k x dl hx hdl
  have due := deadlineDue_eq (dt := dt) hx hdl
  refine ⟨fun reached => ?_, fun early => ?_⟩
  · have journey : s.Happened dt (fun c r => onJourneyExpiry c k r) ((s.advance dt).journeyExpires k) :=
      onRideIf_happened (due.trans (decide_eq_true reached))
    have stop : s.Happened dt (fun c r => onStopExpiry c k r) ((s.advance dt).stopExpires k) :=
      onRideIf_happened (due.trans (decide_eq_true reached))
    have overdue {t : State} {aw : Awaited} (only : s.onlyEvent dt t)
        (ride : t.ride = conclude (s.advance dt).ctx s.ride (makeOverdue (s.advance dt).ctx k x aw s.ride)) :=
      makeOverdue_ends (b := t.ride) (c := (s.advance dt).ctx) (k := k) (x := x) (awaited := aw) (r := s.ride) (ride ▸ conclude_narrow)
    refine ⟨fun aw h => ?_, fun kind phase berth => ?_⟩
    · rcases h with ⟨kind, phase, rfl⟩ | ⟨kind, phase, berth, rfl⟩ | ⟨kind, phase, rfl⟩
      · have ride := journey.ride.trans (congrArg (conclude (s.advance dt).ctx s.ride) (onJourneyExpiry_overdue hx hdl kind phase))
        obtain ⟨y, h⟩ := overdue journey.only ride
        exact ⟨_, y, by rw [if_pos kind]; rfl, journey.only, h⟩
      · have e := onStopExpiry_stopping (c := (s.advance dt).ctx) hx hdl kind phase
        rw [if_pos (show ((s.advance dt).ctx.map.zone x.head).any _ = true from berth)] at e
        obtain ⟨y, h⟩ := overdue stop.only (stop.ride.trans (congrArg (conclude (s.advance dt).ctx s.ride) e))
        exact ⟨_, y, by rw [if_neg (by simp [kind])]; rfl, stop.only, h⟩
      · have ride := stop.ride.trans (congrArg (conclude (s.advance dt).ctx s.ride) (onStopExpiry_rollback hx hdl kind phase))
        obtain ⟨y, h⟩ := overdue stop.only ride
        exact ⟨_, y, by rw [if_neg (by simp [kind])]; rfl, stop.only, h⟩
    · have e := onStopExpiry_stopping (c := (s.advance dt).ctx) hx hdl kind phase
      rw [if_neg (by rw [show (s.advance dt).ctx.map = s.map from rfl, berth]; simp)] at e
      have ride := stop.ride.trans (congrArg (conclude (s.advance dt).ctx s.ride) e)
      obtain ⟨keeps, ⟨y, hy⟩, rest⟩ := bringToRest_ends (c := (s.advance dt).ctx) (k := k) (x := x) (r := s.ride) (before := s.ride)
      rw [← ride] at keeps hy rest
      refine ⟨_, y, rfl, stop.only, keeps, hy, fun calm => ?_⟩
      have changes : Changes true false false s.ride (bringToRest (s.advance dt).ctx k x s.ride) := bringToRest_changes hx
      cases Option.some.inj (hy.symm.trans (rest (Ctx.calm.changes (c := (s.advance dt).ctx) calm changes)))
      exact ⟨rfl, rfl, rfl, rfl, rfl⟩
  · have no := due.trans (decide_eq_false (Nat.not_le.mpr early))
    exact ⟨congrArg Host.Outcome.next (onRideIf_not no), congrArg Host.Outcome.next (onRideIf_not no)⟩

/-! ### Gate stalls -/

/-- The zone in which a passage in a direction finds its train: that of the first sensor (Table 3-4). -/
def Direction.behind (d : BoundaryDesc) : Direction → ZoneIx
  | .forward => d.up
  | .reverse => d.down

theorem onStall_train {dir : Direction} (h : r.headIn (dir.behind d) = some (k, x)) : onStall c d dir r = makeOverdue c k x .noseIn r := by
  cases dir with
  | forward => simp only [onStall, show r.headIn d.up = _ from h]
  | reverse => simp only [onStall, show r.headIn d.down = _ from h]

theorem onStall_none {dir : Direction} (h : r.headIn (dir.behind d) = none) : onStall c d dir r = unexpected c (dir.behind d) r := by
  cases dir with
  | forward => simp only [onStall, show r.headIn d.up = _ from h]; rfl
  | reverse => simp only [onStall, show r.headIn d.down = _ from h]; rfl

theorem headIn_spec (h : r.headIn z = some (k, x)) : r.train? k = some x ∧ x.head = z ∧ x.phase ≠ .lost := by
  obtain ⟨hx, head, phase⟩ := matching_spec h
  exact ⟨hx, by simpa using head, phase⟩

/-- Settles O52: the stall is reported to the train at the boundary, or faults the zone of the covered sensor. -/
theorem gateStallReports : Obligations.GateStallReports := by
  unfold Obligations.GateStallReports
  intro s dt b x d dir start hb hd entering
  have step : exec (.gateStall dt b) s = .next (reportStall b (s.advance dt)) := rfl
  have taken : reportStall b (s.advance dt) = if x.stalled = false ∧ start + Config.gateLimit ≤ s.now + dt then
      ({ s.advance dt with bounds := tput s.bounds b (some { x with stalled := true }) }).onRide fun c r => onStall c d dir r
      else s.advance dt := by
    unfold reportStall
    rw [show tget (s.advance dt).bounds b = _ from hb, show (s.advance dt).map.boundary b = _ from hd]
    simp only [entering]
    rfl
  refine ⟨fun fresh due => ?_, fun h => ?_⟩
  · rw [if_pos ⟨fresh, due⟩] at taken
    rw [step, taken]
    set s' : State := { s.advance dt with bounds := tput s.bounds b (some { x with stalled := true }) }
    refine ⟨_, rfl, rfl, fun k y hk => ?_, fun z hz none_ => ?_⟩
    · have hk' : s.ride.headIn (dir.behind d) = some (k, y) := by cases dir <;> exact hk
      have ride : (s'.onRide fun c r => onStall c d dir r).ride = conclude s'.ctx s.ride (makeOverdue s'.ctx k y .noseIn s.ride) :=
        congrArg (conclude s'.ctx s.ride) (onStall_train hk')
      obtain ⟨y', hy', phase, awaited, deadline, overdue, head, tail, notice, held, -⟩ :=
        makeOverdue_ends (b := (s'.onRide fun c r => onStall c d dir r).ride) (ride ▸ conclude_narrow)
      exact ⟨y', hy', phase, awaited, deadline, overdue, head, tail, notice, held⟩
    · have hz' : z = dir.behind d := by cases dir <;> exact hz
      subst hz'
      have ride : (s'.onRide fun c r => onStall c d dir r).ride = conclude s'.ctx s.ride (unexpected s'.ctx (dir.behind d) s.ride) :=
        congrArg (conclude s'.ctx s.ride) (onStall_none none_)
      rw [ride]
      exact (setZoneFault_faultedBy (by simp) conclude_narrow).1
  · have not_due : ¬(x.stalled = false ∧ start + Config.gateLimit ≤ s.now + dt) := by
      rintro ⟨fresh, due⟩
      rcases h with h | h
      · rw [fresh] at h
        cases h
      · exact absurd due (Nat.not_le.mpr h)
    rw [step, taken, if_neg not_due]

end Sys2Proof.Machine
end

section
/-! PROOF. Events that match no train, and the derivation of the boundaries (R48, R54, R55, R81, R88, R91). -/

namespace Sys2Proof.Machine

variable {s t : State} {dt stamp : Nat} {line : SensorLine} {c : Ctx} {a b r : Ride} {z u : ZoneIx} {k : SlotIx} {x y : Train}
  {bi : BoundaryIx} {d : BoundaryDesc} {o q : Bool} {e : PassageEvent}

/-! ### Events that match no train -/

/-- The zone that an event of boundary `d` faults where it matches no train (Table 3-4, R55). -/
inductive Ride.Unmatched (r : Ride) (d : BoundaryDesc) : PassageEvent → ZoneIx → Prop
  | approach (h : r.headIn d.up = none) : Unmatched r d (.approach .forward) d.up
  | retreat (h : r.headIn d.up = none) : Unmatched r d (.retreat .forward) d.up
  | noseIn (h : r.headIn d.up = none) (n : Nat) : Unmatched r d (.noseIn .forward n) d.down
  | noseBack (h : r.straddling d = none) : Unmatched r d (.noseBack .forward) d.down
  | tailClear (h : r.straddling d = none) : Unmatched r d (.tailClear .forward) d.down
  | reverseBacking (h : r.straddling d = none) : Unmatched r d (.backing .reverse) d.down
  | backing (h : r.straddling d = none) : Unmatched r d (.backing .forward) d.up
  | reverseNoseBack (h : r.straddling d = none) : Unmatched r d (.noseBack .reverse) d.up
  | reverseTailClear (h : r.straddling d = none) : Unmatched r d (.tailClear .reverse) d.up
  | reverseApproach (h : r.headIn d.down = none) : Unmatched r d (.approach .reverse) d.down
  | reverseRetreat (h : r.headIn d.down = none) : Unmatched r d (.retreat .reverse) d.down
  | reverseNoseIn (h : r.headIn d.down = none) (n : Nat) : Unmatched r d (.noseIn .reverse n) d.up

theorem handEvent_unmatched (h : r.Unmatched d e z) : handEvent c bi d stamp e r = unexpected c z r := by
  cases h with
  | approach h => simp only [handEvent, onApproach, h]
  | retreat h => simp only [handEvent, onRetreat, h]
  | noseIn h n => simp only [handEvent, onNoseIn, h]
  | noseBack h => simp only [handEvent, onNoseBack, h]
  | tailClear h => simp only [handEvent, onTailClear, h]
  | reverseBacking h => simp only [handEvent, onReverseBacking, h]
  | backing h => simp only [handEvent, onBacking, h]
  | reverseNoseBack h => simp only [handEvent, onReverseNoseBack, h]
  | reverseTailClear h => simp only [handEvent, onReverseTailClear, h]
  | reverseApproach h => simp only [handEvent, onReverseApproach, h]
  | reverseRetreat h => simp only [handEvent, onReverseRetreat, h]
  | reverseNoseIn h n => simp only [handEvent, onReverseNoseIn, h]

theorem zoneFault_of {zr : ZoneRec} (hz : r.zone? z = some zr) : r.zoneFault z = zr.fault := by simp [Ride.zoneFault, hz]

/-! ### Boundaries in FAULT -/

/-- From `a` to `b` zones that meet `Z` have been given the cause BOUNDARY where they held none, and no train has moved (R88). -/
structure Ride.Marked (a b : Ride) (Z : ZoneIx → Prop) : Prop where
  trains : ∀ j, b.standing j = a.standing j
  holds : ∀ z src, b.held z src = a.held z src
  speeds : ∀ z, b.entrySpeed z = a.entrySpeed z
  grows : a.grows b
  zones : ∀ z, (b.zone? z).isSome = (a.zone? z).isSome
  faults : ∀ z, b.zoneFault z = a.zoneFault z ∨ Z z ∧ b.zoneFault z = some ((a.zoneFault z).getD .boundary)

namespace Ride.Marked

variable {Z Z' : ZoneIx → Prop} {f : Ride}

theorem refl (a : Ride) : a.Marked a Z :=
  ⟨fun _ => rfl, fun _ _ => rfl, fun _ => rfl, .refl a, fun _ => rfl, fun _ => .inl rfl⟩

theorem trans (h : a.Marked b Z) (k : b.Marked f Z) : a.Marked f Z := by
  refine ⟨fun j => (k.trains j).trans (h.trains j), fun z src => (k.holds z src).trans (h.holds z src),
    fun z => (k.speeds z).trans (h.speeds z), h.grows.trans k.grows, fun z => (k.zones z).trans (h.zones z), fun z => ?_⟩
  rcases k.faults z with e | ⟨hz, e⟩
  · rw [e]
    exact h.faults z
  · refine .inr ⟨hz, ?_⟩
    rcases h.faults z with e' | ⟨-, e'⟩
    · rw [e, e']
    · rw [e, e']
      rfl

theorem mono (h : a.Marked b Z) (le : ∀ z, Z z → Z' z) : a.Marked b Z' :=
  ⟨h.trains, h.holds, h.speeds, h.grows, h.zones, fun z => (h.faults z).imp_right fun ⟨hz, e⟩ => ⟨le z hz, e⟩⟩

theorem of_changes (h : Changes false o q a b) : a.Marked b Z :=
  ⟨h.keeps.trains, h.keeps.holds, h.keeps.speeds, h.grows, h.zone_isSome, fun z => .inl (h.keeps.faults z)⟩

theorem setZoneFault (z : ZoneIx) : r.Marked (setZoneFault c z .boundary r) (· = z) := by
  have but := setZoneFault_but (c := c) (K := none) (H := none) (V := none) z .boundary r
  have same (u : ZoneIx) := (setZoneFault_changes (c := c) (w := true) (o := false) (q := false) (r := r) z .boundary rfl).zone_isSome u
  refine ⟨fun j => but.trains j (by simp), fun u src => but.holds u src (by simp), fun u => but.speeds u (by simp), but.grows, same, fun u => ?_⟩
  by_cases e : u = z
  · subst e
    cases hz : (r.zone? u).isSome with
    | true => exact .inr ⟨rfl, setZoneFault_fault hz⟩
    | false =>
      have hz' := (same u).trans hz
      rw [Option.isSome_eq_false_iff, Option.isNone_iff_eq_none] at hz hz'
      exact .inl (by simp [Ride.zoneFault, hz, hz'])
  · exact .inl (but.faults u (by simpa using e))

/-- A zone once marked stays so. -/
theorem stays (h : a.Marked b Z) {z : ZoneIx} {old : ZoneFault} (hz : a.zoneFault z = some old) : b.zoneFault z = some old := by
  rcases h.faults z with e | ⟨-, e⟩
  · exact e.trans hz
  · rw [e, hz]
    rfl

end Ride.Marked

theorem boundaryFaulted_marked : r.Marked (boundaryFaulted c d r) fun z => z = d.up ∨ z = d.down :=
  (((Ride.Marked.setZoneFault d.up).mono fun _ => .inl).trans ((Ride.Marked.setZoneFault d.down).mono fun _ => .inr)).trans
    (.of_changes (report_changes (o := false) (q := false) .boundaryFault))

theorem boundaryFaulted_told : (boundaryFaulted c d r).Told .boundaryFault :=
  ⟨report_cause _ _, (report_changes (w := false) (o := false) (q := false) .boundaryFault).grows.2 _ setZoneFault_told.1⟩

/-- Both zones of a boundary in FAULT hold a cause: the one they held, or BOUNDARY (R88). -/
theorem boundaryFaulted_fault (at_ : z = d.up ∨ z = d.down) (hz : (r.zone? z).isSome = true) :
    (boundaryFaulted c d r).zoneFault z = some ((r.zoneFault z).getD .boundary) := by
  have report (q : Ride) : (q.report .boundaryFault).zoneFault z = q.zoneFault z :=
    (report_changes (w := false) (o := false) (q := false) .boundaryFault).keeps.faults z
  show ((setZoneFault c d.down .boundary (setZoneFault c d.up .boundary r)).report .boundaryFault).zoneFault z = _
  rw [report]
  have up := Ride.Marked.setZoneFault (c := c) (r := r) d.up
  by_cases e : z = d.up
  · subst e
    exact (Ride.Marked.setZoneFault d.down).stays (setZoneFault_fault hz)
  · have down := at_.resolve_left e
    subst down
    rw [setZoneFault_fault ((up.zones _).trans hz)]
    rcases up.faults d.down with same | ⟨e', -⟩
    · rw [same]
    · exact absurd e' e

/-- Settles O50: an unmatched event is its zone's fault alone, and so is a boundary's. -/
theorem unmatchedEvents : Obligations.UnmatchedEvents := by
  unfold Obligations.UnmatchedEvents
  intro s dt line b d stamp e reports
  obtain ⟨t, ht, ride⟩ := reports.exec_ride
  refine ⟨t, ht, fun z h => ?_, fun h => ?_⟩
  · have unmatched : s.ride.Unmatched d e z := by
      rcases h with ⟨h, rfl | rfl, rfl⟩ | ⟨h, ⟨n, rfl⟩, rfl⟩ | ⟨h, rfl | rfl | rfl, rfl⟩ | ⟨h, rfl | rfl | rfl, rfl⟩ | ⟨h, rfl | rfl, rfl⟩ |
        ⟨h, ⟨n, rfl⟩, rfl⟩
      all_goals constructor; exact h
    rw [handEvent_unmatched unmatched] at ride
    have but : s.ride.But t.ride none none (some z) none :=
      (setZoneFault_but z .unexpected s.ride).trans (.of_changes (ride ▸ conclude_narrow))
    obtain ⟨faulted, cause⟩ : s.ride.faultedBy t.ride z .unexpected := setZoneFault_faultedBy (by simp) (ride ▸ conclude_narrow)
    refine ⟨faulted, fun zr hz => ?_, fun j => but.trains j (by simp), fun y src => but.holds y src (by simp), fun y hy =>
      but.faults y (by simpa using hy)⟩
    rw [cause (by rw [hz]; rfl), zoneFault_of hz]
  · subst h
    have marked : s.ride.Marked t.ride fun z => z = d.up ∨ z = d.down :=
      boundaryFaulted_marked.trans (.of_changes (o := true) (q := false) (ride ▸ conclude_narrow))
    have told := (boundaryFaulted_told (c := (s.advance dt).ctx) (d := d) (r := s.ride)).grows
      (conclude_grows (c := (s.advance dt).ctx) (before := s.ride))
    rw [show handEvent _ _ _ _ _ _ = boundaryFaulted (s.advance dt).ctx d s.ride from rfl] at ride
    rw [← ride] at told
    refine ⟨told.1, told.2, fun z zr at_ hz => ?_, marked.trains, marked.holds, fun y up down => ?_⟩
    · rw [ride, conclude_narrow.keeps.faults z, boundaryFaulted_fault at_ (by rw [hz]; rfl), zoneFault_of hz]
    · exact (marked.faults y).resolve_right fun h => h.1.elim up down

/-! ### The derivation of the boundaries -/

/-- What the setting of the filtered levels reports of one boundary: its fault, where it is found covered (R91). -/
def derivedFault (c : Ctx) (levels : Vector Bool 128) (b : BoundaryIx) (r : Ride) : Ride :=
  match c.map.boundary b with
  | some d => if d.covered levels then boundaryFaulted c d r else r
  | none => r

/-- What the setting of the filtered levels reports. -/
def derivedFaults (c : Ctx) (levels : Vector Bool 128) (r : Ride) : Ride := overAll (fun b r => derivedFault c levels b r) r

/-- A zone stands beside a boundary found covered. -/
def CircuitMap.beside (m : CircuitMap) (levels : Vector Bool 128) (z : ZoneIx) : Prop :=
  ∃ b d, m.boundary b = some d ∧ d.covered levels = true ∧ (z = d.up ∨ z = d.down)

theorem derivedFault_marked (levels : Vector Bool 128) (b : BoundaryIx) : r.Marked (derivedFault c levels b r) (c.map.beside levels) := by
  unfold derivedFault
  split
  · next d hd =>
    split
    · next covered => exact boundaryFaulted_marked.mono fun z hz => ⟨b, d, hd, covered, hz⟩
    · exact .refl r
  · exact .refl r

theorem derivedFaults_marked (levels : Vector Bool 128) : r.Marked (derivedFaults c levels r) (c.map.beside levels) :=
  overAll_induct (fun b => r.Marked b (c.map.beside levels)) _ (fun _ _ h => h.trans (derivedFault_marked levels _)) r (.refl r)

/-- Each boundary found covered has reported itself and faulted its zones. -/
theorem derivedFaults_told (levels : Vector Bool 128) (b : BoundaryIx) (d : BoundaryDesc) (hd : c.map.boundary b = some d)
    (covered : d.covered levels = true) : (derivedFaults c levels r).Told .boundaryFault ∧
      ∀ z, (z = d.up ∨ z = d.down) → (r.zone? z).isSome = true →
        (derivedFaults c levels r).zoneFault z = some ((r.zoneFault z).getD .boundary) := by
  have all := overAll_establish (fun q => r.Marked q (c.map.beside levels))
    (fun b q => ∀ d, c.map.boundary b = some d → d.covered levels = true → q.Told .boundaryFault ∧
      ∀ z, (z = d.up ∨ z = d.down) → (r.zone? z).isSome = true → q.zoneFault z = some ((r.zoneFault z).getD .boundary))
    (fun b r => derivedFault c levels b r) (fun _ _ h => h.trans (derivedFault_marked levels _)) (fun b q h d hd covered => ?_) (fun b' b q _ h d hd covered => ?_) r (.refl r)
  · exact all b d hd covered
  · simp only [derivedFault, hd, covered, if_true]
    refine ⟨boundaryFaulted_told, fun z at_ hz => ?_⟩
    rw [boundaryFaulted_fault at_ ((h.zones z).trans hz)]
    rcases h.faults z with e | ⟨-, e⟩
    · rw [e]
    · rw [e]
      rfl
  · obtain ⟨told, faults⟩ := h d hd covered
    have marked := derivedFault_marked (c := c) (r := q) levels b'
    exact ⟨told.grows marked.grows, fun z at_ hz => marked.stays (faults z at_ hz)⟩

theorem covered_iff (d : BoundaryDesc) (high : Vector Bool 128) : d.covered (tgen fun l => !tget high l) = false ↔
    tget high d.uLine = true ∧ tget high d.dLine = true := by
  simp only [BoundaryDesc.covered, tget_tgen, Bool.or_eq_false_iff, Bool.not_eq_false']

/-- Settles O51: the records are derived from the levels, and the ride takes the faults of the boundaries found covered. -/
theorem filterStartDerivesBoundaries : Obligations.FilterStartDerivesBoundaries := by
  unfold Obligations.FilterStartDerivesBoundaries
  intro s dt due waiting reached
  set levels : Vector Bool 128 := tgen fun l => !tget s.sensors.high l with hlevels
  set s' : State := { s.advance dt with
    sensors := { s.sensors with covered := levels, changes := [], phase := .running }
    bounds := tgen fun b => (s.map.boundary b).map fun (d : BoundaryDesc) => derivedBoundary (d.covered levels) } with hs'
  have step : startTrackFilter (s.advance dt) = s'.onRide fun c r => derivedFaults c levels r := by
    unfold startTrackFilter
    rw [show (s.advance dt).sensors.phase = _ from waiting]
    dsimp only
    rw [if_pos (show due ≤ (s.advance dt).now from reached)]
    rfl
  have marked : s.ride.Marked (s'.onRide fun c r => derivedFaults c levels r).ride (s'.ctx.map.beside levels) :=
    (derivedFaults_marked levels).trans (.of_changes (conclude_narrow (c := s'.ctx) (before := s.ride)))
  refine ⟨_, congrArg Host.Outcome.next step, rfl, fun line => tget_tgen _ _, fun b hb => ?_, marked.trains, marked.holds, marked.speeds,
    fun z clear => ?_, fun cause => marked.grows.1 _, fun n => marked.grows.2 _, fun b d hd => ?_⟩
  · show tget (tgen fun b => (s.map.boundary b).map fun (d : BoundaryDesc) => derivedBoundary (d.covered levels)) b = none
    rw [tget_tgen, hb]
    rfl
  · refine (marked.faults z).resolve_right ?_
    rintro ⟨⟨b, d, hd, covered, at_⟩, -⟩
    have no := (covered_iff d s.sensors.high).mpr (clear b d hd (at_.imp Eq.symm Eq.symm))
    rw [covered] at no
    cases no
  · have record : tget s'.bounds b = some (derivedBoundary (d.covered levels)) := by
      show tget (tgen fun b => (s.map.boundary b).map fun (d : BoundaryDesc) => derivedBoundary (d.covered levels)) b = _
      rw [tget_tgen, hd]
      rfl
    split
    · next high =>
      rw [(covered_iff d s.sensors.high).mpr high] at record
      exact record
    · next low =>
      have covered : d.covered levels = true := by
        rw [← Bool.not_eq_false]
        exact fun e => low ((covered_iff d s.sensors.high).mp e)
      rw [covered] at record
      obtain ⟨told, faults⟩ := derivedFaults_told (c := s'.ctx) (r := s.ride) levels b d hd covered
      have told' := told.grows (conclude_grows (c := s'.ctx) (before := s.ride))
      refine ⟨record, told'.1, told'.2, fun z at_ hz => ?_⟩
      exact (conclude_narrow.keeps.faults z).trans (faults z at_ hz)

end Sys2Proof.Machine
end

section
/-! PROOF. The function inputs, and the stations' inputs (R38, R141 to R144, R146 to R148, R150, R152). -/

namespace Sys2Proof.Machine

variable {s t : State} {dt due start : Nat} {c : Ctx} {a b r : Ride} {z u : ZoneIx} {i j : InputIx} {d : InputDesc} {high on : Bool}
  {lines : Vector Bool 16} {st v : StationIx} {sd : StationDesc} {p : Pairing} {S : StationState → Prop} {f : InputFunction} {o q : Bool}

/-! ### A change that is taken -/

/-- The state in which a change of input `i` to `high` is taken, the raw levels being `lines`. -/
def State.input (s : State) (dt : Nat) (i : InputIx) (lines : Vector Bool 16) (high : Bool) : State :=
  { s with
    now := s.now + dt
    inputs := { s.inputs with
      high := lines, filtered := tput s.inputs.filtered i high, changes := tput s.inputs.changes i none } }

/-- A change that has held for 20 ms is taken (R141). -/
theorem takeDueInput_due (running : s.inputs.phase = .running) (hd : s.map.input i = some d) (pending : tget s.inputs.changes i = some start)
    (held : start + 20000 ≤ s.now + dt) : takeDueInput i (s.advance dt) =
      (s.input dt i s.inputs.high (!tget s.inputs.filtered i)).onRide
        fun c r => functionChange c d.function ((!tget s.inputs.filtered i) == d.activeHigh) r := by
  have due : inputDue i (s.advance dt) = true := by
    unfold inputDue
    rw [show tget (s.advance dt).inputs.changes i = _ from pending]
    exact decide_eq_true held
  unfold takeDueInput
  rw [show (s.advance dt).inputs.phase = _ from running, show (s.advance dt).map.input i = _ from hd]
  simp only [due, if_true]
  rfl

/-- No change is taken before it is due. -/
theorem takeDueInput_early (early : ∀ start, tget s.inputs.changes i = some start → s.now + dt < start + 20000) :
    takeDueInput i (s.advance dt) = s.advance dt := by
  have due : inputDue i (s.advance dt) = false := by
    unfold inputDue
    split
    · next start h => exact decide_eq_false (Nat.not_le.mpr (early start h))
    · rfl
  unfold takeDueInput
  split
  · rw [due]
    rfl
  · rfl

/-- A raw change where no change is due goes to the filter (R141). -/
theorem rawInputChange_eq (running : s.inputs.phase = .running) (hd : s.map.input i = some d) (changed : tget s.inputs.high i ≠ high)
    (early : ∀ start, tget s.inputs.changes i = some start → s.now + dt < start + 20000) :
    rawInputChange i high (s.advance dt) =
      filterInput i d high { s.advance dt with inputs := { s.inputs with high := tput s.inputs.high i high } } := by
  have differs : ¬ tget (s.advance dt).inputs.high i = high := changed
  unfold rawInputChange
  rw [if_neg differs, takeDueInput_early early]
  dsimp only
  split
  · next d' _ hd' =>
    cases hd.symm.trans hd'
    rfl
  · next h => exact absurd hd (h d running)

/-- With the filter OFF a raw change is taken at once. -/
theorem rawInputChange_taken (running : s.inputs.phase = .running) (hd : s.map.input i = some d) (changed : tget s.inputs.high i ≠ high)
    (plain : d.filtered = false) (early : tget s.inputs.changes i = none) : rawInputChange i high (s.advance dt) =
      (s.input dt i (tput s.inputs.high i high) high).onRide fun c r => functionChange c d.function (high == d.activeHigh) r := by
  rw [rawInputChange_eq running hd changed fun start h => by rw [early] at h; cases h]
  unfold filterInput
  rw [plain]
  rfl

/-! ### ESTOP and ZONE_HOLD -/

theorem removeHold_same (src : HoldSource) : (removeHold z src r).held z src = false := by
  unfold removeHold
  split
  · next hz => simp [Ride.held, hz]
  · next zr hz =>
    have same : (r.putZone z { zr with holds := withoutBit zr.holds src.bit }).zone? z = some { zr with holds := withoutBit zr.holds src.bit } :=
      tget_tput_same _ _ _
    rw [Ride.held, same, Option.any_some]
    simp only [ZoneRec.holds?, withoutBit_source]
    cases src <;> simp [HoldSource.bit]

/-- What a taken change of an ESTOP or a ZONE_HOLD input leaves at the end of the step (R38, R143). -/
theorem functionChange_ends {before : Ride} :
    (f = .estop → on = true → (conclude c before (functionChange c f on r)).cause? .estop = true ∧
      (conclude c before (functionChange c f on r)).latched = true) ∧
    ∀ z, f = .zoneHold z → (r.zone? z).isSome = true →
      (on = true → (conclude c before (functionChange c f on r)).held z .input = true) ∧
      (on = false → c.anyActive (.zoneHold z) = false → (conclude c before (functionChange c f on r)).held z .input = false) := by
  refine ⟨?_, ?_⟩
  · rintro rfl rfl
    have cause := (conclude_grows (c := c) (before := before)).1 _ (report_cause r .estop)
    exact ⟨cause, latched_of_cause cause⟩
  · rintro z rfl hz
    refine ⟨?_, ?_⟩
    · rintro rfl
      exact (conclude_narrow.keeps.holds z .input).trans (addHold_same hz)
    · rintro rfl last
      rw [conclude_narrow.keeps.holds z .input]
      simp only [functionChange, Bool.false_eq_true, if_false, last]
      exact removeHold_same .input

/-! ### The levels set after a take-up -/

/-- The state in which the levels of the function inputs are set (R142). -/
def State.startedInputs (s : State) (dt : Nat) : State := { s.advance dt with inputs := s.inputs.started s.map }

/-- What the setting of the levels hands on. -/
def levelsFound (c : Ctx) (r : Ride) : Ride :=
  overAll (fun (st : StationIx) r => stationFound c st r) (overAll (fun (i : InputIx) r => inputFound c i r) r)

theorem startInputs_due (waiting : s.inputs.phase = .waiting due) (reached : due ≤ s.now + dt) :
    startInputs (s.advance dt) = (s.startedInputs dt).onRide fun c r => levelsFound c r := by
  unfold startInputs
  rw [show (s.advance dt).inputs.phase = _ from waiting]
  dsimp only
  rw [if_pos (show due ≤ (s.advance dt).now from reached)]
  rfl

theorem started_active (hd : s.map.input i = some d) : (s.startedInputs dt).ctx.active i = (tget s.inputs.high i == d.activeHigh) := by
  have filtered : tget (s.inputs.started s.map).filtered i = tget s.inputs.high i := by
    simp only [Inputs.started, tget_tgen, hd, Option.isSome_some, Bool.true_and]
  show inputActive s.map (s.inputs.started s.map) i = _
  simp only [inputActive, hd, filtered]
  rfl

/-- A zone's INPUT hold and the cause ESTOP are not taken away as the levels are set. -/
theorem inputFound_stays (j : InputIx) : (r.cause? .estop = true → (inputFound c j r).cause? .estop = true) ∧
    (r.held z .input = true → (inputFound c j r).held z .input = true) := by
  refine ⟨(inputFound_changes (c := c) (o := false) (q := false) (r := r) j).grows.1 _, fun h => ?_⟩
  unfold inputFound
  split
  · split
    · exact addHold_held h
    · exact h
  · split
    · exact ((report_changes (w := false) (o := false) (q := false) _).keeps.holds _ _).trans h
    · exact h
  · exact h

theorem inputFound_own (hd : c.map.input i = some d) (active : c.active i = true) :
    (d.function = .estop → (inputFound c i r).cause? .estop = true) ∧
    ∀ z, d.function = .zoneHold z → (r.zone? z).isSome = true → (inputFound c i r).held z .input = true := by
  obtain ⟨function, activeHigh, filtered⟩ := d
  refine ⟨?_, ?_⟩
  · rintro rfl
    simp only [inputFound, hd, active, if_true]
    exact report_cause r .estop
  · rintro z rfl hz
    simp only [inputFound, hd, active, if_true]
    exact addHold_same hz

/-- What an active input has left as the levels are set. -/
theorem levelsFound_input (hd : c.map.input i = some d) (active : c.active i = true) :
    (d.function = .estop → (levelsFound c r).cause? .estop = true) ∧
    ∀ z, d.function = .zoneHold z → (r.zone? z).isSome = true → (levelsFound c r).held z .input = true := by
  have inputs := overAll_establish (fun b => ∀ z, (b.zone? z).isSome = (r.zone? z).isSome)
    (fun i b => ∀ d, c.map.input i = some d → c.active i = true → (d.function = .estop → b.cause? .estop = true) ∧
      ∀ z, d.function = .zoneHold z → (r.zone? z).isSome = true → b.held z .input = true)
    (fun (i : InputIx) r => inputFound c i r)
    (fun j b h z => ((inputFound_changes (c := c) (o := false) (q := false) (r := b) j).zone_isSome z).trans (h z))
    (fun j b h d hd active => ⟨(inputFound_own hd active).1, fun z hf hz => (inputFound_own hd active).2 z hf ((h z).trans hz)⟩)
    (fun j k b _ h d hd active => ⟨fun hf => (inputFound_stays (z := 0) j).1 ((h d hd active).1 hf),
      fun z hf hz => (inputFound_stays j).2 ((h d hd active).2 z hf hz)⟩) r (fun _ => rfl) i d hd active
  have stations (b : Ride) : Changes false false false b (overAll (fun (st : StationIx) r => stationFound c st r) b) :=
    overAll_changes (fun st _ => stationFound_changes st) b
  exact ⟨fun hf => (stations _).grows.1 _ (inputs.1 hf), fun z hf hz => ((stations _).keeps.holds z .input).trans (inputs.2 z hf hz)⟩

/-- Settles O57: what the filter makes of a raw change, and what a change taken and the levels set hand on. -/
theorem functionInputs : Obligations.FunctionInputs := by
  unfold Obligations.FunctionInputs
  refine ⟨fun s dt i d high changed running hd filtered early => ?_, fun s dt i d high changed running hd plain idle => ?_,
    fun s dt i d start running hd pending => ⟨fun held => ?_, fun early => ?_⟩, fun s dt due waiting reached => ?_⟩
  · show Host.Outcome.next (rawInputChange i high (s.advance dt)) = _
    rw [rawInputChange_eq running hd changed early]
    unfold filterInput
    rw [filtered]
    rfl
  · have ends := functionChange_ends (c := (s.input dt i (tput s.inputs.high i high) high).ctx) (before := s.ride) (r := s.ride)
      (f := d.function) (on := high == d.activeHigh)
    refine ⟨_, congrArg Host.Outcome.next (rawInputChange_taken running hd changed plain idle), rfl,
      fun hf hon => ends.1 hf (by rw [hon]; exact beq_self_eq_true _), fun z hf hz => ⟨fun hon => ?_, fun hoff => ?_⟩⟩
    · exact (ends.2 z hf hz).1 (by rw [hon]; exact beq_self_eq_true _)
    · exact (ends.2 z hf hz).2 (by simpa using hoff)
  · have ends := functionChange_ends (c := (s.input dt i s.inputs.high (!tget s.inputs.filtered i)).ctx) (before := s.ride) (r := s.ride)
      (f := d.function) (on := (!tget s.inputs.filtered i) == d.activeHigh)
    have active (h : tget s.inputs.filtered i ≠ d.activeHigh) : ((!tget s.inputs.filtered i) == d.activeHigh) = true := by
      cases hf : tget s.inputs.filtered i <;> cases ha : d.activeHigh <;> simp_all
    refine ⟨_, congrArg Host.Outcome.next (takeDueInput_due running hd pending held), rfl, fun hf hon => ends.1 hf (active hon),
      fun z hf hz => ⟨fun hon => (ends.2 z hf hz).1 (active hon), fun hoff => (ends.2 z hf hz).2 ?_⟩⟩
    rw [hoff]
    cases d.activeHigh <;> rfl
  · show Host.Outcome.next (takeDueInput i (s.advance dt)) = _
    rw [takeDueInput_early fun start' h => by rw [pending] at h; cases h; exact early]
  · refine ⟨_, congrArg Host.Outcome.next (startInputs_due waiting reached), rfl, fun i => tget_tgen _ _, fun i d hd level => ?_⟩
    have active : (s.startedInputs dt).ctx.active i = true := (started_active hd).trans (by rw [level]; exact beq_self_eq_true _)
    have found := levelsFound_input (c := (s.startedInputs dt).ctx) (r := s.ride) hd active
    exact ⟨fun hf => (conclude_grows (before := s.ride)).1 _ (found.1 hf),
      fun z hf hz => (conclude_narrow.keeps.holds z .input).trans (found.2 z hf hz)⟩

end Sys2Proof.Machine
end

section
/-! PROOF. Stations: their table, their inputs, the pair windows and the dispatch waits (R142, R144, R146 to R148, R150, R152). -/

namespace Sys2Proof.Machine

variable {s t : State} {dt due start : Nat} {c : Ctx} {a b r before : Ride} {i j : InputIx} {d : InputDesc} {high on : Bool}
  {lines : Vector Bool 16} {st v : StationIx} {sd : StationDesc} {x y : StationRec} {p : Pairing} {side : Side} {w o q : Bool}

/-! ### Tables 8-3 and 8-4 -/

theorem other_ne (side : Side) : ¬ side.other = side := by cases side <;> simp [Side.other]

/-- The pairing of a station, by its state and the input that changes (Table 8-4). -/
theorem pairing_table (side : Side) (due due' : Nat) :
    (Pairing.armed.press side due = { pairing := .timing side due } ∧
      (Pairing.timing side due').press side.other due = { pairing := .spent, pair := true } ∧
      (Pairing.expired side).press side.other due = { pairing := .spent, late := true } ∧
      Pairing.spent.press side due = { pairing := .spent }) ∧
    ∀ other : Bool, (Pairing.timing side due').letGo side other = { pairing := .armed } ∧
      (Pairing.expired side).letGo side other = { pairing := .armed } ∧
      (Pairing.timing side due').letGo side.other other = { pairing := .timing side due' } ∧
      (Pairing.expired side).letGo side.other other = { pairing := .expired side } ∧
      Pairing.spent.letGo side other = { pairing := if other then .spent else .armed } := by
  refine ⟨⟨rfl, ?_, ?_, rfl⟩, fun other => ⟨?_, ?_, ?_, ?_, rfl⟩⟩
  · simp only [Pairing.press, other_ne, if_false]
  · simp only [Pairing.press, other_ne, if_false]
  · simp only [Pairing.letGo, if_true]
  · simp only [Pairing.letGo, if_true]
  · simp only [Pairing.letGo, other_ne, if_false]
  · simp only [Pairing.letGo, other_ne, if_false]

/-! ### What a step leaves of a pairing -/

theorem Changes.station_isSome (h : Changes w o q a b) (some_ : (a.station? st).isSome = true) : (b.station? st).isSome = true := by
  induction h with
  | refl => exact some_
  | tail _ step ih =>
    cases step with
    | station v x y hx =>
      show (tget (tput _ v (some y)) st).isSome = true
      rw [tget_tput]
      split
      · rfl
      · exact ih
    | report cause => rwa [(report_within cause).station? rfl]
    | _ => exact ih

/-- The end of a step changes no pairing. -/
theorem conclude_pairing {y0 : StationRec} (h0 : a.station? st = some y0) (h : (conclude c before a).station? st = some y) :
    y.pairing = y0.pairing := by
  obtain ⟨y', hy', pairing, -⟩ : (conclude c before a).StationAt st y0.pairing fun _ => True :=
    conclude_stationAt (fun _ _ _ _ _ _ _ => trivial) (fun _ _ => trivial) (fun _ _ => trivial) ⟨y0, h0, rfl, trivial⟩
  cases Option.some.inj (h.symm.trans hy')
  exact pairing

/-! ### Restraint and gate -/

/-- A station's state as a restraint or gate input changes, its proofs then being `proofs` (Table 8-3). -/
def StationState.proven (proofs on : Bool) (state : StationState) : StationState :=
  if on then if proofs && state == .loading then .ready else state
  else if state == .ready || state.isPending then .loading else state

theorem proofInputChange_station (hx : r.station? st = some x) :
    (proofInputChange c st on r).station? st = some { x with state := x.state.proven (c.stationProofs st) on } := by
  unfold proofInputChange
  cases on with
  | true =>
    cases hp : c.stationProofs st with
    | true =>
      rw [if_pos rfl, if_pos rfl, stationEvent_same hx]
      cases hs : x.state <;> rfl
    | false =>
      rw [if_pos rfl, if_neg (by simp), hx]
      rfl
  | false =>
    rw [if_neg (by simp), stationEvent_same hx]
    cases hs : x.state <;> rfl

/-- A proof lost reports the station in a release before the departure alone (R152). -/
theorem proofInputChange_causes (hx : r.station? st = some x) (h : on = true ∨ x.state ≠ .releasing false) :
    (proofInputChange c st on r).causes = r.causes := by
  unfold proofInputChange
  cases on with
  | true =>
    rw [if_pos rfl]
    split
    · exact stationEvent_causes (by simp) (by simp)
    · rfl
  | false =>
    have quiet : stationUnproven (c.stationProofs st) x.state (x.state.next (c.stationProofs st) .proofLost) .proofLost = false := by
      simp only [stationUnproven, beq_eq_false_iff_ne]
      exact h.resolve_left (by simp)
    rw [if_neg (by simp)]
    unfold stationEvent
    rw [hx]
    dsimp only
    rw [quiet, if_neg (by simp)]
    split <;> rfl

theorem proofInputChange_stops (hx : r.station? st = some x) (state : x.state = .releasing false) :
    (proofInputChange c st false r).cause? .stationProof = true := by
  simp only [proofInputChange, stationEvent, hx, state, Bool.false_eq_true, if_false]
  exact report_cause _ _

theorem proofInputChange_cancels (hx : r.station? st = some x) (pending : x.state.isPending = true) :
    (proofInputChange c st false r).notice? .dispatchCancelled = true := by
  cases hs : x.state with
  | pending source due =>
    simp only [proofInputChange, stationEvent, hx, hs, Bool.false_eq_true, if_false]
    exact raise_notice _ .dispatchCancelled
  | _ => rw [hs] at pending; cases pending

theorem stationProofs_eq (hsd : c.map.station st = some sd) : c.stationProofs st = (c.active sd.restraint && c.active sd.gate) := by
  simp only [Ctx.stationProofs, hsd]

/-! ### The dispatch inputs -/

/-- What a change of a dispatch input makes of its station's pairing, the pair window counted from the step's time. -/
def pairResult (c : Ctx) (sd : StationDesc) (p : Pairing) (side : Side) (on : Bool) : PairResult :=
  if on then p.press side (dueAfter c.now sd.pairWindow)
  else p.letGo side (match side with | .a => c.active sd.dispatchB | .b => c.active sd.dispatchA)

/-- A dispatch input's change: the pairing, the notice of a late pair, and then the demand of a pair formed in time (R147, R148). -/
theorem pairingChange_parts (hx : r.station? st = some x) (hsd : c.map.station st = some sd) (buttons : sd.authority ≠ .link) :
    ∃ b, b.station? st = some { x with pairing := (pairResult c sd x.pairing side on).pairing } ∧ b.causes = r.causes ∧
      ((pairResult c sd x.pairing side on).late = true → b.notice? .latePair = true) ∧
      pairingChange c st side on r = if (pairResult c sd x.pairing side on).pair then formDemand c st sd b else b := by
  have eq : pairingChange c st side on r =
      if (pairResult c sd x.pairing side on).pair then
        formDemand c st sd (if (pairResult c sd x.pairing side on).late then
          (r.putStation st { x with pairing := (pairResult c sd x.pairing side on).pairing }).raise .latePair
          else r.putStation st { x with pairing := (pairResult c sd x.pairing side on).pairing })
      else if (pairResult c sd x.pairing side on).late then
        (r.putStation st { x with pairing := (pairResult c sd x.pairing side on).pairing }).raise .latePair
        else r.putStation st { x with pairing := (pairResult c sd x.pairing side on).pairing } := by
    simp only [pairingChange, hx, hsd, buttons, if_false]
    rfl
  have put (q : StationRec) : (r.putStation st q).station? st = some q := tget_tput_same _ _ _
  refine ⟨_, ?_, ?_, fun late => ?_, eq⟩
  · split
    · exact ((raise_within .latePair).station? rfl st).trans (put _)
    · exact put _
  · split <;> rfl
  · rw [if_pos late]
    exact raise_notice _ .latePair

theorem formDemand_station (hx : r.station? st = some x) : ∃ y, (formDemand c st sd r).station? st = some y ∧ y.pairing = x.pairing := by
  unfold formDemand
  split
  · exact ⟨_, stationEvent_same hx _, rfl⟩
  · exact ⟨x, hx, rfl⟩

theorem formDemand_calm (calm : c.mode ≠ .auto ∨ r.latched = true) : formDemand c st sd r = r := by
  unfold formDemand
  refine if_neg ?_
  rintro ⟨auto, on, -⟩
  rcases calm with h | h
  · exact h auto
  · rw [on] at h
    cases h

/-! ### A station as the levels are set -/

theorem stationFound_own (hx : r.station? st = some x) (hsd : c.map.station st = some sd) :
    ∃ y, (stationFound c st r).station? st = some y ∧ y.pairing = pairingFound c sd := by
  have put : (r.putStation st { x with pairing := pairingFound c sd }).station? st = some { x with pairing := pairingFound c sd } :=
    tget_tput_same _ _ _
  simp only [stationFound, hx, hsd]
  split
  · exact ⟨_, stationEvent_same put _, rfl⟩
  · exact ⟨_, put, rfl⟩

theorem stationFound_other (ne : st ≠ v) : (stationFound c v r).station? st = r.station? st := by
  unfold stationFound
  split
  · next x d _ _ =>
    have put : (r.putStation v { x with pairing := pairingFound c d }).station? st = r.station? st := tget_tput_other _ _ _ _ ne
    dsimp only
    split
    · exact (stationEvent_other ne _).trans put
    · exact put
  · rfl

theorem levelsFound_pairing (hx : r.station? st = some x) (hsd : c.map.station st = some sd) :
    ∃ y, (levelsFound c r).station? st = some y ∧ y.pairing = pairingFound c sd := by
  have inputs : Changes true false false r (overAll (fun (i : InputIx) r => inputFound c i r) r) :=
    overAll_changes (fun i _ => inputFound_changes i) r
  have all := overAll_establish (fun b : Ride => (b.station? st).isSome = true)
    (fun v b => v = st → ∃ y, b.station? st = some y ∧ y.pairing = pairingFound c sd) (fun (v : StationIx) r => stationFound c v r)
    (fun v b h => (stationFound_changes (c := c) (w := false) (o := false) (q := false) (r := b) v).station_isSome h)
    (fun v b h e => by
      subst e
      obtain ⟨y, hy⟩ := Option.isSome_iff_exists.mp h
      exact stationFound_own hy hsd)
    (fun v k b h k_ e => by
      subst e
      by_cases same : v = k
      · subst same
        obtain ⟨y, hy⟩ := Option.isSome_iff_exists.mp h
        exact stationFound_own hy hsd
      · obtain ⟨y, hy, pairing⟩ := k_ rfl
        exact ⟨y, (stationFound_other (Ne.symm same)).trans hy, pairing⟩)
    (overAll (fun (i : InputIx) r => inputFound c i r) r) (inputs.station_isSome (by rw [hx]; rfl)) st
  exact all rfl

theorem windowExpiry_timing {first : Side} (hx : r.station? st = some x) (timing : x.pairing = .timing first due) :
    windowExpiry st r = r.putStation st { x with pairing := .expired first } := by
  obtain ⟨state, pairing⟩ := x
  subst timing
  simp only [windowExpiry, hx]

/-! ### The statement -/

/-- A due change, or a raw change with the filter OFF, is taken (R141). -/
theorem input_taken {cmd : Instr} (running : s.inputs.phase = .running) (hd : s.map.input i = some d)
    (h : cmd = .functionInputChange dt i ∧ high = (!tget s.inputs.filtered i) ∧ lines = s.inputs.high ∧
        (∃ start, tget s.inputs.changes i = some start ∧ start + 20000 ≤ s.now + dt) ∨
      cmd = .functionInputRawChange dt i high ∧ tget s.inputs.high i ≠ high ∧ lines = tput s.inputs.high i high ∧
        d.filtered = false ∧ tget s.inputs.changes i = none) :
    exec cmd s = .next ((s.input dt i lines high).onRide fun c r => functionChange c d.function (high == d.activeHigh) r) := by
  rcases h with ⟨rfl, rfl, rfl, start, pending, held⟩ | ⟨rfl, changed, rfl, plain, idle⟩
  · exact congrArg Host.Outcome.next (takeDueInput_due running hd pending held)
  · exact congrArg Host.Outcome.next (rawInputChange_taken running hd changed plain idle)

/-- What a restraint or gate input's change leaves at the end of the step (R144, R146, R152). -/
theorem proofInput_ends (hx : r.station? st = some x) (hsd : c.map.station st = some sd)
    (hy : (conclude c r (proofInputChange c st on r)).station? st = some y) :
    r.Keeps (conclude c r (proofInputChange c st on r)) ∧ y.pairing = x.pairing ∧
    (on = false → x.state = .releasing false → (conclude c r (proofInputChange c st on r)).cause? .stationProof = true ∧
      (conclude c r (proofInputChange c st on r)).latched = true) ∧
    (on = false → x.state.isPending = true → (conclude c r (proofInputChange c st on r)).notice? .dispatchCancelled = true) ∧
    (c.calm r → (on = true ∨ x.state ≠ .releasing false) →
      y.state = x.state.proven (c.active sd.restraint && c.active sd.gate) on) := by
  have station := proofInputChange_station (c := c) (on := on) hx
  have changes : Changes false false false r (proofInputChange c st on r) := proofInputChange_changes st on
  have pairing : y.pairing = _ := conclude_pairing station hy
  refine ⟨changes.keeps.trans conclude_narrow.keeps, pairing, ?_, ?_, fun calm quiet => ?_⟩
  · rintro rfl state
    have cause := (conclude_grows (c := c) (before := r)).1 _ (proofInputChange_stops (c := c) hx state)
    exact ⟨cause, latched_of_cause cause⟩
  · rintro rfl pending
    exact (conclude_grows (c := c) (before := r)).2 _ (proofInputChange_cancels (c := c) hx pending)
  · have within := conclude_untold (before := r) (calm.changes changes) (proofInputChange_causes hx quiet)
    rw [within.station? rfl, station, stationProofs_eq hsd] at hy
    cases Option.some.inj hy
    rfl

/-- What a dispatch input's change leaves at the end of the step (R147, R148). -/
theorem pairing_ends {res : PairResult} (hx : r.station? st = some x) (hsd : c.map.station st = some sd) (buttons : sd.authority ≠ .link)
    (hres : res = pairResult c sd x.pairing side on) (hy : (conclude c r (pairingChange c st side on r)).station? st = some y) :
    y.pairing = res.pairing ∧ (res.late = true → (conclude c r (pairingChange c st side on r)).notice? .latePair = true) ∧
    (res.pair = true → c.mode = .auto → r.latched = false → x.state = .ready →
      (conclude c r (pairingChange c st side on r)).latched = false →
      y.state = .pending .buttons (dueAfter c.now sd.dispatchWait) ∨ y.state = .releasing false) ∧
    (c.calm r → y.state = x.state) := by
  obtain ⟨b, station, causes, late, eq⟩ := pairingChange_parts (side := side) (on := on) hx hsd buttons
  rw [← hres] at station late eq
  rw [eq] at hy ⊢
  refine ⟨?_, fun h => ?_, fun pair auto clear ready on_ => ?_, fun calm => ?_⟩
  · split at hy
    · obtain ⟨y0, h0, pairing⟩ := formDemand_station (c := c) (sd := sd) station
      exact (conclude_pairing h0 hy).trans pairing
    · exact conclude_pairing station hy
  · refine (conclude_grows (c := c) (before := r)).2 _ ?_
    split
    · exact (formDemand_changes (w := false) (o := false) (q := false) st sd).grows.2 _ (late h)
    · exact late h
  · have demand : formDemand c st sd b = stationEvent c st (.demand .buttons (dueAfter c.now sd.dispatchWait)) b :=
      if_pos ⟨auto, (latched_congr causes).trans clear, buttons⟩
    rw [if_pos pair, demand] at hy on_
    obtain ⟨y', hy', -, state⟩ := demand_stands (before := r) station ready on_
    cases Option.some.inj (hy.symm.trans hy')
    exact state
  · have calm' : c.calm b := calm.imp_right fun h => (latched_congr causes).trans h
    have same : (if res.pair = true then formDemand c st sd b else b) = b := by
      split
      · exact formDemand_calm calm'
      · rfl
    rw [same, (conclude_untold (before := r) calm' causes).station? rfl, station] at hy
    cases Option.some.inj hy
    rfl

/-- Settles O58: the tables, then each input's change, the levels set, and the two timers. -/
theorem stationInputs : Obligations.StationInputs := by
  unfold Obligations.StationInputs
  refine ⟨fun proofs state e => ?_, pairing_table, fun s dt i d cmd high lines st sd x on running hd h hsd hx hon => ?_,
    fun s dt due st sd x waiting reached hsd hx => ?_, fun s dt st x first due hx timing => ⟨fun reached => ?_, fun early => ?_⟩,
    fun s dt st x source due hx pending => ⟨fun reached => ?_, fun early => ?_⟩⟩
  · cases e <;> cases state <;> rfl
  · have changes : Changes true false false s.ride (functionChange (s.input dt i lines high).ctx d.function on s.ride) :=
      functionChange_changes d.function on
    obtain ⟨y, hy⟩ := Option.isSome_iff_exists.mp ((conclude_narrow (c := (s.input dt i lines high).ctx) (before := s.ride)).station_isSome
      (changes.station_isSome (st := st) (by rw [hx]; rfl)))
    have taken := input_taken running hd h
    rw [← hon] at taken
    refine ⟨_, y, taken, hy, rfl, fun function => ?_, fun side function => ?_⟩
    · have eq : functionChange (s.input dt i lines high).ctx d.function on s.ride = proofInputChange (s.input dt i lines high).ctx st on s.ride := by
        rcases function with e | e <;> rw [e] <;> rfl
      rw [eq] at hy
      have ends := proofInput_ends hx hsd hy
      rw [← eq] at ends
      exact ends
    · have eq : functionChange (s.input dt i lines high).ctx d.function on s.ride =
          pairingChange (s.input dt i lines high).ctx st side on s.ride := by
        cases side <;> rw [function] <;> rfl
      have narrow : Changes false false false s.ride (pairingChange (s.input dt i lines high).ctx st side on s.ride) := pairingChange_changes _ _ _
      refine ⟨?_, fun link => ?_, fun res buttons hres => ?_⟩
      · show s.ride.Keeps (conclude _ s.ride (functionChange (s.input dt i lines high).ctx d.function on s.ride))
        rw [eq]
        exact narrow.keeps.trans conclude_narrow.keeps
      · rw [eq] at hy
        have still : pairingChange (s.input dt i lines high).ctx st side on s.ride = s.ride := by
          simp only [pairingChange, hx, show (s.input dt i lines high).ctx.map.station st = _ from hsd, link, if_true]
        rw [still] at hy
        exact conclude_pairing hx hy
      · have hres' : res = pairResult (s.input dt i lines high).ctx sd x.pairing side on := by
          rw [hres]
          cases side <;> rfl
        rw [eq] at hy
        have ends := pairing_ends hx hsd buttons hres' hy
        rw [← eq] at ends
        exact ends
  · obtain ⟨y0, h0, pairing⟩ := levelsFound_pairing (c := (s.startedInputs dt).ctx) hx hsd
    obtain ⟨y, hy⟩ := Option.isSome_iff_exists.mp
      ((conclude_narrow (c := (s.startedInputs dt).ctx) (before := s.ride)).station_isSome (st := st) (by rw [h0]; rfl))
    refine ⟨_, y, congrArg Host.Outcome.next (startInputs_due waiting reached), hy, ?_⟩
    show y.pairing = if sd.authority ≠ .link ∧ ((s.startedInputs dt).ctx.active sd.dispatchA = true ∨
      (s.startedInputs dt).ctx.active sd.dispatchB = true) then .spent else .armed
    rw [conclude_pairing h0 hy, pairing]
    by_cases link : sd.authority = .link
    · simp [pairingFound, link]
    · simp [pairingFound, link]
  · have cond : ((s.advance dt).ride.station? st).any (fun x => x.pairing.windowDue.any (s.advance dt).reached) = true := by
      rw [show (s.advance dt).ride.station? st = _ from hx, Option.any_some, timing]
      exact decide_eq_true reached
    show Host.Outcome.next ((s.advance dt).windowExpires st) = _
    unfold State.windowExpires
    rw [if_pos cond, show windowExpiry st (s.advance dt).ride = _ from windowExpiry_timing hx timing]
    rfl
  · have cond : ((s.advance dt).ride.station? st).any (fun x => x.pairing.windowDue.any (s.advance dt).reached) = false := by
      rw [show (s.advance dt).ride.station? st = _ from hx, Option.any_some, timing]
      exact decide_eq_false (Nat.not_le.mpr early)
    show Host.Outcome.next ((s.advance dt).windowExpires st) = _
    unfold State.windowExpires
    rw [if_neg (by rw [cond]; simp)]
  · obtain ⟨y, hy, pairing, demand, ready⟩ := cancelled_stands (c := (s.advance dt).ctx) (before := s.ride) hx (by rw [pending]; rfl)
    have cond : ((s.advance dt).ride.station? st).any (fun x => x.state.waitDue.any (s.advance dt).reached) = true := by
      rw [show (s.advance dt).ride.station? st = _ from hx, Option.any_some, pending]
      exact decide_eq_true reached
    have h : s.Happened dt (fun c r => stationEvent c st .cancel r) ((s.advance dt).waitExpires st) := onRideIf_happened cond
    have ride : ((s.advance dt).waitExpires st).ride = conclude (s.advance dt).ctx s.ride (stationEvent (s.advance dt).ctx st .cancel s.ride) := h.ride
    have changes : Changes false false false s.ride (stationEvent (s.advance dt).ctx st .cancel s.ride) := stationEvent_changes st _
    refine ⟨_, y, rfl, h.only, ?_, ride ▸ hy, demand, pairing, ready, ?_⟩
    · rw [ride]
      exact changes.keeps.trans conclude_narrow.keeps
    · rw [ride]
      exact conclude_grows.2 _ (cancel_notice hx (by rw [pending]; rfl))
  · show Host.Outcome.next ((s.advance dt).waitExpires st) = _
    refine congrArg _ (onRideIf_not ?_)
    rw [show (s.advance dt).ride.station? st = _ from hx, Option.any_some, pending]
    exact decide_eq_false (Nat.not_le.mpr early)

end Sys2Proof.Machine
end

section
/-! PROOF. O48 fails in a map whose diverge switch is named by two zones: NOSE_IN takes the zone ahead from a HELD train, whose chain is
returned (R36, R132), and the return of the other zone moves the switch before the run length is taken by its lock (R98, R112). -/

open Sys2Proof Sys2Proof.Machine Sys2Proof.Tests

namespace Sys2Proof.Machine

/-- The zone ahead: it holds diverge switch 0 and its transit is predicted, over 20,000 mm on leg A and 24,000 mm on leg B. -/
def forkZone : ZoneDesc :=
  { zoneAt .run (.brake 0 1 800) 1 0 with
    succB := some 2, switch := some 0, runB := some 24000, transit := .predicted, slack := 64, margin := 500 }

/-- The small circuit, but that zone 0 is predicted and zone 2 names switch 0 too. -/
def sharedSwitch : CircuitMap :=
  { small with zones := tput (tput small.zones 0 (some forkZone)) 2 (some { zoneAt .run (.brake 2 3 800) 3 2 with switch := some 0 }) }

/-- Train 0 stands in zone 4 and its nose crosses into zone 0; train 1, HELD in zone 3 behind a closed brake, holds zones 0 and 2. Switch 0
stands locked at B, a request for A pending. -/
def noseAtFork : State :=
  edgeAt 1 false 0 (.entering .forward 800000)
    (withSwitch 0 { pos := .locked .b, pending := some (.a, .link), committed := some .b, role := .diverge none .b }
      (withTrain (trainAt .leaving 4) [(4, .occupied 0), (3, .occupied 1), (0, .reserved 1), (2, .reserved 1)]
        { base with map := sharedSwitch, ride := base.ride.putTrain 1 { trainAt .held 3 with label := 8, chain := [0, 2] } }))

/-- The state after the edge. -/
def noseInFork : State := takeDueEdge 1 (noseAtFork.advance 0)

/-- The run length that the lock at B gives. -/
def forkRun : Nat :=
  forkZone.runLength (sharedSwitch.mergeAt 0).isSome (sharedSwitch.divergeAt 0).isSome (sharedSwitch.entrySide 0 0)
    (zoneLock noseAtFork.ctx noseAtFork.ride 0)

theorem noseAtFork_reports : noseAtFork.Reports 0 1 0 (gateAt 4 0 0 false) 900000 (.noseIn .forward 100000) := by
  refine ⟨⟨by decide +kernel, by decide +kernel, by decide +kernel, by decide +kernel⟩, .d,
    { passage := .entering .forward 800000, stalled := false, lastInterval := none }, ?_, ?_, ?_⟩
  · decide +kernel
  · decide +kernel
  · decide +kernel

/-- The deadline that the lock at B gives is 2,500 ms; the train's is 2,168 ms, by the shorter leg. -/
theorem noseInFork_deadline : (forkZone.journey forkRun 15000).1 = 2500 ∧
    ((noseInFork.ride.train? 0).bind (·.deadline)).map (·.duration) = some 2168 := by decide +kernel

/-- Refutes O48: the switch that two zones name moves within the crossing, and the deadline is not that of the lock before it. -/
theorem not_forwardTravel : ¬ Obligations.ForwardTravel := by
  unfold Obligations.ForwardTravel
  intro h
  obtain ⟨-, -, noseIn, -⟩ := h noseAtFork 0 1 0 (gateAt 4 0 0 false) 900000 0 (trainAt .leaving 4)
  obtain ⟨t, ht, -, -, crossing, -⟩ := noseIn 100000 15000 (.reserved 1) forkZone noseAtFork_reports (by decide +kernel) (by decide +kernel)
    (by decide +kernel) (by decide +kernel) (by decide +kernel)
  obtain ⟨-, -, ⟨y, hy, -, -, -, -, -, -, -, -, -, deadline, -⟩, -⟩ := crossing (by decide +kernel) rfl
  have after : noseInFork = t := Host.Outcome.next.inj ht
  obtain ⟨expected, found⟩ := noseInFork_deadline
  rw [after, hy, Option.bind_some, deadline forkRun rfl, Option.map_some, Option.some.injEq] at found
  exact absurd (expected.symm.trans found) (by decide)

end Sys2Proof.Machine
end

section
/-! PROOF. Trains that roll back: the layer for O49 (R24 to R28, R67 to R70). -/

namespace Sys2Proof.Machine

variable {c : Ctx} {p : Bool} {P : List ZoneIx → Prop} {a b e r : Ride} {z u head : ZoneIx} {tail : Option ZoneIx} {j k : SlotIx}
  {x y v : Train} {o q : Bool} {chain : List ZoneIx} {d : BoundaryDesc} {claim : Claim} {cause : ZoneFault} {was : ZoneIx → Bool}
  {K : Option SlotIx} {H F V : Option ZoneIx} {phase : TrainPhase} {stamp : Nat} {dir : Direction}

/-! ### A train STOPPING where nothing opens -/

/-- Zone `z` has no record, a hold source or a fault, so that its element is not opened by the interlock (R29, R35). -/
def Ride.Barred (r : Ride) (z : ZoneIx) : Prop := r.zone? z = none ∨ ¬r.Unheld z

theorem Ride.Barred.same (h : a.Barred z) (k : a.SameZones b) : b.Barred z := by
  rcases h with h | h
  · have e := k.isSome z
    rw [h, Option.isSome_none, Option.isSome_eq_false_iff, Option.isNone_iff_eq_none] at e
    exact .inl e
  · exact .inr (Unheld.not_same h k)

theorem eligible_unbarred (h : eligible c r x = true) (barred : r.Barred z) : z ≠ x.head := by
  rintro rfl
  obtain ⟨-, -, -, -, ⟨zr, hz, -⟩, -⟩ := readyToReserve_iff.mp (eligible_ready h)
  rcases barred with none_ | held
  · rw [hz] at none_
    cases none_
  · exact held (readyToReserve_unheld (eligible_ready h)).1

/-- A train STOPPING in a barred zone stands as it is to the end of the step. -/
theorem conclude_stopping_barred {before : Ride} (hx : a.train? k = some x) (stopping : x.phase = .stopping) (barred : a.Barred x.head) :
    (conclude c before a).train? k = some x := by
  refine (conclude_induct (fun r => r.Barred x.head ∧ r.train? k = some x) (fun a b h e => ?_) (fun r t y chain hy he ha e => ?_)
    (fun r e => ?_) ⟨barred, hx⟩).2
  · exact ⟨e.1.same (.of_within h rfl), (h.train? rfl k).trans e.2⟩
  · have apart := eligible_unbarred he e.1
    refine ⟨e.1.same (reserveChain_sameZones chain false), reserveChain_train_other false hy e.2 (fun h => ?_) apart⟩
    subst h
    rw [hy] at e
    cases e.2
    exact apart rfl
  · exact ⟨e.1.same (.of_changes (stopRide_changes (o := false) (q := false))), (stopRide_led (p := false)).stopping e.2 stopping⟩

/-! ### A train that keeps its chain -/

/-- The train in slot `k` is in a phase in which the interlock leaves it its chain, and holds zone `z` with it. -/
structure Ride.Pledged (r : Ride) (k : SlotIx) (phase : TrainPhase) (chain : List ZoneIx) (z : ZoneIx) : Prop where
  train : ∃ y, r.train? k = some y ∧ y.phase = phase ∧ y.chain = chain
  claim : r.claim? z = some (.reserved k)

/-- A phase in which the interlock leaves a train as it is: STOPPING only where nothing opens (`p` as for `Train.Nudged`). -/
def TrainPhase.Fixed (phase : TrainPhase) (p : Bool) : Prop := phase ≠ .held ∧ phase ≠ .running ∧ (phase = .stopping → p = false)

theorem TrainPhase.Fixed.rollback (p : Bool) : TrainPhase.rollback.Fixed p := ⟨by simp, by simp, by simp⟩

theorem Train.Led.pledged (h : Train.Led c p P x y) (fixed : x.phase.Fixed p) (full : x.chain ≠ []) :
    y.phase = x.phase ∧ y.chain = x.chain := by
  induction h with
  | refl => exact ⟨rfl, rfl⟩
  | tail _ nudge ih =>
    obtain ⟨same, kept⟩ := ih
    rw [← same] at fixed
    rw [← kept] at full
    cases nudge with
    | returned rest => exact absurd rest fixed.1
    | stopped running => exact absurd running fixed.2.1
    | released may rest =>
      rcases rest with e | e
      · exact absurd e fixed.1
      · rw [fixed.2.2 e] at may
        cases may
    | reserved chain named empty => exact absurd empty full
    | directed may dir => exact ⟨same, kept⟩

theorem Ride.Led.pledged (h : Ride.Led c p P a b) (fixed : phase.Fixed p) (full : chain ≠ []) (pledged : a.Pledged k phase chain z) :
    b.Pledged k phase chain z := by
  refine h.induct (fun r => r.Pledged k phase chain z) (fun a b nudge kept => ?_) pledged
  obtain ⟨⟨y, hy, rfl, rfl⟩, claim⟩ := kept
  obtain ⟨y', hy', led⟩ := (nudge.carries k).2 y hy
  refine ⟨⟨y', hy', led.pledged fixed full⟩, ?_⟩
  cases nudge with
  | within within zones trains => exact (within.claim? zones z).trans claim
  | train t x v hx how same => exact claim
  | returned t x hx rest =>
    have other : t ≠ k := by
      rintro rfl
      cases Option.some.inj (hx.symm.trans hy)
      exact fixed.1 rest
    rw [returnChain_claim? hx, if_neg (fun h => other (by rw [claim] at h; cases h.2; rfl))]
    exact claim
  | reserved t x chain hx named empty free =>
    have apart : z ∉ chain := fun h => by
      have clear := free z h
      rw [claim] at clear
      cases clear
    rw [chainReserved_claim?, if_neg apart]
    exact claim

/-- A chain pledged to a train in ROLLBACK stays its own to the end of the step; to one STOPPING, outside AUTO. -/
theorem conclude_pledged {before : Ride} (rolls : phase = .rollback ∨ phase = .stopping ∧ c.calm a) (full : chain ≠ [])
    (pledged : a.Pledged k phase chain z) : (conclude c before a).Pledged k phase chain z := by
  rcases rolls with rfl | ⟨rfl, calm⟩
  · exact (conclude_led (P := fun _ => True) (fun _ _ => trivial) (fun _ _ _ => trivial)).pledged (.rollback _) full pledged
  · exact (conclude_led_calm calm).pledged ⟨by simp, by simp, fun _ => rfl⟩ full pledged

theorem Ride.Pledged.within {q : Parts} (h : a.Pledged k phase chain z) (n : Ride.Within q a b) (trains : q.trains = false)
    (claim : b.claim? z = a.claim? z) : b.Pledged k phase chain z := by
  obtain ⟨⟨y, hy, rest⟩, held⟩ := h
  exact ⟨⟨y, (n.train? trains k).trans hy, rest⟩, claim.trans held⟩

theorem Ride.Pledged.addHold (h : r.Pledged k .rollback chain z) (full : chain ≠ []) (u : ZoneIx) (src : HoldSource) :
    (addHold c u src r).Pledged k .rollback chain z := by
  unfold Machine.addHold
  split
  · exact h
  · next zr hz =>
    split
    · exact h
    · exact (closeElement_led (c := c) (p := false) (P := noChain) u).pledged (.rollback _) full (h.within (putZone_within u _) rfl
        (putZone_claim_kept (v' := { zr with holds := withBit zr.holds src.bit }) hz rfl z))

/-! ### Hold sources and faults through what follows -/

theorem addHold_source {src src' : HoldSource} (ne : src' ≠ src) : (addHold c u src r).held z src' = r.held z src' := by
  by_cases hz : z = u
  · subst hz
    cases hr : r.zone? z with
    | none => simp only [Machine.addHold, hr]
    | some zr =>
      cases hold : zr.holds? src with
      | true => rw [addHold_old hr hold]
      | false =>
        rw [addHold_new hr hold]
        refine ((closeElement_changes (w := false) (o := false) (q := false) z).keeps.holds z src').trans ?_
        have put : (r.putZone z { zr with holds := withBit zr.holds src.bit }).zone? z = some { zr with holds := withBit zr.holds src.bit } :=
          tget_tput_same ..
        rw [Ride.held, Ride.held, put, hr, Option.any_some, Option.any_some]
        cases src <;> cases src' <;> simp [ZoneRec.holds?, withBit, HoldSource.bit] at ne ⊢
  · exact addHold_other hz

/-- A fault recorded by a step stands through what records no other in its zone. -/
theorem Ride.faultedBy.but (h : a.faultedBy b z cause) (k : b.But e K H none V) (same : (e.zone? z).isSome = (b.zone? z).isSome) :
    a.faultedBy e z cause := by
  obtain ⟨⟨reported, notice, fault⟩, own⟩ := h
  have faults : e.zoneFault z = b.zoneFault z := k.faults z (by simp)
  exact ⟨⟨k.grows.1 _ reported, k.grows.2 _ notice, fun he => faults ▸ fault (same ▸ he)⟩, fun ha => faults.trans (own ha)⟩

/-- A fault that a step records, seen from where the zone had the same cause. -/
theorem Ride.faultedBy.of_same (h : b.faultedBy e z cause) (same : (b.zone? z).isSome = (a.zone? z).isSome)
    (fault : b.zoneFault z = a.zoneFault z) : a.faultedBy e z cause :=
  ⟨h.1, fun ha => by rw [h.2 (same.trans ha), fault]⟩

theorem Ride.But.of_sameZones (trains : ∀ j, some j ≠ K → b.standing j = a.standing j) (zones : a.SameZones b) (grows : a.grows b) :
    a.But b K H F V :=
  ⟨trains, fun z src _ => zones.held z src, fun z _ => zones.fault z, fun z _ => zones.speed z, grows⟩

/-! ### A train that rolls back -/

/-- The record of a train found going back: in ROLLBACK at its new position (R67). -/
def Train.rolled (x : Train) (head : ZoneIx) (tail : Option ZoneIx) : Train :=
  { x with phase := .rollback, head, tail, dir := .reverse, deadline := none, awaited := none }

theorem rollBack_follows (hx : r.train? k = some x) :
    Changes false false false (addHold c head .rollback (changeTrain c k x (x.rolled head tail) r)) (rollBack c k d head tail was r) ∧
    Ride.Led c false noChain (addHold c head .rollback (changeTrain c k x (x.rolled head tail) r)) (rollBack c k d head tail was r) ∧
    (rollBack c k d head tail was r).notice? .rollback = true ∧
    (d.rollback = false → (rollBack c k d head tail was r).cause? .rollbackUnguarded = true) ∧
    ∀ z, was z = true → (rollBack c k d head tail was r).OutputOff z := by
  have eq : rollBack c k d head tail was r =
      if d.rollback then (closeWhere c (fun z => was z ||
        (addHold c head .rollback (changeTrain c k x (x.rolled head tail) r)).occupant? z == some k)
        (addHold c head .rollback (changeTrain c k x (x.rolled head tail) r))).raise .rollback
      else ((closeWhere c (fun z => was z ||
        (addHold c head .rollback (changeTrain c k x (x.rolled head tail) r)).occupant? z == some k)
        (addHold c head .rollback (changeTrain c k x (x.rolled head tail) r))).raise .rollback).report .rollbackUnguarded := by
    simp only [rollBack, hx]
    rfl
  generalize addHold c head .rollback (changeTrain c k x (x.rolled head tail) r) = r2 at eq ⊢
  set r3 := closeWhere c (fun z => was z || r2.occupant? z == some k) r2 with hr3
  have closed : Changes false false false r2 (r3.raise .rollback) := (closeWhere_changes _).trans (raise_changes .rollback)
  have led : Ride.Led c false noChain r2 (r3.raise .rollback) := (closeWhere_led _).trans (.of_within (raise_within .rollback) rfl rfl)
  have notice : (r3.raise .rollback).notice? .rollback = true := raise_notice _ .rollback
  have off (z : ZoneIx) (h : was z = true) : (r3.raise .rollback).OutputOff z :=
    (closeWhere_off (by rw [h]; rfl)).changes (raise_changes (w := false) (q := false) .rollback)
  have report := report_changes (w := false) (o := false) (q := false) (r := r3.raise .rollback) .rollbackUnguarded
  rw [eq]
  split
  · next guarded => exact ⟨closed, led, notice, fun h => (by rw [guarded] at h; cases h), off⟩
  · exact ⟨closed.trans report, led.trans (.of_within (report_within _) rfl rfl), report.grows.2 _ notice, fun _ => report_cause _ _,
      fun z h => (off z h).changes report⟩

theorem rollBack_but (hx : r.train? k = some x) : r.But (rollBack c k d head tail was r) (some k) (some head) F V :=
  ((changeTrain_but k x (x.rolled head tail) r).trans (addHold_but head .rollback _)).trans
    (.of_changes (rollBack_follows (c := c) hx).1)

theorem rollBack_still (hx : r.train? k = some x) : (rollBack c k d head tail was r).StillAt k (x.rolled head tail) :=
  ((changeTrain_stillAt (by simp [Train.rolled])).addHold head .rollback).changes (rollBack_follows (c := c) hx).1

theorem rollBack_held (hx : r.train? k = some x) :
    ((r.zone? head).isSome = true → (rollBack c k d head tail was r).held head .rollback = true) ∧
    ∀ src, src ≠ .rollback → (rollBack c k d head tail was r).held head src = r.held head src := by
  have follows := (rollBack_follows (c := c) (d := d) (head := head) (tail := tail) (was := was) hx).1.keeps.holds
  have same (u : ZoneIx) : (changeTrain c k x (x.rolled head tail) r).zone? u = r.zone? u := (changeTrain_within k _ _).zone? rfl u
  refine ⟨fun hz => (follows head .rollback).trans (addHold_same ((congrArg Option.isSome (same head)).trans hz)), fun src ne => ?_⟩
  rw [follows, addHold_source ne, Ride.held, Ride.held, same]

theorem rollBack_pledged (hx : r.train? k = some x) (full : x.chain ≠ []) (claim : r.claim? z = some (.reserved k)) :
    (rollBack c k d head tail was r).Pledged k .rollback x.chain z := by
  have changed : (changeTrain c k x (x.rolled head tail) r).Pledged k .rollback x.chain z :=
    ⟨⟨_, changeTrain_train k x _, rfl, rfl⟩, (changeTrain_claim? k x _ z).trans claim⟩
  exact (rollBack_follows (c := c) hx).2.1.pledged (.rollback _) full (changed.addHold full head .rollback)

theorem rollBack_train (hx : r.train? k = some x) : ∃ y, (rollBack c k d head tail was r).train? k = some y := by
  obtain ⟨-, y, hy, -⟩ := rollBack_still (c := c) (d := d) (head := head) (tail := tail) (was := was) hx
  exact ⟨y, hy⟩

/-! ### A train that settles -/

/-- The record of a train that is wholly in one zone again (R70). -/
def Train.settled (c : Ctx) (x : Train) (z : ZoneIx) (dir : Direction) (stamp : Nat) : Train :=
  { x with
    phase := if c.map.isStopping z then .stopping else .rollback
    head := z, tail := none, dir, awaited := none
    deadline := some (deadlineFrom .stop stamp (c.stopAllowance z)) }

theorem settleTrain_eq (hx : r.train? k = some x) : settleTrain c k z dir stamp r = changeTrain c k x (x.settled c z dir stamp) r := by
  simp only [settleTrain, hx]
  rfl

theorem settled_phase (x : Train) (z : ZoneIx) (dir : Direction) (stamp : Nat) :
    (x.settled c z dir stamp).phase = .stopping ∨ (x.settled c z dir stamp).phase = .rollback := by
  unfold Train.settled
  dsimp only
  split
  · exact .inl rfl
  · exact .inr rfl

/-- A train that settles at the end of a step stands so to its end but for a directive, where it is in ROLLBACK, outside AUTO, or where its zone is barred. -/
theorem conclude_settled_still {before : Ride} (hx : a.train? k = some (x.settled c z dir stamp)) 
    (still : c.map.isStopping z = false ∨ c.calm a ∨ a.Barred z) :
    ∃ y, (conclude c before a).train? k = some y ∧ (x.settled c z dir stamp).Still y := by
  rcases settled_phase (c := c) x z dir stamp with phase | phase
  · refine ⟨_, ?_, .refl _⟩
    rcases still with passing | calm | barred
    · simp [Train.settled, passing] at phase
    · exact (conclude_led_calm calm).stopping hx phase
    · exact conclude_stopping_barred hx phase barred
  · have at_ : a.StillAt k (x.settled c z dir stamp) := ⟨by simp [phase], _, hx, .refl _⟩
    exact (at_.changes conclude_narrow).2

/-! ### A reverse crossing -/

/-- The record of a train after a reverse crossing (R69). -/
def Train.crossed (x : Train) (head : ZoneIx) (tail : Option ZoneIx) (dir : Direction) (speed : Option Nat) : Train :=
  { x with
    phase := .rollback, head, tail, dir, deadline := none, awaited := none
    lastSpeed := match speed with | some v => some v | none => x.lastSpeed }

theorem crossReverse_follows {speed : Option Nat} (hx : r.train? k = some x) :
    Changes false false false (changeTrain c k x (x.crossed head tail dir speed) r) (crossReverse c k head tail dir speed r) := by
  have eq : crossReverse c k head tail dir speed r =
      if x.phase = .rollback then changeTrain c k x (x.crossed head tail dir speed) r
      else closeWhere c (fun z => (changeTrain c k x (x.crossed head tail dir speed) r).occupant? z == some k)
        (changeTrain c k x (x.crossed head tail dir speed) r) := by
    simp only [crossReverse, hx]
    rfl
  rw [eq]
  split
  · exact .refl _
  · exact closeWhere_changes _

theorem crossReverse_but {speed : Option Nat} (hx : r.train? k = some x) : r.But (crossReverse c k head tail dir speed r) (some k) H F V :=
  (changeTrain_but k x (x.crossed head tail dir speed) r).trans (.of_changes (crossReverse_follows hx))

theorem crossReverse_still {speed : Option Nat} (hx : r.train? k = some x) :
    (crossReverse c k head tail dir speed r).StillAt k (x.crossed head tail dir speed) :=
  (changeTrain_stillAt (by simp [Train.crossed])).changes (crossReverse_follows hx)

end Sys2Proof.Machine
end

section
/-! PROOF. O49: rollback of a train, event by event (R24 to R28, R67 to R70). -/

namespace Sys2Proof.Machine

variable {c : Ctx} {a b e r : Ride} {z u head : ZoneIx} {tail : Option ZoneIx} {j k : SlotIx}
  {x y : Train} {o q : Bool} {d : BoundaryDesc} {claim new : Claim}
  {K : Option SlotIx} {H F V : Option ZoneIx} {stamp : Nat}

/-! ### Claims that train `k` moves -/

/-- From `a` to `b` zones have changed their claims alone, and no train but the one in slot `k` its place. -/
structure Ride.Reclaims (a b : Ride) (k : SlotIx) : Prop where
  zones : a.SameZones b
  trains : ∀ j, j ≠ k → b.standing j = a.standing j
  grows : a.grows b

namespace Ride.Reclaims

theorem trans (h : a.Reclaims b k) (n : b.Reclaims e k) : a.Reclaims e k :=
  ⟨h.zones.trans n.zones, fun j ne => (n.trains j ne).trans (h.trains j ne), h.grows.trans n.grows⟩

theorem of_changes (h : Changes false o q a b) : a.Reclaims b k := ⟨.of_changes h, fun j _ => h.keeps.trains j, h.grows⟩

theorem refl (a : Ride) : a.Reclaims a k := of_changes (.refl (w := false) (o := false) (q := false) a)

theorem putTrain (k : SlotIx) (y : Train) (r : Ride) : r.Reclaims (r.putTrain k y) k :=
  ⟨.of_within (putTrain_within k y) rfl, fun j ne => (putTrain_but (H := none) (F := none) (V := none) k y r).trains j (by simpa using ne), .refl r⟩

theorem onTrain (k : SlotIx) (f : Train → Train) (r : Ride) : r.Reclaims (r.onTrain k f) k := by
  unfold Ride.onTrain
  split
  · exact putTrain k _ r
  · exact refl r

theorem setClaim (z : ZoneIx) (new : Claim) (r : Ride) : r.Reclaims (setClaim c z new r) k :=
  of_changes (setClaim_changes (w := false) (o := false) z new (.inl rfl))

theorem setClaimOf (t : SlotIx) (z : ZoneIx) (new : Claim) (r : Ride) : r.Reclaims (setClaimOf c t z new r) k :=
  of_changes (setClaimOf_changes (w := false) (o := false) t z new)

theorem reinsert (k : SlotIx) (z : ZoneIx) (r : Ride) : r.Reclaims (reinsert c k z r) k := by
  unfold Machine.reinsert
  split
  · exact refl r
  · dsimp only
    split
    · exact setClaim z _ r
    · next x _ =>
      have put := (setClaim (c := c) (k := k) z (.reserved k) r).trans
        (putTrain k { x with chain := (z :: x.chain).take Config.chainLimit } _)
      split
      · split
        · exact put.trans (setClaim _ _ _)
        · exact put
      · exact put

theorem takeGuard (k : SlotIx) (z : ZoneIx) (b : BoundaryIx) (r : Ride) : r.Reclaims (takeGuard c k z b r) k := by
  have release : r.Reclaims (releaseGuard c k r) k := by
    unfold releaseGuard
    split
    · exact refl r
    · split
      · exact refl r
      · dsimp only
        split
        · exact (putTrain k _ r).trans (setClaim _ _ _)
        · exact putTrain k _ r
  unfold Machine.takeGuard
  split
  · exact refl r
  · exact (release.trans (setClaim _ _ _)).trans (onTrain k _ _)

theorem but (h : a.Reclaims b k) : a.But b (some k) H F V :=
  .of_sameZones (fun j ne => h.trains j (by simpa using ne)) h.zones h.grows

end Ride.Reclaims

/-- What stood before the end of a step but for parts of a train and of a zone stands so after it. -/
theorem Ride.But.concluded {before : Ride} (h : a.But b K H F V) : a.But (conclude c before b) K H F V :=
  h.trans (.of_changes conclude_narrow)

theorem conclude_claim {before : Ride} (stands : claim.loose = false) (h : a.claim? z = some claim) :
    (conclude c before a).claim? z = some claim := (conclude_narrow (c := c)).claim_kept z claim stands h

theorem zone_isSome_of_claim (h : r.claim? z = some claim) : (r.zone? z).isSome = true := by
  unfold Ride.claim? at h
  obtain ⟨v, hv, -⟩ := Option.map_eq_some_iff.mp h
  rw [hv]
  rfl

/-! ### A zone backed out of -/

theorem reinsert_train (ho : r.occupant? z = some k) (hx : r.train? k = some x) :
    (reinsert c k z r).train? k = some { x with chain := (z :: x.chain).take Config.chainLimit } := by
  have hx' : (setClaim c z (.reserved k) r).train? k = some x := (setClaim_train? z _ k).trans hx
  have put (r' : Ride) : (r'.putTrain k { x with chain := (z :: x.chain).take Config.chainLimit }).train? k = _ := tget_tput_same ..
  unfold reinsert
  rw [if_neg (by simp [ho])]
  simp only [hx']
  split
  · split
    · exact (setClaim_train? _ _ k).trans (put _)
    · exact put _
  · exact put _

/-- A zone returned to the front of a chain that did not hold it is RESERVED again (R26). -/
theorem reinsert_reserved (ho : r.occupant? z = some k) (hx : r.train? k = some x) (out : z ∉ x.chain) :
    (reinsert c k z r).claim? z = some (.reserved k) := by
  have hx' : (setClaim c z (.reserved k) r).train? k = some x := (setClaim_train? z _ k).trans hx
  obtain ⟨old, hold, -⟩ := Option.bind_eq_some_iff.mp ho
  have claimed : ((setClaim c z (.reserved k) r).putTrain k { x with chain := (z :: x.chain).take Config.chainLimit }).claim? z =
      some (.reserved k) := setClaim_self hold _
  unfold reinsert
  rw [if_neg (by simp [ho])]
  simp only [hx']
  split
  · next far hfar =>
    have other : z ≠ far := by
      rintro rfl
      exact out (List.mem_of_getElem? (i := 3) hfar)
    split
    · exact (setClaim_apart other _).trans claimed
    · exact claimed
  · exact claimed

/-! ### A train found going back (R67) -/

/-- What a train in slot `k` found going back at `d` leaves of `a`: the zone behind held, its output off, the ride stopped where `d` has no
rollback sensor. -/
structure Ride.WentBack (a b : Ride) (k : SlotIx) (d : BoundaryDesc) : Prop where
  but : a.But b (some k) (some d.up) none none
  notice : b.notice? .rollback = true
  held : (a.zone? d.up).isSome = true → b.held d.up .rollback = true
  others : ∀ src, src ≠ .rollback → b.held d.up src = a.held d.up src
  told : d.rollback = false → b.cause? .rollbackUnguarded = true
  off : a.occupant? d.up = some k → b.OutputOff d.up

theorem rollBack_wentBack (h : a.Reclaims r k) (hx : r.train? k = some x) :
    a.WentBack (rollBack c k d d.up tail (fun z => a.occupant? z == some k) r) k d := by
  obtain ⟨-, -, notice, told, off⟩ := rollBack_follows (c := c) (d := d) (head := d.up) (tail := tail)
    (was := fun z => a.occupant? z == some k) hx
  obtain ⟨held, others⟩ := rollBack_held (c := c) (d := d) (head := d.up) (tail := tail) (was := fun z => a.occupant? z == some k) hx
  exact ⟨h.but.trans (rollBack_but hx), notice, fun hz => held ((h.zones.isSome _).trans hz),
    fun src ne => (others src ne).trans (h.zones.held _ src), told, fun occupied => off _ (by simp [occupied])⟩

theorem Ride.WentBack.changeTrain (h : a.WentBack r k d) (x y : Train) : a.WentBack (changeTrain c k x y r) k d := by
  have moved := changeTrain_within (c := c) (r := r) k x y
  have keeps (src : HoldSource) : (Machine.changeTrain c k x y r).held d.up src = r.held d.up src := by
    rw [Ride.held, Ride.held, moved.zone? rfl]
  have but := h.but.trans (changeTrain_but (c := c) (H := some d.up) (F := none) (V := none) k x y r)
  have grows : r.grows (Machine.changeTrain c k x y r) := (changeTrain_but (H := none) (F := none) (V := none) k x y r).grows
  exact ⟨but, grows.2 _ h.notice, fun hz => (keeps _).trans (h.held hz), fun src ne => (keeps src).trans (h.others src ne),
    fun e => grows.1 _ (h.told e), fun e => (h.off e).congr (moved.element? rfl _)⟩

theorem Ride.WentBack.concluded {before : Ride} (h : a.WentBack b k d) : a.WentBack (conclude c before b) k d := by
  have narrow := conclude_narrow (c := c) (before := before) (after := b)
  have off (occupied : a.occupant? d.up = some k) : (conclude c before b).OutputOff d.up := by
    obtain ⟨claim, hc, -⟩ := Option.bind_eq_some_iff.mp occupied
    exact conclude_held_off (not_unheld (h.held (zone_isSome_of_claim hc))) (h.off occupied)
  exact ⟨h.but.concluded, narrow.grows.2 _ h.notice, fun hz => (narrow.keeps.holds _ _).trans (h.held hz),
    fun src ne => (narrow.keeps.holds _ _).trans (h.others src ne), fun e => narrow.grows.1 _ (h.told e), off⟩

/-- RETREAT: the train settles in the zone that it did not leave (R67, R70). -/
theorem onRetreat_ends {before : Ride} (h : r.headIn d.up = some (k, x)) (route : divergeCheck c r d = true) :
    r.WentBack (conclude c before (onRetreat c d stamp r)) k d ∧
    ∃ (w y : Train), (conclude c before (onRetreat c d stamp r)).train? k = some y ∧ (w.settled c d.up .reverse stamp).Still y := by
  obtain ⟨hx, -, -⟩ := headIn_spec h
  have back : r.WentBack (rollBack c k d d.up none (fun z => r.occupant? z == some k) r) k d := rollBack_wentBack (.refl r) hx
  obtain ⟨w, hw⟩ := rollBack_train (c := c) (d := d) (head := d.up) (tail := none) (was := fun z => r.occupant? z == some k) hx
  have eq : onRetreat c d stamp r = changeTrain c k w (w.settled c d.up .reverse stamp)
      (rollBack c k d d.up none (fun z => r.occupant? z == some k) r) := by
    rw [← settleTrain_eq hw]
    simp only [onRetreat, h, route, Bool.not_true, Bool.false_eq_true, if_false]
  have same := (onRetreat_changes (c := c) (r := r) (o := false) (q := false) d stamp).zone_isSome d.up
  have settled := back.changeTrain (c := c) w (w.settled c d.up .reverse stamp)
  rw [← eq] at settled
  have barred : (onRetreat c d stamp r).Barred d.up := by
    cases hz : (r.zone? d.up).isSome with
    | true => exact .inr (not_unheld (settled.held hz))
    | false => exact .inl (Option.isSome_eq_false_iff.mp (same.trans hz) |> Option.isNone_iff_eq_none.mp)
  refine ⟨settled.concluded, w, conclude_settled_still ?_ (.inr (.inr barred))⟩
  rw [eq]
  exact changeTrain_train k w _

theorem straddling_train (h : r.straddling d = some (k, x)) : r.train? k = some x := (matching_spec h).1

/-- A claim that a train stands by is kept through a rollback to the end of the step. -/
theorem rollBack_claim {was : ZoneIx → Bool} {before : Ride} (stands : claim.loose = false) (h : r.claim? z = some claim) :
    (conclude c before (rollBack c k d head tail was r)).claim? z = some claim :=
  conclude_claim stands ((rollBack_changes (c := c) (o := false) (q := false) k d head tail was).claim_kept z claim stands h)

/-- NOSE_BACK: the train is wholly in the zone that it was leaving (R25, R26, R67). -/
theorem onNoseBack_ends {before : Ride} (h : r.straddling d = some (k, x)) :
    r.WentBack (conclude c before (onNoseBack c d r)) k d ∧
    ∃ (w y : Train), (conclude c before (onNoseBack c d r)).train? k = some y ∧ (w.rolled d.up none).Still y ∧
      (r.claim? d.up = some (.exit k) → r.claim? d.down = some (.entry k) → d.down ∉ x.chain →
        (conclude c before (onNoseBack c d r)).claim? d.up = some (.occupied k) ∧
        (conclude c before (onNoseBack c d r)).claim? d.down = some (.reserved k) ∧ y.chain = (d.down :: x.chain).take 4) := by
  have hx := straddling_train h
  have hx1 : (setClaimOf c k d.up (.occupied k) r).train? k = some x := (setClaimOf_train ..).trans hx
  set r1 := reinsert c k d.down (setClaimOf c k d.up (.occupied k) r) with hr1
  have moved : r.Reclaims r1 k := (Ride.Reclaims.setClaimOf k d.up _ r).trans (.reinsert k d.down _)
  have eq : onNoseBack c d r = rollBack c k d d.up none (fun z => r.occupant? z == some k) r1 := by
    rw [hr1]
    simp only [onNoseBack, h]
  obtain ⟨w, hw⟩ : ∃ w, r1.train? k = some w := Option.isSome_iff_exists.mp
    ((reinsert_changes (c := c) (o := false) k d.down).train_isSome k |>.trans (by rw [hx1]; rfl))
  rw [eq]
  obtain ⟨-, y, hy, still⟩ := (rollBack_still (c := c) (d := d) (head := d.up) (tail := none)
    (was := fun z => r.occupant? z == some k) hw).changes (conclude_narrow (before := before))
  refine ⟨(rollBack_wentBack moved hw).concluded, w, y, hy, still, fun hu hd out => ?_⟩
  have ne : d.down ≠ d.up := by
    intro e
    rw [e, hu] at hd
    cases hd
  have down : (setClaimOf c k d.up (.occupied k) r).occupant? d.down = some k :=
    occupant_of ((setClaimOf_apart ne _).trans hd) rfl
  have hup : r1.claim? d.up = some (.occupied k) := reinsert_claim ne.symm rfl (setClaimOf_self (occupant_of hu rfl) _)
  have hw' : w = { x with chain := (d.down :: x.chain).take Config.chainLimit } := Option.some.inj (hw.symm.trans (reinsert_train down hx1))
  have full : w.chain ≠ [] := by simp [hw', Config.chainLimit]
  obtain ⟨⟨y', hy', -, chain⟩, held⟩ := conclude_pledged (before := before) (.inl rfl) full
    (rollBack_pledged (c := c) (d := d) (head := d.up) (tail := none) (was := fun z => r.occupant? z == some k) hw full
      (reinsert_reserved down hx1 out))
  cases Option.some.inj (hy.symm.trans hy')
  exact ⟨rollBack_claim rfl hup, held, chain.trans (by rw [hw']; rfl)⟩

/-- BACKING: the zones that the train straddles exchange their claims (R25, R67). -/
theorem onBacking_ends {before : Ride} (h : r.straddling d = some (k, x)) :
    r.WentBack (conclude c before (onBacking c d r)) k d ∧
    (∃ (w y : Train), (conclude c before (onBacking c d r)).train? k = some y ∧ (w.rolled d.up (some d.down)).Still y) ∧
    (r.occupant? d.up = some k → r.occupant? d.down = some k → d.up ≠ d.down →
      (conclude c before (onBacking c d r)).claim? d.up = some (.entry k) ∧
      (conclude c before (onBacking c d r)).claim? d.down = some (.exit k)) := by
  set r1 := setClaimOf c k d.down (.exit k) (setClaimOf c k d.up (.entry k) r) with hr1
  have moved : r.Reclaims r1 k := (Ride.Reclaims.setClaimOf k d.up _ r).trans (.setClaimOf k d.down _ _)
  have hx : r1.train? k = some x := ((setClaimOf_train ..).trans (setClaimOf_train ..)).trans (straddling_train h)
  have eq : onBacking c d r = rollBack c k d d.up (some d.down) (fun z => r.occupant? z == some k) r1 := by
    rw [hr1]
    simp only [onBacking, h]
  rw [eq]
  obtain ⟨-, y, hy, still⟩ := (rollBack_still (c := c) (d := d) (head := d.up) (tail := some d.down)
    (was := fun z => r.occupant? z == some k) hx).changes (conclude_narrow (before := before))
  refine ⟨(rollBack_wentBack moved hx).concluded, ⟨x, y, hy, still⟩, fun hu hd ne => ?_⟩
  have down : (setClaimOf c k d.up (.entry k) r).occupant? d.down = some k := occupant_apart (setClaimOf_apart ne.symm _) hd
  exact ⟨rollBack_claim rfl ((setClaimOf_apart ne _).trans (setClaimOf_self hu _)), rollBack_claim rfl (setClaimOf_self down _)⟩

/-! ### Reverse approach and retreat -/

/-- R_APPROACH of a train that moves on its merge's side: it is in ROLLBACK (R68). -/
theorem onReverseApproach_ends {before : Ride} {b : BoundaryIx} (h : r.headIn d.down = some (k, x))
    (moves : ¬(x.phase = .held ∨ x.phase = .parked ∨ mergeCheck c r b d = false)) :
    (r.putTrain k { x with awaited := none }).Keeps (conclude c before (onReverseApproach c b d r)) ∧
    (conclude c before (onReverseApproach c b d r)).notice? .rollback = true ∧
    ∃ y, (conclude c before (onReverseApproach c b d r)).train? k = some y ∧ y.phase = .rollback ∧ y.dir = .reverse ∧ y.deadline = none := by
  set w : Train := { x with phase := .rollback, dir := .reverse, deadline := none, awaited := none } with hw
  set r1 := changeTrain c k x w r with hr1
  have eq : onReverseApproach c b d r = (closeWhere c (fun z => r1.occupant? z == some k) r1).raise .rollback := by
    simp only [onReverseApproach, h, if_neg moves]
    rfl
  have closed : Changes false false false r1 ((closeWhere c (fun z => r1.occupant? z == some k) r1).raise .rollback) :=
    (closeWhere_changes _).trans (raise_changes _)
  rw [eq]
  obtain ⟨-, y, hy, -, -, phase, deadline, dir, -⟩ := ((changeTrain_stillAt (c := c) (k := k) (x := x) (y := w) (r := r) (by simp [hw])).changes
    closed).changes (conclude_narrow (before := before))
  have kept : (r.putTrain k { x with awaited := none }).Keeps r1 := changeTrain_keeps rfl
  exact ⟨(kept.trans closed.keeps).trans conclude_narrow.keeps,
    conclude_narrow.grows.2 _ (raise_notice _ .rollback), y, hy, phase, dir, deadline⟩

theorem onReverseApproach_lost {b : BoundaryIx} (h : r.headIn d.down = some (k, x))
    (off : x.phase = .held ∨ x.phase = .parked ∨ mergeCheck c r b d = false) : onReverseApproach c b d r = loseTrain c k x r := by
  simp only [onReverseApproach, h, if_pos off]

theorem onReverseRetreat_lost {b : BoundaryIx} (h : r.headIn d.down = some (k, x)) (off : mergeCheck c r b d = false) :
    onReverseRetreat c b d stamp r = loseTrain c k x r := by
  simp only [onReverseRetreat, h, off, Bool.not_false, if_true]

theorem onReverseNoseIn_off {b : BoundaryIx} {interval : Nat} (h : r.headIn d.down = some (k, x)) (off : mergeCheck c r b d = false) :
    onReverseNoseIn c b d interval r = loseTrain c k x r := by
  simp only [onReverseNoseIn, h, off, Bool.not_false, if_true]

/-- R_RETREAT: a train in ROLLBACK or OVERDUE settles in the zone that it did not leave (R70). -/
theorem onReverseRetreat_settles {b : BoundaryIx} (h : r.headIn d.down = some (k, x)) (side : mergeCheck c r b d = true)
    (moves : x.phase = .rollback ∨ x.phase = .overdue) :
    onReverseRetreat c b d stamp r = changeTrain c k x (x.settled c d.down .forward stamp) r := by
  rw [← settleTrain_eq (headIn_spec h).1]
  simp only [onReverseRetreat, h, side, Bool.not_true, Bool.false_eq_true, if_false, if_pos moves]

theorem onReverseRetreat_ends {before : Ride} {b : BoundaryIx} (h : r.headIn d.down = some (k, x)) (side : mergeCheck c r b d = true)
    (moves : x.phase = .rollback ∨ x.phase = .overdue) :
    (r.putTrain k { x with head := d.down, tail := none, awaited := none }).Keeps (conclude c before (onReverseRetreat c b d stamp r)) ∧
    ∃ y, (conclude c before (onReverseRetreat c b d stamp r)).train? k = some y ∧
      (c.calm (onReverseRetreat c b d stamp r) → (x.settled c d.down .forward stamp).Still y) := by
  have settled : (onReverseRetreat c b d stamp r).train? k = some (x.settled c d.down .forward stamp) := by
    rw [onReverseRetreat_settles h side moves]
    exact changeTrain_train k x _
  obtain ⟨y, hy, -⟩ := (conclude_narrow (c := c) (before := before)).train_kept k _ settled
  refine ⟨?_, y, hy, fun calm => ?_⟩
  · have kept : (r.putTrain k { x with head := d.down, tail := none, awaited := none }).Keeps (onReverseRetreat c b d stamp r) := by
      rw [onReverseRetreat_settles h side moves]
      exact changeTrain_keeps rfl
    exact kept.trans conclude_narrow.keeps
  · obtain ⟨y', hy', still⟩ := conclude_settled_still (before := before) settled (.inr (.inl calm))
    cases Option.some.inj (hy.symm.trans hy')
    exact still

end Sys2Proof.Machine
end

section
/-! PROOF. O49: reverse crossings (R24, R25, R27, R69) and the obligation. -/

namespace Sys2Proof.Machine

variable {c : Ctx} {a b e r : Ride} {z u src dst head : ZoneIx} {tail : Option ZoneIx} {j k : SlotIx}
  {x y : Train} {o q : Bool} {d : BoundaryDesc} {bi : BoundaryIx} {claim new : Claim}
  {K : Option SlotIx} {H F V : Option ZoneIx} {stamp v interval : Nat}

/-! ### Crossings settled -/

theorem recordEntry_but (z : ZoneIx) (v : Nat) (r : Ride) : r.But (recordEntry z v r) K H F (some z) := by
  unfold recordEntry
  split
  · next zr hz => exact putZone_but hz (.inl rfl) (.inl rfl) (.inr rfl)
  · exact .refl r

theorem recordEntry_speed (hz : (r.zone? z).isSome = true) (v : Nat) : (recordEntry z v r).entrySpeed z = some v := by
  obtain ⟨zr, hzr⟩ := Option.isSome_iff_exists.mp hz
  have put : (r.putZone z { zr with entrySpeed := some v }).zone? z = some { zr with entrySpeed := some v } := tget_tput_same ..
  simp only [recordEntry, hzr, Ride.entrySpeed, put, Option.bind_some]

theorem recordEntry_claim? (z : ZoneIx) (v : Nat) (u : ZoneIx) : (recordEntry z v r).claim? u = r.claim? u := by
  unfold recordEntry
  split
  · next zr hz => exact putZone_claim_kept (v' := { zr with entrySpeed := some v }) hz rfl u
  · rfl

/-- What the crossing of the train in slot `k` from `src` into `dst` leaves of `a`: the claims on both, and the entry speeds. -/
structure Ride.Crossed (a b : Ride) (k : SlotIx) (src dst : ZoneIx) : Prop where
  entry : b.claim? dst = some (.entry k)
  exit : b.claim? src = some (.exit k)
  speeds : ∀ z, b.entrySpeed z = a.entrySpeed z

theorem setClaim_crossed (zones : a.SameZones r) (hs : (a.zone? src).isSome = true) (hd : (a.zone? dst).isSome = true) (ne : src ≠ dst) :
    a.Crossed (setClaim c src (.exit k) (setClaim c dst (.entry k) r)) k src dst := by
  have claimed {z : ZoneIx} (hz : (a.zone? z).isSome = true) : ∃ old, r.claim? z = some old :=
    Option.isSome_iff_exists.mp ((Option.isSome_map ..).trans ((zones.isSome z).trans hz))
  obtain ⟨_, hd'⟩ := claimed hd
  obtain ⟨_, hs'⟩ := claimed hs
  have both : r.Reclaims (setClaim c src (.exit k) (setClaim c dst (.entry k) r)) k := (Ride.Reclaims.setClaim dst _ r).trans (.setClaim src _ _)
  exact ⟨(setClaim_apart ne.symm _).trans (setClaim_self hd' _), setClaim_self ((setClaim_apart ne _).trans hs') _,
    fun z => ((zones.trans both.zones).speed z)⟩

theorem settleCrossing_none (h : r.claim? src ≠ some (.occupied k) ∨ claim.occupant ≠ none) (hd : r.claim? dst = some claim) :
    settleCrossing c k src dst r = none := by
  unfold settleCrossing
  split
  · rfl
  · next at_ =>
    have taken : claim.occupant.isSome = true := Option.isSome_iff_ne_none.mpr (h.resolve_left at_)
    simp only [hd, taken, if_true]

theorem crossing_apart (hs : r.claim? src = some (.occupied k)) (hd : r.claim? dst = some claim) (free : claim.occupant = none) : src ≠ dst := by
  rintro rfl
  cases hs.symm.trans hd
  cases free

/-- A crossing into a zone that the train holds (R24). -/
theorem settleCrossing_own (hs : r.claim? src = some (.occupied k)) (hd : r.claim? dst = some claim) (free : claim.occupant = none)
    (own : claim.holder = some k) : ∃ b, settleCrossing c k src dst r = some b ∧ r.Crossed b k src dst ∧ r.Reclaims b k := by
  have drops : r.Reclaims (dropGuard k dst (dropFromChain k dst r)) k := (Ride.Reclaims.onTrain k _ r).trans (.onTrain k _ _)
  refine ⟨setClaim c src (.exit k) (setClaim c dst (.entry k) (dropGuard k dst (dropFromChain k dst r))), ?_,
    setClaim_crossed drops.zones (zone_isSome_of_claim hs) (zone_isSome_of_claim hd) (crossing_apart hs hd free),
    (drops.trans (.setClaim dst _ _)).trans (.setClaim src _ _)⟩
  simp only [settleCrossing, hs, hd, free, own, ne_eq, not_true_eq_false, if_false, Option.isSome_none, Bool.false_eq_true, if_true]

theorem takeFrom_sameZones (claim : Claim) (z : ZoneIx) : r.SameZones (takeFrom c claim z r) := by
  unfold takeFrom
  split
  · next t =>
    split
    · exact (Ride.Reclaims.onTrain t _ r).zones.trans (.of_changes (closeElement_changes (w := false) (o := false) (q := false) _))
    · exact .of_changes (.refl (w := false) (o := false) (q := false) r)
  · next t => exact (Ride.Reclaims.onTrain t _ r).zones
  · exact .of_changes (.refl (w := false) (o := false) (q := false) r)

/-- A crossing into a zone that the train does not hold faults it with OVERRUN (R24). -/
theorem settleCrossing_foreign (hs : r.claim? src = some (.occupied k)) (hd : r.claim? dst = some claim) (free : claim.occupant = none)
    (foreign : claim.holder ≠ some k) :
    ∃ b, settleCrossing c k src dst r = some b ∧ r.Crossed b k src dst ∧ r.faultedBy b dst .overrun := by
  set r1 := setClaim c src (.exit k) (setClaim c dst (.entry k) (takeFrom c claim dst r)) with hr1
  have zones : r.SameZones r1 := (takeFrom_sameZones claim dst).trans
    ((Ride.Reclaims.setClaim (k := k) dst _ _).trans (.setClaim src _ _)).zones
  obtain ⟨entry, exit, speeds⟩ : r.Crossed r1 k src dst := setClaim_crossed (takeFrom_sameZones claim dst)
    (zone_isSome_of_claim hs) (zone_isSome_of_claim hd) (crossing_apart hs hd free)
  have faults := setZoneFault_changes (c := c) (r := r1) (w := true) (o := false) (q := false) dst .overrun rfl
  have fault : r1.faultedBy (setZoneFault c dst .overrun r1) dst .overrun :=
    setZoneFault_faultedBy (by simp) (.refl (w := false) (o := false) (q := false) _)
  refine ⟨setZoneFault c dst .overrun r1, ?_, ⟨faults.claim_kept _ _ rfl entry, faults.claim_kept _ _ rfl exit, fun z => ?_⟩,
    fault.of_same (zones.isSome _) (zones.fault _)⟩
  · simp only [settleCrossing, hs, hd, free, foreign, ne_eq, not_true_eq_false, if_false, Option.isSome_none, Bool.false_eq_true, hr1]
  · exact ((setZoneFault_but (K := none) (H := none) (V := none) dst .overrun r1).speeds z (by simp)).trans (speeds z)

/-! ### R_NOSE_IN -/

/-- What a ride `b` in which a reverse crossing has been settled leaves once the train is in ROLLBACK and its zone held (R24, R69). -/
theorem crossReverse_ends {before : Ride} (h : a.Crossed b k d.down d.up) (hw : b.train? k = some x) :
    a.Crossed (conclude c before (addHold c d.up .rollback (crossReverse c k d.up (some d.down) .reverse (some v) b))) k d.down d.up ∧
    b.But (conclude c before (addHold c d.up .rollback (crossReverse c k d.up (some d.down) .reverse (some v) b))) (some k) (some d.up) F V ∧
    (conclude c before (addHold c d.up .rollback (crossReverse c k d.up (some d.down) .reverse (some v) b))).held d.up .rollback = true ∧
    ∃ y, (conclude c before (addHold c d.up .rollback (crossReverse c k d.up (some d.down) .reverse (some v) b))).train? k = some y ∧
      (x.crossed d.up (some d.down) .reverse (some v)).Still y := by
  set r1 := crossReverse c k d.up (some d.down) .reverse (some v) b with hr1
  have wide : Changes true false false b (addHold c d.up .rollback r1) :=
    (crossReverse_changes k d.up (some d.down) .reverse (some v)).trans (addHold_changes d.up .rollback rfl)
  have narrow := conclude_narrow (c := c) (before := before) (after := addHold c d.up .rollback r1)
  have but {F V : Option ZoneIx} : b.But (conclude c before (addHold c d.up .rollback r1)) (some k) (some d.up) F V :=
    ((crossReverse_but hw).trans (addHold_but d.up .rollback r1)).concluded
  have zone : (r1.zone? d.up).isSome = true :=
    ((crossReverse_changes (c := c) (o := false) (q := false) k d.up (some d.down) .reverse (some v)).zone_isSome d.up).trans
      (zone_isSome_of_claim h.entry)
  exact ⟨⟨conclude_claim rfl (wide.claim_kept _ _ rfl h.entry), conclude_claim rfl (wide.claim_kept _ _ rfl h.exit),
      fun z => ((but (F := none) (V := none)).speeds z (by simp)).trans (h.speeds z)⟩,
    but, (narrow.keeps.holds _ _).trans (addHold_same zone), (((crossReverse_still hw).addHold d.up .rollback).changes narrow).2⟩

theorem onReverseNoseIn_lost (h : r.headIn d.down = some (k, x)) (side : mergeCheck c r bi d = true) (hu : r.claim? d.up = some claim)
    (off : r.claim? d.down ≠ some (.occupied k) ∨ claim.occupant ≠ none) :
    onReverseNoseIn c bi d interval r = loseTrain c k x (recordEntry d.up (crossingSpeed d.gate interval) r) := by
  have none_ : settleCrossing c k d.down d.up (recordEntry d.up (crossingSpeed d.gate interval) r) = none :=
    settleCrossing_none (by rwa [recordEntry_claim?]) ((recordEntry_claim? ..).trans hu)
  simp only [onReverseNoseIn, h, side, Bool.not_true, Bool.false_eq_true, if_false, none_]

theorem onReverseNoseIn_settled {b : Ride} (h : r.headIn d.down = some (k, x)) (side : mergeCheck c r bi d = true)
    (settled : settleCrossing c k d.down d.up (recordEntry d.up (crossingSpeed d.gate interval) r) = some b) :
    onReverseNoseIn c bi d interval r =
      addHold c d.up .rollback (crossReverse c k d.up (some d.down) .reverse (some (crossingSpeed d.gate interval)) b) := by
  simp only [onReverseNoseIn, h, side, Bool.not_true, Bool.false_eq_true, if_false, settled]

theorem loseTrain_but (k : SlotIx) (x : Train) (r : Ride) : r.But (loseTrain c k x r) (some k) H F V :=
  (putTrain_but k x.lost r).trans (.of_changes (loseTrain_narrow k x r))

/-- A crossing that the zones contradict makes the train LOST, the speed in the zone entered recorded (R24, R69). -/
theorem onReverseNoseIn_contradicted {out before : Ride} (ends : out = conclude c before (onReverseNoseIn c bi d interval r))
    (h : r.headIn d.down = some (k, x)) (side : mergeCheck c r bi d = true) (hu : r.claim? d.up = some claim)
    (off : r.claim? d.down ≠ some (.occupied k) ∨ claim.occupant ≠ none) :
    out.entrySpeed d.up = some (crossingSpeed d.gate interval) ∧ out.lostIn k ∧ r.Apart out k none := by
  set r1 := recordEntry d.up (crossingSpeed d.gate interval) r with hr1
  obtain ⟨keeps, lost⟩ : (r1.putTrain k { x with awaited := none }).Keeps out ∧ out.lostIn k := by
    rw [ends, onReverseNoseIn_lost h side hu off]
    exact loseTrain_lost conclude_narrow
  have speed : r1.entrySpeed d.up = some (crossingSpeed d.gate interval) := recordEntry_speed (zone_isSome_of_claim hu) _
  have but : r.But out (some k) none none (some d.up) := by
    rw [ends, onReverseNoseIn_lost h side hu off]
    exact ((recordEntry_but d.up _ r).trans (loseTrain_but k x _)).concluded
  exact ⟨(keeps.speeds d.up).trans speed, lost, but.apart⟩

/-- A crossing that the zones allow, but for what it leaves of a zone that the train did or did not hold (R24, R69). -/
theorem onReverseNoseIn_crosses {out before settled : Ride} (ends : out = conclude c before (onReverseNoseIn c bi d interval r))
    (h : r.headIn d.down = some (k, x)) (side : mergeCheck c r bi d = true) (hu : r.claim? d.up = some claim)
    (made : settleCrossing c k d.down d.up (recordEntry d.up (crossingSpeed d.gate interval) r) = some settled)
    (crossed : (recordEntry d.up (crossingSpeed d.gate interval) r).Crossed settled k d.down d.up) :
    (recordEntry d.up (crossingSpeed d.gate interval) r).Crossed out k d.down d.up ∧ settled.But out (some k) (some d.up) F V ∧
    out.entrySpeed d.up = some (crossingSpeed d.gate interval) ∧ out.held d.up .rollback = true ∧
    ∃ y, out.train? k = some y ∧ y.label = x.label ∧ y.phase = .rollback ∧ y.head = d.up ∧ y.tail = some d.down ∧
      y.dir = .reverse ∧ y.deadline = none ∧ y.awaited = none ∧ y.lastSpeed = some (crossingSpeed d.gate interval) := by
  have hx1 : (recordEntry d.up (crossingSpeed d.gate interval) r).train? k = some x := (recordEntry_train ..).trans (headIn_spec h).1
  obtain ⟨w, hw, label⟩ := (settleCrossing_changes (o := false) made).label_kept k x hx1
  rw [ends, onReverseNoseIn_settled h side made]
  obtain ⟨kept, but, held, y, hy, ⟨head, tail, -, speed, awaited, -⟩, label', phase, deadline, dir, -⟩ := crossReverse_ends (c := c)
    (before := before) (F := F) (V := V) (v := crossingSpeed d.gate interval) crossed hw
  exact ⟨kept, but, (kept.speeds d.up).trans (recordEntry_speed (zone_isSome_of_claim hu) _), held, y, hy, label'.trans label, phase, head,
    tail, dir, deadline, awaited, speed⟩

/-- R_NOSE_IN into a zone that admits the train (R24, R69). -/
theorem onReverseNoseIn_ends {out before : Ride} (ends : out = conclude c before (onReverseNoseIn c bi d interval r))
    (h : r.headIn d.down = some (k, x)) (side : mergeCheck c r bi d = true) (hu : r.claim? d.up = some claim)
    (hd : r.claim? d.down = some (.occupied k)) (free : claim.occupant = none) :
    out.entrySpeed d.up = some (crossingSpeed d.gate interval) ∧
    out.claim? d.down = some (.exit k) ∧ out.claim? d.up = some (.entry k) ∧ out.held d.up .rollback = true ∧
    (∃ y, out.train? k = some y ∧ y.label = x.label ∧ y.phase = .rollback ∧ y.head = d.up ∧ y.tail = some d.down ∧
      y.dir = .reverse ∧ y.deadline = none ∧ y.awaited = none ∧ y.lastSpeed = some (crossingSpeed d.gate interval)) ∧
    (claim.holder = some k → r.Apart out k (some d.up) ∧ out.zoneFault d.up = r.zoneFault d.up) ∧
    (claim.holder ≠ some k → r.faultedBy out d.up .overrun) := by
  have recorded : r.But (recordEntry d.up (crossingSpeed d.gate interval) r) (some k) (some d.up) none (some d.up) := recordEntry_but d.up _ r
  have hd1 := (recordEntry_claim? d.up (crossingSpeed d.gate interval) d.down).trans hd
  have hu1 := (recordEntry_claim? d.up (crossingSpeed d.gate interval) d.up).trans hu
  by_cases own : claim.holder = some k
  · obtain ⟨settled, made, crossed, moved⟩ := settleCrossing_own (c := c) hd1 hu1 free own
    obtain ⟨kept, but, speed, held, train⟩ := onReverseNoseIn_crosses (F := none) (V := some d.up) ends h side hu made crossed
    have all := (recorded.trans moved.but).trans but
    exact ⟨speed, kept.exit, kept.entry, held, train, fun _ => ⟨all.apart, all.faults d.up (by simp)⟩, fun foreign => absurd own foreign⟩
  · obtain ⟨settled, made, crossed, fault⟩ := settleCrossing_foreign (c := c) hd1 hu1 free own
    obtain ⟨kept, but, speed, held, train⟩ := onReverseNoseIn_crosses (F := none) (V := some d.up) ends h side hu made crossed
    have same : (out.zone? d.up).isSome = (settled.zone? d.up).isSome :=
      (zone_isSome_of_claim kept.entry).trans (zone_isSome_of_claim crossed.entry).symm
    exact ⟨speed, kept.exit, kept.entry, held, train, fun e => absurd e own, fun _ => (fault.but but same).of_same
      ((zone_isSome_of_claim hu1).trans (zone_isSome_of_claim hu).symm) (recorded.faults d.up (by simp))⟩

/-! ### Straddling trains whose nose or tail moves in reverse -/

/-- A guard taken is GUARDED, and the guard of its train's record (R27). -/
theorem takeGuard_self (ho : r.occupant? z = some k) (hx : r.train? k = some x) (bi : BoundaryIx) :
    (takeGuard c k z bi r).claim? z = some (.guarded k) ∧ (takeGuard c k z bi r).train? k = some { x with guard := some (z, bi) } := by
  obtain ⟨old, hold, -⟩ := Option.bind_eq_some_iff.mp (releaseGuard_occupant (c := c) (t := k) ho)
  have train : (setClaim c z (.guarded k) (releaseGuard c k r)).train? k = some { x with guard := none } :=
    (setClaim_train? z _ k).trans (releaseGuard_train hx)
  unfold takeGuard
  rw [if_neg (by simp [ho])]
  refine ⟨(onTrain_claim? ..).trans (setClaim_self hold _), ?_⟩
  rw [onTrain_train, if_pos rfl, train]
  rfl

/-- A claim that a train stands by is kept through a reverse crossing to the end of the step. -/
theorem crossReverse_claim {dir : Direction} {before : Ride} (stands : claim.loose = false) (h : r.claim? z = some claim) :
    (conclude c before (crossReverse c k head tail dir none r)).claim? z = some claim :=
  conclude_claim stands ((crossReverse_changes (c := c) (o := false) (q := false) k head tail dir none).claim_kept z claim stands h)

theorem crossReverse_concluded {dir : Direction} {before : Ride} (hx : r.train? k = some x) :
    ∃ y, (conclude c before (crossReverse c k head tail dir none r)).train? k = some y ∧ (x.crossed head tail dir none).Still y :=
  ((crossReverse_still hx).changes (conclude_narrow (before := before))).2

/-- R_NOSE_BACK: the zone that the nose leaves becomes the train's guard (R25, R27, R69). -/
theorem onReverseNoseBack_ends {before : Ride} (h : r.straddling d = some (k, x)) (hu : r.claim? d.up = some (.entry k))
    (hd : r.claim? d.down = some (.exit k)) :
    r.But (conclude c before (onReverseNoseBack c bi d r)) (some k) none none none ∧
    (conclude c before (onReverseNoseBack c bi d r)).claim? d.down = some (.occupied k) ∧
    (conclude c before (onReverseNoseBack c bi d r)).claim? d.up = some (.guarded k) ∧
    ∃ y, (conclude c before (onReverseNoseBack c bi d r)).train? k = some y ∧
      ({ x with guard := some (d.up, bi) }.crossed d.down none .forward none : Train).Still y := by
  have ne : d.down ≠ d.up := by
    intro e
    rw [e, hu] at hd
    cases hd
  obtain ⟨up, train⟩ := takeGuard_self (c := c) (occupant_of hu rfl) (straddling_train h) bi
  have down : (takeGuard c k d.up bi r).occupant? d.down = some k := occupant_of (takeGuard_claim ne (by simp) hd bi) rfl
  set r1 := setClaimOf c k d.down (.occupied k) (takeGuard c k d.up bi r) with hr1
  have moved : r.Reclaims r1 k := (Ride.Reclaims.takeGuard k d.up bi r).trans (.setClaimOf k d.down _ _)
  have hx : r1.train? k = some { x with guard := some (d.up, bi) } := (setClaimOf_train ..).trans train
  have eq : onReverseNoseBack c bi d r = crossReverse c k d.down none .forward none r1 := by
    rw [hr1]
    simp only [onReverseNoseBack, h]
  rw [eq]
  exact ⟨(moved.but.trans (crossReverse_but hx)).concluded, crossReverse_claim rfl (setClaimOf_self down _),
    crossReverse_claim rfl ((setClaimOf_apart ne.symm _).trans up), crossReverse_concluded hx⟩

/-- R_BACKING: the zones that the train straddles exchange their claims (R25, R69). -/
theorem onReverseBacking_ends {before : Ride} (h : r.straddling d = some (k, x)) (hu : r.claim? d.up = some (.entry k))
    (hd : r.claim? d.down = some (.exit k)) :
    r.But (conclude c before (onReverseBacking c d r)) (some k) none none none ∧
    (conclude c before (onReverseBacking c d r)).claim? d.down = some (.entry k) ∧
    (conclude c before (onReverseBacking c d r)).claim? d.up = some (.exit k) ∧
    ∃ y, (conclude c before (onReverseBacking c d r)).train? k = some y ∧ (x.crossed d.down (some d.up) .forward none).Still y := by
  have ne : d.down ≠ d.up := by
    intro e
    rw [e, hu] at hd
    cases hd
  have down : (setClaimOf c k d.up (.exit k) r).occupant? d.down = some k := occupant_of ((setClaimOf_apart ne _).trans hd) rfl
  set r1 := setClaimOf c k d.down (.entry k) (setClaimOf c k d.up (.exit k) r) with hr1
  have moved : r.Reclaims r1 k := (Ride.Reclaims.setClaimOf k d.up _ r).trans (.setClaimOf k d.down _ _)
  have hx : r1.train? k = some x := ((setClaimOf_train ..).trans (setClaimOf_train ..)).trans (straddling_train h)
  have eq : onReverseBacking c d r = crossReverse c k d.down (some d.up) .forward none r1 := by
    rw [hr1]
    simp only [onReverseBacking, h]
  rw [eq]
  exact ⟨(moved.but.trans (crossReverse_but hx)).concluded, crossReverse_claim rfl (setClaimOf_self down _),
    crossReverse_claim rfl ((setClaimOf_apart ne.symm _).trans (setClaimOf_self (occupant_of hu rfl) _)), crossReverse_concluded hx⟩

/-- R_TAIL_CLEAR: the train is wholly in the zone that it entered, and the zone that its tail left is RESERVED for it again; in ROLLBACK or
OVERDUE it settles there (R25, R26, R70). -/
theorem onReverseTailClear_ends {before : Ride} (h : r.straddling d = some (k, x)) (hu : r.claim? d.up = some (.entry k))
    (hd : r.claim? d.down = some (.exit k)) :
    r.But (conclude c before (onReverseTailClear c d stamp r)) (some k) none none none ∧
    (conclude c before (onReverseTailClear c d stamp r)).claim? d.up = some (.occupied k) ∧
    ∃ y, (conclude c before (onReverseTailClear c d stamp r)).train? k = some y ∧ y.head = d.up ∧ y.tail = none ∧
      (d.down ∉ x.chain → (c.calm (onReverseTailClear c d stamp r) ∨ c.map.isStopping d.up = false) → x.phase = .rollback ∨ x.phase = .overdue →
        (conclude c before (onReverseTailClear c d stamp r)).claim? d.down = some (.reserved k) ∧ y.chain = (d.down :: x.chain).take 4 ∧
        ∃ w : Train, (w.settled c d.up .reverse stamp).Still y) := by
  have hx := straddling_train h
  have hx1 : (setClaimOf c k d.up (.occupied k) r).train? k = some x := (setClaimOf_train ..).trans hx
  have ne : d.down ≠ d.up := by
    intro e
    rw [e, hu] at hd
    cases hd
  have down : (setClaimOf c k d.up (.occupied k) r).occupant? d.down = some k := occupant_of ((setClaimOf_apart ne _).trans hd) rfl
  set r1 := reinsert c k d.down (setClaimOf c k d.up (.occupied k) r) with hr1
  have moved : r.Reclaims r1 k := (Ride.Reclaims.setClaimOf k d.up _ r).trans (.reinsert k d.down _)
  have hup : r1.claim? d.up = some (.occupied k) := reinsert_claim ne.symm rfl (setClaimOf_self (occupant_of hu rfl) _)
  have back : r1.train? k = some { x with chain := (d.down :: x.chain).take Config.chainLimit } := reinsert_train down hx1
  have closed : Changes false false false r1 (closeElement c d.down r1) := closeElement_changes d.down
  obtain ⟨w, hw, -⟩ := closed.train_kept k _ back
  have eq : onReverseTailClear c d stamp r = changeTrain c k w (if w.phase = .rollback ∨ w.phase = .overdue then w.settled c d.up .reverse stamp
      else { w with head := d.up, tail := none }) (closeElement c d.down r1) := by
    rw [hr1] at hw
    simp only [onReverseTailClear, h, hw]
    split
    · rw [settleTrain_eq hw]
    · rfl
  generalize hv : (if w.phase = .rollback ∨ w.phase = .overdue then w.settled c d.up .reverse stamp
      else { w with head := d.up, tail := none }) = v at eq
  have place : v.head = d.up ∧ v.tail = none := by
    rw [← hv]
    split <;> exact ⟨rfl, rfl⟩
  have but : r.But (onReverseTailClear c d stamp r) (some k) none none none := by
    rw [eq]
    exact (moved.but.trans (.of_changes closed)).trans (changeTrain_but k w v _)
  have hv' : (onReverseTailClear c d stamp r).train? k = some v := by
    rw [eq]
    exact changeTrain_train k w v
  have claimed : (onReverseTailClear c d stamp r).claim? d.up = some (.occupied k) := by
    rw [eq]
    exact (changeTrain_claim? ..).trans (closed.claim_kept _ _ rfl hup)
  obtain ⟨y, hy, -, head, tail, -⟩ := (conclude_narrow (c := c) (before := before)).train_kept k v hv'
  refine ⟨but.concluded, conclude_claim rfl claimed, y, hy, head.trans place.1, tail.trans place.2, fun out calm moves => ?_⟩
  have fixed : x.phase.Fixed false := ⟨by rcases moves with e | e <;> simp [e], by rcases moves with e | e <;> simp [e], fun _ => rfl⟩
  have full : (d.down :: x.chain).take Config.chainLimit ≠ [] := by simp [Config.chainLimit]
  obtain ⟨⟨w', hw', phase, chain⟩, held⟩ := (closeElement_led (c := c) (p := false) (P := noChain) d.down).pledged fixed full
    ⟨⟨_, back, rfl, rfl⟩, reinsert_reserved down hx1 out⟩
  cases Option.some.inj (hw.symm.trans hw')
  rw [if_pos (by rw [phase]; exact moves)] at hv
  subst hv
  have pledged : (onReverseTailClear c d stamp r).Pledged k (w.settled c d.up .reverse stamp).phase
      ((d.down :: x.chain).take Config.chainLimit) d.down :=
    ⟨⟨_, hv', rfl, chain⟩, by rw [eq]; exact (changeTrain_claim? ..).trans held⟩
  have rolls : (w.settled c d.up .reverse stamp).phase = .rollback ∨
      (w.settled c d.up .reverse stamp).phase = .stopping ∧ c.calm (onReverseTailClear c d stamp r) := by
    rcases calm with calm | passing
    · exact (settled_phase w d.up .reverse stamp).symm.imp_right fun e => ⟨e, calm⟩
    · exact .inl (by simp [Train.settled, passing])
  obtain ⟨⟨y', hy', -, chain'⟩, held'⟩ := conclude_pledged (before := before) rolls full pledged
  obtain ⟨y2, hy2, still⟩ := conclude_settled_still (before := before) hv' (calm.symm.imp_right .inl)
  cases Option.some.inj (hy.symm.trans hy')
  cases Option.some.inj (hy.symm.trans hy2)
  exact ⟨held', chain', w, still⟩

end Sys2Proof.Machine
end

section
/-! PROOF. O49: the obligation, assembled event by event. -/

namespace Sys2Proof.Machine

variable {s : State} {dt : Nat} {line : SensorLine} {b : BoundaryIx} {d : BoundaryDesc} {stamp : Nat} {k : SlotIx} {x y : Train}
  {e : PassageEvent} {r : Ride}

/-- A train that has settled stands so, under the map of the step. -/
theorem settled_stands {z : ZoneIx} {dir : Direction} {w : Train} (still : (w.settled (s.advance dt).ctx z dir stamp).Still y) :
    y.head = z ∧ y.tail = none ∧ y.dir = dir ∧ y.awaited = none ∧ y.phase = (if s.map.isStopping z then .stopping else .rollback) ∧
    y.deadline = some { kind := .stop, start := stamp, duration := s.ctx.stopAllowance z, early := none } := by
  obtain ⟨⟨head, tail, -, -, awaited, -⟩, -, phase, deadline, dir', -⟩ := still
  exact ⟨head, tail, dir', awaited, phase, deadline⟩

/-- The ride after a boundary's event that makes the train at it LOST: nothing of the ride but what is awaited is forgotten. -/
theorem loseTrain_concluded {c : Ctx} {before : Ride} (k : SlotIx) (x : Train) (r : Ride) :
    (r.putTrain k { x with awaited := none }).Keeps (conclude c before (loseTrain c k x r)) ∧
    (conclude c before (loseTrain c k x r)).lostIn k := loseTrain_lost conclude_narrow

/-- Outside AUTO or with the ride stop latched, a boundary's event leaves the ride so. -/
theorem State.calm.handed (calm : s.calm) (b : BoundaryIx) (d : BoundaryDesc) (stamp : Nat) (e : PassageEvent) :
    (s.advance dt).ctx.calm (handEvent (s.advance dt).ctx b d stamp e s.ride) :=
  Ctx.calm.changes (c := (s.advance dt).ctx) (a := s.ride) calm (handEvent_changes (o := false) b d stamp e)

/-- A train found going back, by RETREAT, NOSE_BACK or BACKING. -/
theorem State.Reports.goesBack (h : s.Reports dt line b d stamp e)
    (found : e = .retreat .forward ∧ s.ride.headIn d.up = some (k, x) ∧ divergeCheck s.ctx s.ride d = true ∨
      (e = .noseBack .forward ∨ e = .backing .forward) ∧ s.ride.straddling d = some (k, x)) :
    ∃ t y, exec (.trackSensorEdge dt line) s = .next t ∧ s.ride.WentBack t.ride k d ∧
      t.ride.train? k = some y ∧ y.head = d.up ∧ y.dir = .reverse ∧ y.awaited = none ∧
      (e = .retreat .forward → y.tail = none ∧
        (s.calm → y.phase = (if s.map.isStopping d.up then .stopping else .rollback) ∧
          y.deadline = some { kind := .stop, start := stamp, duration := s.ctx.stopAllowance d.up, early := none })) ∧
      (e = .noseBack .forward → y.tail = none ∧ y.phase = .rollback ∧ y.deadline = none ∧
        (s.ride.claim? d.up = some (.exit k) → s.ride.claim? d.down = some (.entry k) → d.down ∉ x.chain →
          t.ride.claim? d.up = some (.occupied k) ∧ t.ride.claim? d.down = some (.reserved k) ∧
          y.chain = (d.down :: x.chain).take 4)) ∧
      (e = .backing .forward → y.tail = some d.down ∧ y.phase = .rollback ∧ y.deadline = none ∧
        (s.ride.occupant? d.up = some k → s.ride.occupant? d.down = some k → d.up ≠ d.down →
          t.ride.claim? d.up = some (.entry k) ∧ t.ride.claim? d.down = some (.exit k))) := by
  obtain ⟨t, ht, ride⟩ := h.exec_ride
  refine ⟨t, ?_⟩
  rcases found with ⟨rfl, hk, route⟩ | ⟨rfl | rfl, hk⟩
  · obtain ⟨back, w, y, hy, still⟩ := onRetreat_ends (c := (s.advance dt).ctx) (before := s.ride) (stamp := stamp) hk route
    obtain ⟨head, tail, dir, awaited, phase, deadline⟩ := settled_stands still
    exact ⟨y, ht, ride ▸ back, ride ▸ hy, head, dir, awaited, fun _ => ⟨tail, fun _ => ⟨phase, deadline⟩⟩, by simp, by simp⟩
  · obtain ⟨back, w, y, hy, ⟨⟨head, tail, -, -, awaited, -⟩, -, phase, deadline, dir, -⟩, claims⟩ :=
      onNoseBack_ends (c := (s.advance dt).ctx) (before := s.ride) hk
    exact ⟨y, ht, ride ▸ back, ride ▸ hy, head, dir, awaited, by simp, fun _ => ⟨tail, phase, deadline, ride ▸ claims⟩, by simp⟩
  · obtain ⟨back, ⟨w, y, hy, ⟨head, tail, -, -, awaited, -⟩, -, phase, deadline, dir, -⟩, claims⟩ :=
      onBacking_ends (c := (s.advance dt).ctx) (before := s.ride) hk
    exact ⟨y, ht, ride ▸ back, ride ▸ hy, head, dir, awaited, by simp, by simp, fun _ => ⟨tail, phase, deadline, ride ▸ claims⟩⟩

/-- R_APPROACH of a train. -/
theorem State.Reports.reverseApproach (h : s.Reports dt line b d stamp (.approach .reverse)) (hk : s.ride.headIn d.down = some (k, x)) :
    ∃ t, exec (.trackSensorEdge dt line) s = .next t ∧ (s.ride.putTrain k { x with awaited := none }).Keeps t.ride ∧
      if x.phase = .held ∨ x.phase = .parked ∨ mergeCheck s.ctx s.ride b d = false then t.ride.lostIn k
      else t.ride.notice? .rollback = true ∧
        ∃ y, t.ride.train? k = some y ∧ y.phase = .rollback ∧ y.dir = .reverse ∧ y.deadline = none := by
  obtain ⟨t, ht, ride⟩ := h.exec_ride
  replace ride : t.ride = conclude (s.advance dt).ctx s.ride (onReverseApproach (s.advance dt).ctx b d s.ride) := ride
  refine ⟨t, ht, ?_⟩
  split
  · next off =>
    rw [ride, onReverseApproach_lost (c := (s.advance dt).ctx) hk off]
    exact loseTrain_concluded k x s.ride
  · next moves =>
    obtain ⟨keeps, ends⟩ := onReverseApproach_ends (c := (s.advance dt).ctx) (before := s.ride) hk moves
    exact ⟨ride ▸ keeps, ride ▸ ends⟩

/-- R_RETREAT and R_NOSE_IN of a train off its merge's side. -/
theorem State.Reports.offSide (h : s.Reports dt line b d stamp e) (event : e = .retreat .reverse ∨ ∃ interval, e = .noseIn .reverse interval)
    (hk : s.ride.headIn d.down = some (k, x)) (off : mergeCheck s.ctx s.ride b d = false) :
    ∃ t, exec (.trackSensorEdge dt line) s = .next t ∧ (s.ride.putTrain k { x with awaited := none }).Keeps t.ride ∧ t.ride.lostIn k := by
  obtain ⟨t, ht, ride⟩ := h.exec_ride
  have lost : handEvent (s.advance dt).ctx b d stamp e s.ride = loseTrain (s.advance dt).ctx k x s.ride := by
    rcases event with rfl | ⟨interval, rfl⟩
    · exact onReverseRetreat_lost hk off
    · exact onReverseNoseIn_off hk off
  rw [lost] at ride
  exact ⟨t, ht, ride ▸ loseTrain_concluded k x s.ride⟩

/-- R_RETREAT of a train in ROLLBACK or OVERDUE on its merge's side. -/
theorem State.Reports.reverseRetreat (h : s.Reports dt line b d stamp (.retreat .reverse)) (hk : s.ride.headIn d.down = some (k, x))
    (side : mergeCheck s.ctx s.ride b d = true) (moves : x.phase = .rollback ∨ x.phase = .overdue) :
    ∃ t y, exec (.trackSensorEdge dt line) s = .next t ∧
      (s.ride.putTrain k { x with head := d.down, tail := none, awaited := none }).Keeps t.ride ∧ t.ride.train? k = some y ∧
      (s.calm → y.dir = .forward ∧ y.phase = (if s.map.isStopping d.down then .stopping else .rollback) ∧
        y.deadline = some { kind := .stop, start := stamp, duration := s.ctx.stopAllowance d.down, early := none }) := by
  obtain ⟨t, ht, ride⟩ := h.exec_ride
  obtain ⟨keeps, y, hy, still⟩ := onReverseRetreat_ends (c := (s.advance dt).ctx) (before := s.ride) (stamp := stamp) hk side moves
  refine ⟨t, y, ht, ride ▸ keeps, ride ▸ hy, fun calm => ?_⟩
  obtain ⟨-, -, dir, -, phase, deadline⟩ := settled_stands (still (calm.handed b d stamp (.retreat .reverse)))
  exact ⟨dir, phase, deadline⟩

/-- R_NOSE_IN of a train on its merge's side. -/
theorem State.Reports.reverseNoseIn {interval : Nat} {claim : Claim} (h : s.Reports dt line b d stamp (.noseIn .reverse interval))
    (hk : s.ride.headIn d.down = some (k, x)) (side : mergeCheck s.ctx s.ride b d = true) (hu : s.ride.claim? d.up = some claim) :
    ∃ t, exec (.trackSensorEdge dt line) s = .next t ∧ t.ride.entrySpeed d.up = some (crossingSpeed d.gate interval) ∧
      (s.ride.claim? d.down = some (.occupied k) → claim.occupant = none →
        t.ride.claim? d.down = some (.exit k) ∧ t.ride.claim? d.up = some (.entry k) ∧ t.ride.held d.up .rollback = true ∧
        (∃ y, t.ride.train? k = some y ∧ y.label = x.label ∧ y.phase = .rollback ∧ y.head = d.up ∧ y.tail = some d.down ∧
          y.dir = .reverse ∧ y.deadline = none ∧ y.awaited = none ∧ y.lastSpeed = some (crossingSpeed d.gate interval)) ∧
        (claim.holder = some k → s.ride.Apart t.ride k (some d.up) ∧ t.ride.zoneFault d.up = s.ride.zoneFault d.up) ∧
        (claim.holder ≠ some k → s.ride.faultedBy t.ride d.up .overrun)) ∧
      (s.ride.claim? d.down ≠ some (.occupied k) ∨ claim.occupant ≠ none → t.ride.lostIn k ∧ s.ride.Apart t.ride k none) := by
  obtain ⟨t, ht, ride⟩ := h.exec_ride
  replace ride : t.ride = conclude (s.advance dt).ctx s.ride (onReverseNoseIn (s.advance dt).ctx b d interval s.ride) := ride
  refine ⟨t, ht, ?_, fun hd free => ?_, fun off => (onReverseNoseIn_contradicted ride hk side hu off).2⟩
  · by_cases admits : s.ride.claim? d.down = some (.occupied k) ∧ claim.occupant = none
    · exact (onReverseNoseIn_ends ride hk side hu admits.1 admits.2).1
    · exact (onReverseNoseIn_contradicted ride hk side hu (not_and_or.mp admits)).1
  · exact (onReverseNoseIn_ends ride hk side hu hd free).2

/-- A straddling train whose nose or tail crosses in reverse. -/
theorem State.Reports.straddles (h : s.Reports dt line b d stamp e) (hk : s.ride.straddling d = some (k, x))
    (event : e = .noseBack .reverse ∨ e = .backing .reverse ∨ e = .tailClear .reverse) (hu : s.ride.claim? d.up = some (.entry k))
    (hd : s.ride.claim? d.down = some (.exit k)) :
    ∃ t y, exec (.trackSensorEdge dt line) s = .next t ∧ s.ride.But t.ride (some k) none none none ∧ t.ride.train? k = some y ∧
      (e = .noseBack .reverse → y.phase = .rollback ∧ y.head = d.down ∧ y.tail = none ∧ y.dir = .forward ∧
        y.guard = some (d.up, b) ∧ t.ride.claim? d.down = some (.occupied k) ∧ t.ride.claim? d.up = some (.guarded k)) ∧
      (e = .backing .reverse → y.phase = .rollback ∧ y.head = d.down ∧ y.tail = some d.up ∧ y.dir = .forward ∧
        t.ride.claim? d.down = some (.entry k) ∧ t.ride.claim? d.up = some (.exit k)) ∧
      (e = .tailClear .reverse → y.head = d.up ∧ y.tail = none ∧ t.ride.claim? d.up = some (.occupied k) ∧
        (d.down ∉ x.chain → (s.calm ∨ s.map.isStopping d.up = false) → x.phase = .rollback ∨ x.phase = .overdue →
          t.ride.claim? d.down = some (.reserved k) ∧ y.chain = (d.down :: x.chain).take 4 ∧ y.dir = .reverse ∧
          y.awaited = none ∧ y.phase = (if s.map.isStopping d.up then .stopping else .rollback) ∧
          y.deadline = some { kind := .stop, start := stamp, duration := s.ctx.stopAllowance d.up, early := none })) := by
  obtain ⟨t, ht, ride⟩ := h.exec_ride
  rcases event with rfl | rfl | rfl
  · obtain ⟨but, down, up, y, hy, ⟨head, tail, guard, -⟩, -, phase, -, dir, -⟩ :=
      onReverseNoseBack_ends (c := (s.advance dt).ctx) (bi := b) (before := s.ride) hk hu hd
    exact ⟨t, y, ht, ride ▸ but, ride ▸ hy, fun _ => ⟨phase, head, tail, dir, guard, ride ▸ down, ride ▸ up⟩, by simp, by simp⟩
  · obtain ⟨but, down, up, y, hy, ⟨head, tail, -⟩, -, phase, -, dir, -⟩ :=
      onReverseBacking_ends (c := (s.advance dt).ctx) (before := s.ride) hk hu hd
    exact ⟨t, y, ht, ride ▸ but, ride ▸ hy, by simp, fun _ => ⟨phase, head, tail, dir, ride ▸ down, ride ▸ up⟩, by simp⟩
  · obtain ⟨but, up, y, hy, head, tail, settles⟩ :=
      onReverseTailClear_ends (c := (s.advance dt).ctx) (stamp := stamp) (before := s.ride) hk hu hd
    refine ⟨t, y, ht, ride ▸ but, ride ▸ hy, by simp, by simp, fun _ => ⟨head, tail, ride ▸ up, fun out calm moves => ?_⟩⟩
    obtain ⟨down, chain, w, still⟩ := settles out (calm.imp_left fun calm => calm.handed b d stamp (.tailClear .reverse)) moves
    obtain ⟨-, -, dir, awaited, phase, deadline⟩ := settled_stands still
    exact ⟨ride ▸ down, chain, dir, awaited, phase, deadline⟩

/-- Settles O49: each event of a rollback, from what its handler leaves of the ride at the end of the step. -/
theorem rollbackTravel : Obligations.RollbackTravel := by
  unfold Obligations.RollbackTravel
  intro s dt line b d stamp k x
  refine ⟨fun e h found => ?_, fun h hk => h.reverseApproach hk, fun e h event hk off => h.offSide event hk off,
    fun h hk side moves => h.reverseRetreat hk side moves, fun interval v claim h hk side hu hv => ?_, fun e h hk event hu hd => ?_⟩
  · obtain ⟨t, y, ht, ⟨but, notice, held, others, told, off⟩, hy, head, dir, awaited, events⟩ := h.goesBack found
    exact ⟨t, y, ht, but.apart, hy, head, dir, awaited, notice, held, others, told, fun occupied => elementOutput_off (off occupied), events⟩
  · subst hv
    exact h.reverseNoseIn hk side hu
  · obtain ⟨t, y, ht, but, hy, events⟩ := h.straddles hk event hu hd
    exact ⟨t, y, ht, but.apart, fun z => ⟨but.speeds z (by simp), but.faults z (by simp)⟩, hy, events⟩

end Sys2Proof.Machine
end
